-- ==== Sys2Proof/Word.lean ====
section
/-! DEFINITION. Word types of the package and the identifiers of its units (R5, R18, R19, R23). -/

namespace Sys2Proof

/-- One byte of memory. -/
abbrev Byte := BitVec 8
/-- A register word (all registers are 32 bits wide). -/
abbrev W32 := BitVec 32
/-- A 64-bit value: scalar registers, operands, counts of the reference counter. -/
abbrev W64 := BitVec 64
/-- A 48-bit endpoint coordinate (R310). -/
abbrev Ec := BitVec 48
/-- A package-local address (R169). -/
abbrev Local := BitVec 44

/-- Tiller t (R12). -/
abbrev TillerId := Fin 8
/-- Panicle index t × 192 + p, package-wide (R19, Table 13-6). -/
abbrev PanId := Fin 1536
/-- Spikelet index t × 12,288 + p × 64 + s, package-wide (Table 13-6). -/
abbrev SpkId := Fin 98304
/-- Floret index: spikelet index × 16 + f. -/
abbrev FloretId := Fin 1572864
/-- HBM stack, also its granary controller (R15). -/
abbrev StackId := Fin 24
/-- Straw (R14). -/
abbrev StrawId := Fin 32
/-- Sheaf (R288). -/
abbrev SheafId := Fin 32
/-- One direction of a node bridge: bridge × 2 + direction (R13, R282). -/
abbrev DirId := Fin 24
/-- A die: tillers 0–7, the hub 8 (R342). -/
abbrev DieId := Fin 9
/-- Host queue (R399). -/
abbrev QueueId := Fin 4096
/-- Context ID (R417). -/
abbrev CtxId := Fin 4096
/-- Thermal zone 12t + z (R19). -/
abbrev ZoneId := Fin 96
/-- Transport endpoint (R331): panicle movers 0–1535, granary controllers 1536–1559, stream
sequencers 1560–1567, the hub transport engine 1568. -/
abbrev EpId := Fin 1569

end Sys2Proof
end

