-- ==== Sys2Proof/Syntax.lean ====
section
/-! DEFINITION. The commands of the block: one constructor of `Instr` per row of the table of
operations and events, with the operands that the row's rule names. -/

namespace Sys2Proof

/-- A packet as it crosses the fabric (Tables 9-3 to 9-7). `word` holds bytes 24–31 of reduction
packets (Table 10-4) and of bundle packets (Tables 11-2, 11-3); ordinary packets use `rtag`,
`status` and `addr` instead. `via` is no field of the packet: the straw that the sender of a reduction packet or of a
BOOT_DATA block names (R347, R440), which its routers go by. -/
structure Packet where
  dst     : Ec := 0
  src     : Ec := 0
  slice   : BitVec 16 := 0
  data    : Bool := false
  epoch   : BitVec 1 := 0
  vc      : BitVec 3 := 0
  esc     : Bool := false
  pkgs    : BitVec 4 := 0
  ctx     : BitVec 12 := 0
  gen     : BitVec 8 := 0
  tseq    : BitVec 16 := 0
  ack     : BitVec 16 := 0
  av      : Bool := false
  new     : Bool := false
  kind    : BitVec 2 := 0
  op      : BitVec 8 := 0
  rtag    : BitVec 9 := 0
  status  : BitVec 8 := 0
  addr    : Local := 0
  word    : W64 := 0
  opa     : W64 := 0
  opb     : W64 := 0
  opc     : W64 := 0
  opd     : W64 := 0
  payload : List Byte := []
  via     : Option (Fin 32) := none
deriving DecidableEq, Repr

/-- An error that a read finds: word index within what the read covers, and whether it is
uncorrectable (R42, R611). -/
structure EccHit where
  word : Nat
  ue   : Bool
deriving DecidableEq, Repr

/-- Outcome of the granary codes on one line read (R239): words corrected, uncorrectable, line
check failed with all words clean or corrected. -/
structure LineEcc where
  ce      : Nat := 0
  ue      : Bool := false
  addrErr : Bool := false
deriving DecidableEq, Repr

/-- The row streams that the lattice reads (R56 to R58). -/
inductive RowStream where
  | weights | metadata | scales
deriving DecidableEq, Repr

/-- The arbiter instances (Table 6-2). -/
inductive ArbId where
  | bank (s : SpkId)
  | hbm (n : StackId) (pc : Fin 64)
  | inject (p : PanId)
  | sheaf (s : StrawId)
deriving DecidableEq, Repr

/-- A granary controller request (R221). `line` is the stack-local line number LA[35:6]. -/
structure GrnReq where
  cls  : Fin 6
  line : BitVec 30
  ctx  : BitVec 12
  gen  : BitVec 8
  write : Bool
  mask : BitVec 64
  bytes : List Byte
deriving DecidableEq, Repr

/-- A combiner: the router of a panicle, or a straw port (R345). -/
inductive NodeId where
  | router (p : PanId)
  | straw (s : StrawId)
deriving DecidableEq, Repr

/-- Where a reduction packet arrives: a combiner or a leaf (R349). -/
inductive RedId where
  | node (n : NodeId)
  | leaf (p : PanId)
deriving DecidableEq, Repr

/-- The key of a reduction chunk (R349). -/
structure RedKey where
  tree  : BitVec 8
  tag   : BitVec 8
  chunk : BitVec 13
deriving DecidableEq, Repr

/-- A holder of bundle records: a panicle store's home, an agent, or a granary controller's home
(R370, R372). -/
inductive HomeId where
  | store (p : PanId)
  | agent (p : PanId)
  | stack (n : StackId)
deriving DecidableEq, Repr

/-- A bundle ID (R367). -/
structure BndId where
  ec  : Ec
  seq : BitVec 24
deriving DecidableEq, Repr

/-- One lane or both planes of a bridge direction: plane A is `false`, plane B `true` (R261). -/
abbrev Plane := Bool

/-- A flit with its link tag, as a mesh link receives it (R252). -/
structure MeshFlit where
  data : BitVec 512
  vc   : BitVec 3
  typ  : BitVec 3
  crc  : BitVec 16
deriving DecidableEq, Repr

/-- A flit as it comes in on a mesh link: `replay` says that the sender has gone back to the one that failed (R254). -/
structure MeshArrival where
  flit   : MeshFlit
  replay : Bool
deriving DecidableEq, Repr

/-- The ranges, each a virtual address and a number of bytes, that a context's step streams (R248). -/
structure PrimeReq where
  ctx    : CtxId
  ranges : List (W64 × Nat)
deriving DecidableEq, Repr

/-- What a gleaner read returns: of a spikelet the row named of its bank, as it stands there (R52), else the bytes that the
unit answers. -/
structure GleanData where
  row   : Option (Fin 512)
  bytes : List Byte
deriving DecidableEq, Repr

/-- The identity fields of a ROLL_CALL frame (Table 8-5). -/
structure RollFrame where
  holdsPlan  : Bool
  echoValid  : Bool
  up         : Bool
  rack       : BitVec 12
  x          : BitVec 4
  y          : BitVec 4
  z          : BitVec 4
  kind       : BitVec 4
  serial     : W64
  straw      : BitVec 5
  plan       : W64
  echoSerial : W64
  echoStraw  : BitVec 5
deriving DecidableEq, Repr

/-- One floret start request of a graph step (R120, R192). -/
structure StartReq where
  floret : FloretId
  pc     : BitVec 19
  lwBase : BitVec 9
  lwRows : BitVec 7
  lwRes  : BitVec 7
deriving DecidableEq, Repr

/-- A mover descriptor (Table 4-13a). -/
structure MovFields where
  src   : W64
  dst   : W64
  len   : BitVec 32
  fence : Bool
  sig   : Bool
  spec  : Bool
  resv  : Bool
  sync  : W64
deriving DecidableEq, Repr

/-- What a step descriptor names (R50, R111, R211, R616). The layout of the graph descriptor in the
granary is not in the source; the command carries what the steward and the sequencers read there. -/
structure StepDesc where
  panicles  : List PanId
  spikelets : List SpkId
  members   : List SpkId
  starts    : List StartReq
  landing   : List (SpkId × List (Fin 512))
  runAhead  : List (PanId × MovFields)
  cells     : List Local
deriving DecidableEq, Repr

/-- A graph: its steps in order. -/
abbrev GraphDesc := List StepDesc

/-- A record of REDUCE_TREE_SETUP's list: hosting EC, the straw of a straw-port combiner, leaf or node, and
the words of the entry (Tables 10-2, 10-3). The layout of a record is not in the source; the command
carries what the steward reads there. -/
structure TreeRec where
  host  : Ec
  straw : Option StrawId
  leaf  : Bool
  words : List W32
deriving DecidableEq, Repr

/-- Bring-up phases (Table 13-1). -/
inductive Phase where
  | rom | verify | transit | tillers | granary | firmware | floor | ready | failed
deriving DecidableEq, Repr

/-- What a boot self-test or in-field test finds in one unit (R458, R462, R463, R465): a scan domain that
mismatches (spikelet, panicle, tiller, stack, hub), a small array of a spikelet or panicle, a PLL that fails, or
what its own name says. -/
inductive Finding where
  | spikelet (s : SpkId)
  | panicle (p : PanId)
  | tiller (t : TillerId)
  | stack (n : StackId)
  | array (s : SpkId)
  | panArray (p : PanId)
  | hubClock
  | tillerPll (t : TillerId)
  | stackPll (n : StackId)
  | bridgePll (d : Fin 24)
  | channel (n : StackId) (c : Fin 32)
  | straw (s : StrawId)
  | bankRows (s : SpkId) (rows : List (Fin 512)) (badSpares : List (Fin 8))
  | storeRows (p : PanId) (rows : List (Fin 2048)) (badSpares : List (Fin 16))
  | hub
  | sensor (z : ZoneId) (b : Bool)
  | grnRows (n : StackId) (rows : List (BitVec 36))
deriving DecidableEq, Repr

/-- An access path to registers (R589), and the doorbell pages of the PF's and of a VF's BAR2 (R399, R400,
R404). -/
inductive Path where
  | pf
  | vf (n : Fin 63)
  | steward
  | ring
  | bells
  | vfBells (n : Fin 63)
deriving DecidableEq, Repr

/-- The SPDM transports (R579). -/
inductive SpdmPort where
  | mctp | doe | vc6
deriving DecidableEq, Repr

/-- What a TAP instruction is (R548): the spec names two of them. -/
inductive TapIr where
  | idcode
  | bypass
  | other (ir : BitVec 8)
deriving DecidableEq, Repr

/-- Vertices of the wait-cycle detector (Table 15-8), with the package that each is in: a queue, the running
step of a context on a tiller, a cell by its address (with the context, 0 elsewhere, of a virtual one). -/
inductive Vertex where
  | queue (pkg : BitVec 24) (q : QueueId)
  | step (pkg : BitVec 24) (t : TillerId) (c : CtxId)
  | cell (pkg : BitVec 24) (c : CtxId) (a : Local)
deriving DecidableEq, Repr

/-- A wait-for edge: source, target, owner context. -/
structure Edge where
  src   : Vertex
  dst   : Vertex
  owner : CtxId
deriving DecidableEq, Repr

/-- A steward-to-steward message that the spec describes (R425 to R427, R440, R491); any other
payload is defined by Camnik firmware. A forwarded command comes with its queue's configuration
word. -/
inductive StwMsg where
  | forward (src : Ec) (q : QueueId) (seq : W32) (cfg : W32) (bytes : List Byte)
  | completion (q : QueueId) (seq : W32) (member : Fin 64) (status : BitVec 16) (result : W64)
  | edge (post : Bool) (e : Edge)
  | firmware (src : Ec) (bytes : List Byte)
  | absent (axis : Fin 3) (coord : Fin 4)
deriving DecidableEq, Repr

/-- Sideband input pins whose level an event names (Table 17-1). -/
inductive StrapPin where
  | bootSel0 | bootSel1 | compatH3
deriving DecidableEq, Repr

/-- The commands: one constructor per row of the table; each docstring gives the row and the rule
that names it. -/
inductive Instr where
  /-- FLORET_START (R120). -/
  | floretStart (f : FloretId) (pc : BitVec 19) (arg : W64) (lwBase : BitVec 9) (lwRows lwRes : BitVec 7)
  /-- FLORET_UNBLOCK (R33). -/
  | floretUnblock (f : FloretId)
  /-- FLORET_WAKE (R33). -/
  | floretWake (f : FloretId)
  /-- PARK_EXPIRE (R33). -/
  | parkExpire (f : FloretId)
  /-- FLORET_HALT_DONE (R33). -/
  | floretHaltDone (f : FloretId)
  /-- FAULT_RECORD_CLEAR (R168). -/
  | faultRecordClear (s : SpkId)
  /-- IBUF_FILL (R38). -/
  | ibufFill (f : FloretId) (hits : List EccHit)
  /-- ISSUE_BUBBLE (R35). -/
  | issueBubble (s : SpkId)
  /-- ADD (R127). -/
  | add (f : FloretId) (g : BitVec 4) (d a b : BitVec 5)
  /-- SUB (R127). -/
  | sub (f : FloretId) (g : BitVec 4) (d a b : BitVec 5)
  /-- AND (R127). -/
  | and (f : FloretId) (g : BitVec 4) (d a b : BitVec 5)
  /-- OR (R127). -/
  | or (f : FloretId) (g : BitVec 4) (d a b : BitVec 5)
  /-- XOR (R127). -/
  | xor (f : FloretId) (g : BitVec 4) (d a b : BitVec 5)
  /-- SHL (R127). -/
  | shl (f : FloretId) (g : BitVec 4) (d a b : BitVec 5)
  /-- SHR (R127). -/
  | shr (f : FloretId) (g : BitVec 4) (d a b : BitVec 5)
  /-- SRA (R127). -/
  | sra (f : FloretId) (g : BitVec 4) (d a b : BitVec 5)
  /-- MIN (R127). -/
  | min (f : FloretId) (g : BitVec 4) (d a b : BitVec 5)
  /-- MAX (R127). -/
  | max (f : FloretId) (g : BitVec 4) (d a b : BitVec 5)
  /-- MINU (R127). -/
  | minu (f : FloretId) (g : BitVec 4) (d a b : BitVec 5)
  /-- MAXU (R127). -/
  | maxu (f : FloretId) (g : BitVec 4) (d a b : BitVec 5)
  /-- MUL (R127). -/
  | mul (f : FloretId) (g : BitVec 4) (d a b : BitVec 5)
  /-- MULH (R127). -/
  | mulh (f : FloretId) (g : BitVec 4) (d a b : BitVec 5)
  /-- MULHU (R127). -/
  | mulhu (f : FloretId) (g : BitVec 4) (d a b : BitVec 5)
  /-- SEXT_8 (R127). -/
  | sext8 (f : FloretId) (g : BitVec 4) (d a b : BitVec 5)
  /-- SEXT_16 (R127). -/
  | sext16 (f : FloretId) (g : BitVec 4) (d a b : BitVec 5)
  /-- SEXT_32 (R127). -/
  | sext32 (f : FloretId) (g : BitVec 4) (d a b : BitVec 5)
  /-- CLZ (R127). -/
  | clz (f : FloretId) (g : BitVec 4) (d a b : BitVec 5)
  /-- POPC (R127). -/
  | popc (f : FloretId) (g : BitVec 4) (d a b : BitVec 5)
  /-- ADD_I (R127). -/
  | addI (f : FloretId) (g : BitVec 4) (d a : BitVec 5) (imm : BitVec 12)
  /-- AND_I (R127). -/
  | andI (f : FloretId) (g : BitVec 4) (d a : BitVec 5) (imm : BitVec 12)
  /-- OR_I (R127). -/
  | orI (f : FloretId) (g : BitVec 4) (d a : BitVec 5) (imm : BitVec 12)
  /-- XOR_I (R127). -/
  | xorI (f : FloretId) (g : BitVec 4) (d a : BitVec 5) (imm : BitVec 12)
  /-- SH_I (R127). -/
  | shI (f : FloretId) (g : BitVec 4) (d a : BitVec 5) (imm : BitVec 12)
  /-- MOV_K (R128). -/
  | movK (f : FloretId) (h mode : BitVec 2) (d : BitVec 5) (z : BitVec 1) (imm : BitVec 16)
  /-- CMP_EQ (R127). -/
  | cmpEq (f : FloretId) (g : BitVec 4) (d a b : BitVec 5)
  /-- CMP_NE (R127). -/
  | cmpNe (f : FloretId) (g : BitVec 4) (d a b : BitVec 5)
  /-- CMP_LT (R127). -/
  | cmpLt (f : FloretId) (g : BitVec 4) (d a b : BitVec 5)
  /-- CMP_GE (R127). -/
  | cmpGe (f : FloretId) (g : BitVec 4) (d a b : BitVec 5)
  /-- CMP_LTU (R127). -/
  | cmpLtu (f : FloretId) (g : BitVec 4) (d a b : BitVec 5)
  /-- CMP_GEU (R127). -/
  | cmpGeu (f : FloretId) (g : BitVec 4) (d a b : BitVec 5)
  /-- PAND (R127). -/
  | pand (f : FloretId) (g : BitVec 4) (d a b : BitVec 5)
  /-- POR (R127). -/
  | por (f : FloretId) (g : BitVec 4) (d a b : BitVec 5)
  /-- PXOR (R127). -/
  | pxor (f : FloretId) (g : BitVec 4) (d a b : BitVec 5)
  /-- PNOT (R127). -/
  | pnot (f : FloretId) (g : BitVec 4) (d a b : BitVec 5)
  /-- PGET (R127). -/
  | pget (f : FloretId) (g : BitVec 4) (d a b : BitVec 5)
  /-- PSET (R127). -/
  | pset (f : FloretId) (g : BitVec 4) (d a b : BitVec 5)
  /-- BR (R129). -/
  | br (f : FloretId) (g : BitVec 4) (d : BitVec 5) (off : BitVec 17)
  /-- JR (R130). -/
  | jr (f : FloretId) (g : BitVec 4) (d a b : BitVec 5)
  /-- LD_U8 (R131). -/
  | ldU8 (f : FloretId) (g : BitVec 4) (d a : BitVec 5) (imm : BitVec 12)
  /-- LD_U16 (R131). -/
  | ldU16 (f : FloretId) (g : BitVec 4) (d a : BitVec 5) (imm : BitVec 12)
  /-- LD_U32 (R131). -/
  | ldU32 (f : FloretId) (g : BitVec 4) (d a : BitVec 5) (imm : BitVec 12)
  /-- LD_64 (R131). -/
  | ld64 (f : FloretId) (g : BitVec 4) (d a : BitVec 5) (imm : BitVec 12)
  /-- ST_8 (R131). -/
  | st8 (f : FloretId) (g : BitVec 4) (d a : BitVec 5) (imm : BitVec 12)
  /-- ST_16 (R131). -/
  | st16 (f : FloretId) (g : BitVec 4) (d a : BitVec 5) (imm : BitVec 12)
  /-- ST_32 (R131). -/
  | st32 (f : FloretId) (g : BitVec 4) (d a : BitVec 5) (imm : BitVec 12)
  /-- ST_64 (R131). -/
  | st64 (f : FloretId) (g : BitVec 4) (d a : BitVec 5) (imm : BitVec 12)
  /-- LD_PS_32 (R132). -/
  | ldPs32 (f : FloretId) (g : BitVec 4) (d a : BitVec 5) (imm : BitVec 12)
  /-- LD_PS_64 (R132). -/
  | ldPs64 (f : FloretId) (g : BitVec 4) (d a : BitVec 5) (imm : BitVec 12)
  /-- ST_PS_32 (R132). -/
  | stPs32 (f : FloretId) (g : BitVec 4) (d a : BitVec 5) (imm : BitVec 12)
  /-- ST_PS_64 (R132). -/
  | stPs64 (f : FloretId) (g : BitVec 4) (d a : BitVec 5) (imm : BitVec 12)
  /-- BANK_ACCESS_GRANT (R165). -/
  | bankAccessGrant (s : SpkId) (hits : List EccHit)
  /-- SPILL_FILL_DONE (R195). -/
  | spillFillDone (f : FloretId)
  /-- ROP_GET_64 (R135). -/
  | ropGet64 (f : FloretId) (g : BitVec 4) (d a b : BitVec 5)
  /-- ROP_PUT_64 (R135). -/
  | ropPut64 (f : FloretId) (g : BitVec 4) (d a b : BitVec 5)
  /-- ROP_ADD_64 (R135). -/
  | ropAdd64 (f : FloretId) (g : BitVec 4) (d a b : BitVec 5)
  /-- ROP_SWAP_64 (R135). -/
  | ropSwap64 (f : FloretId) (g : BitVec 4) (d a b : BitVec 5)
  /-- ROP_OR_64 (R135). -/
  | ropOr64 (f : FloretId) (g : BitVec 4) (d a b : BitVec 5)
  /-- ROP_CAS_64 (R135). -/
  | ropCas64 (f : FloretId) (g : BitVec 4) (d a b : BitVec 5)
  /-- ROP_WAIT (R136). -/
  | ropWait (f : FloretId) (g : BitVec 4) (d a b : BitVec 5)
  /-- SYNC_SIG (R139). -/
  | syncSig (f : FloretId) (g : BitVec 4) (d a b : BitVec 5)
  /-- SYNC_SIG_SEND (R139). -/
  | syncSigSend (s : SpkId) (slot : Fin 64)
  /-- SYNC_WAIT (R140). -/
  | syncWait (f : FloretId) (g : BitVec 4) (d a b : BitVec 5)
  /-- PBAR_SET (R141). -/
  | pbarSet (f : FloretId) (g : BitVec 4) (d a b : BitVec 5)
  /-- PBAR_WAIT (R141). -/
  | pbarWait (f : FloretId) (g : BitVec 4) (d a b : BitVec 5)
  /-- BND_OPEN (R143). -/
  | bndOpen (f : FloretId) (g : BitVec 4) (d a b : BitVec 5)
  /-- BND_PUT (R143). -/
  | bndPut (f : FloretId) (g : BitVec 4) (d a b : BitVec 5)
  /-- BND_ADD (R143). -/
  | bndAdd (f : FloretId) (g : BitVec 4) (d a b : BitVec 5)
  /-- BND_COMMIT (R143). -/
  | bndCommit (f : FloretId) (g : BitVec 4) (d a b : BitVec 5)
  /-- BND_DROP (R143). -/
  | bndDrop (f : FloretId) (g : BitVec 4) (d a b : BitVec 5)
  /-- LAT_MM (R146). -/
  | latMm (f : FloretId) (g : BitVec 4) (fmt d a b : BitVec 5)
  /-- LAT_ST (R151). -/
  | latSt (f : FloretId) (g : BitVec 4) (d a b : BitVec 5)
  /-- LAT_WAIT (R153). -/
  | latWait (f : FloretId) (g : BitVec 4) (d a b : BitVec 5)
  /-- LAT_RD (R149). -/
  | latRd (f : FloretId) (g : BitVec 4) (d a : BitVec 5) (imm : BitVec 12)
  /-- LAT_CLR (R150). -/
  | latClr (f : FloretId) (g : BitVec 4) (d a : BitVec 5) (imm : BitVec 12)
  /-- BC_POST (R155). -/
  | bcPost (f : FloretId) (g : BitVec 4) (d a b : BitVec 5)
  /-- RED_POST (R156). -/
  | redPost (f : FloretId) (g : BitVec 4) (d a b : BitVec 5)
  /-- MOV_POST (R157). -/
  | movPost (f : FloretId) (g : BitVec 4) (d a b : BitVec 5)
  /-- CVT_R (R159). -/
  | cvtR (f : FloretId) (g : BitVec 4) (fmt d a b : BitVec 5)
  /-- CVT_UP (R160). -/
  | cvtUp (f : FloretId) (g : BitVec 4) (fmt d a b : BitVec 5)
  /-- CVT_B (R161). -/
  | cvtB (f : FloretId) (g : BitVec 4) (fmt d a b : BitVec 5)
  /-- CVT_SEED (R112). -/
  | cvtSeed (f : FloretId) (g : BitVec 4) (d a b : BitVec 5)
  /-- SYS_RD (R164). -/
  | sysRd (f : FloretId) (g : BitVec 4) (d a b : BitVec 5)
  /-- FLT_PARK (R163). -/
  | fltPark (f : FloretId) (g : BitVec 4) (d a b : BitVec 5)
  /-- FLT_HALT (R163). -/
  | fltHalt (f : FloretId) (g : BitVec 4) (d a b : BitVec 5)
  /-- LAT_OP_HEAD (R147). -/
  | latOpHead (s : SpkId) (hits : List EccHit)
  /-- LAT_ROW_ARRIVE (R63). -/
  | latRowArrive (s : SpkId) (st : RowStream) (hits : List EccHit)
  /-- BROADCAST_ENQUEUE (R155). -/
  | broadcastEnqueue (p : PanId)
  /-- BROADCAST_START (R70). -/
  | broadcastStart (p : PanId)
  /-- BROADCAST_BEAT (R61). -/
  | broadcastBeat (p : PanId) (hits : List EccHit)
  /-- LAT_RETIRE (R66). -/
  | latRetire (s : SpkId)
  /-- BCAST_TIMEOUT (R67). -/
  | bcastTimeout (s : SpkId)
  /-- DRAIN_COMPLETE (R151). -/
  | drainComplete (s : SpkId) (tile : Fin 4)
  /-- PANICLE_REDUCTION_START (R77). -/
  | panicleReductionStart (p : PanId) (rid : BitVec 8)
  /-- PANICLE_REDUCTION_DONE (R77). -/
  | panicleReductionDone (p : PanId) (rid : BitVec 8)
  /-- REDUCE_TIMEOUT (R78). -/
  | reduceTimeout (p : PanId) (rid : BitVec 8)
  /-- HELD_DRAIN_TIMEOUT (R152). -/
  | heldDrainTimeout (s : SpkId) (rid : BitVec 8)
  /-- ECC_WRITEBACK (R42). -/
  | eccWriteback (s : SpkId) (row : Fin 512)
  /-- PS_ECC_WRITEBACK (R611). -/
  | psEccWriteback (p : PanId) (word : Fin 32768)
  /-- ARBITER_DECISION (R225). -/
  | arbiterDecision (a : ArbId) (elapsed len : Nat)
  /-- EMERGENCY_PREEMPT (R227). -/
  | emergencyPreempt (a : ArbId) (moved : Nat)
  /-- GRANT_STALL_WATCHDOG (R226). -/
  | grantStallWatchdog (a : ArbId)
  /-- BANK_GRANT_STALL (R49). -/
  | bankGrantStall (s : SpkId)
  /-- REMOTE_OP_TIMEOUT (R80). -/
  | remoteOpTimeout (s : SpkId) (slot : Fin 64)
  /-- ROP_REISSUE (R137). -/
  | ropReissue (s : SpkId) (slot : Fin 64) (expired : Bool)
  /-- REPLY (R335). -/
  | reply (pkt : Packet)
  /-- GET_REQ (R314). -/
  | getReq (pkt : Packet)
  /-- PUT_REQ (R314). -/
  | putReq (pkt : Packet)
  /-- ADD_REQ (R314). -/
  | addReq (pkt : Packet)
  /-- SWAP_REQ (R314). -/
  | swapReq (pkt : Packet)
  /-- OR_REQ (R314). -/
  | orReq (pkt : Packet)
  /-- CAS_REQ (R314). -/
  | casReq (pkt : Packet)
  /-- SYNC_SIG_REQ (R314). -/
  | syncSigReq (pkt : Packet)
  /-- SYNC_WAIT_REQ (R314). -/
  | syncWaitReq (pkt : Packet)
  /-- READ_REQ (R314). -/
  | readReq (pkt : Packet)
  /-- WRITE_REQ (R314). -/
  | writeReq (pkt : Packet)
  /-- STEWARD_MSG (R425). -/
  | stewardMsg (pkt : Packet) (m : StwMsg)
  /-- MOVER_DESCRIPTOR_ACCEPT (R157). -/
  | moverDescriptorAccept (p : PanId)
  /-- MOVER_DESCRIPTOR_START (R158). -/
  | moverDescriptorStart (p : PanId) (id : Nat)
  /-- MOVER_DESCRIPTOR_COMPLETE (R158). -/
  | moverDescriptorComplete (p : PanId) (id : Nat) (remote : List Byte) (st : BitVec 8)
  /-- MOVER_DESCRIPTOR_TIMEOUT (R158). -/
  | moverDescriptorTimeout (p : PanId) (id : Nat)
  /-- RUN_AHEAD_WRITE (R208). -/
  | runAheadWrite (s : SpkId) (off : BitVec 16) (tag : BitVec 8) (bytes : List Byte)
  /-- WALK_COMPLETE (R184). -/
  | walkComplete (p : PanId) (i : Nat) (ue : Bool)
  /-- FAR_MISS_SERVICE (R201). -/
  | farMissService (c : CtxId) (va : Local) (victim : Nat)
  /-- INVALIDATION (R185). -/
  | invalidation (p : PanId) (c : CtxId) (va len : W64)
  /-- INVALIDATION_ACK (R185). -/
  | invalidationAck (p : PanId)
  /-- STEP_REPORT (R211). -/
  | stepReport (t : TillerId) (p : PanId)
  /-- STEP_COMMIT (R211). -/
  | stepCommit (t : TillerId)
  /-- STEP_CANCEL (R213). -/
  | stepCancel (t : TillerId)
  /-- STEP_BUDGET (R410). -/
  | stepBudget (q : QueueId) (seq : W32)
  /-- GRANARY_REQUEST (R221). -/
  | granaryRequest (n : StackId) (r : GrnReq)
  /-- GRANARY_READ_RETURN (R239). -/
  | granaryReadReturn (n : StackId) (id : Nat) (ecc : LineEcc)
  /-- GRANARY_REQUEST_TIMEOUT (R222). -/
  | granaryRequestTimeout (n : StackId) (id : Nat) (performed : Bool)
  /-- REFRESH_PENDING (R236). -/
  | refreshPending (n : StackId) (pc : Fin 64)
  /-- STACK_TEMP_READ (R237). -/
  | stackTempRead (n : StackId) (temp : BitVec 8)
  /-- PATROL_SCRUB (R242). -/
  | patrolScrub (n : StackId) (ecc : LineEcc)
  /-- ROW_REPAIR (R244). -/
  | rowRepair (n : StackId) (la : BitVec 36)
  /-- PREFETCH_PRIME (R248). -/
  | prefetchPrime (t : TillerId) (req : PrimeReq)
  /-- PREFETCH_FILL (R249). -/
  | prefetchFill (n : StackId) (line : BitVec 30) (ue : Bool)
  /-- GRN_PF_CTRL (R249). -/
  | grnPfCtrl (n : StackId) (v : W32)
  /-- MESH_FLIT_RECEIVE (R254). -/
  | meshFlitReceive (p : PanId) (port : Fin 6) (rx : MeshArrival)
  /-- PACKET_ROUTE (R318). -/
  | packetRoute (d : DieId) (at_ : PanId) (pkt : Packet)
  /-- PACKET_AGE_DROP (R325). -/
  | packetAgeDrop (d : DieId) (pkt : Packet)
  /-- INJ_STALL (R259). -/
  | injStall (p : PanId)
  /-- BRIDGE_FLIT_RECEIVE (R266). -/
  | bridgeFlitReceive (bridge : Fin 12) (dir : Fin 2) (dataA : BitVec 512) (sideA : W64) (dataB : BitVec 512) (sideB : W64)
  /-- SWITCH_OVER_COMPLETE (R270). -/
  | switchOverComplete (b : DirId)
  /-- PLANE_SWITCHED (R263). -/
  | planeSwitched (b : DirId)
  /-- BRIDGE_ACK (R264). -/
  | bridgeAck (b : DirId) (seq : BitVec 12)
  /-- BRIDGE_NAK (R267). -/
  | bridgeNak (b : DirId) (seq : BitVec 12)
  /-- INTERLOCK_VIOLATION (R269). -/
  | interlockViolation (b : DirId) (driverA driverB : Bool)
  /-- PLANE_AUTO_RETRAIN (R271). -/
  | planeAutoRetrain (b : DirId) (pl : Plane)
  /-- PLANE_RETRAIN_DONE (R271). -/
  | planeRetrainDone (b : DirId) (pl : Plane) (failing : List (Fin 296))
  /-- PLANE_RETRAIN_FAIL (R271). -/
  | planeRetrainFail (b : DirId) (pl : Plane)
  /-- NBR_FORCE (R273). -/
  | nbrForce (b : DirId)
  /-- NBR_RETRAIN_A (R271). -/
  | nbrRetrainA (b : DirId)
  /-- NBR_RETRAIN_B (R271). -/
  | nbrRetrainB (b : DirId)
  /-- LANE_SPARED (R275). -/
  | laneSpared (b : DirId) (pl : Plane) (lane : Fin 288)
  /-- LANE_RETURN_START (R276). -/
  | laneReturnStart (b : DirId) (pl : Plane) (spare : Fin 8)
  /-- LANE_RETURNED (R276). -/
  | laneReturned (b : DirId) (pl : Plane) (spare : Fin 8)
  /-- STRAW_FRAME_RECEIVE (R286): `fec` codewords were corrected as the frame came (R309). -/
  | strawFrameReceive (s : StrawId) (fec : Nat) (data : BitVec 512) (seq : BitVec 14) (sseq : BitVec 10) (vc typ : BitVec 3) (resv : BitVec 2) (crc : W32)
  /-- STRAW_NAK (R286). -/
  | strawNak (s : StrawId) (seq : BitVec 14)
  /-- STRAW_LOSS_OF_LIGHT (R286). -/
  | strawLossOfLight (s : StrawId) (locked : BitVec 8)
  /-- SHEAF_TRANSMIT (R291). -/
  | sheafTransmit (t : TillerId) (n : SheafId) (w : StrawId) (pkt : Packet)
  /-- SHF_STALL (R298). -/
  | shfStall (s : StrawId)
  /-- STRAW_TRAINED (R303). -/
  | strawTrained (s : StrawId)
  /-- STRAW_TRAINING_TIMEOUT (R303). -/
  | strawTrainingTimeout (s : StrawId) (locked : BitVec 8)
  /-- ROLL_CALL_SEND (R300). -/
  | rollCallSend (s : StrawId)
  /-- ROLL_CALL (R301). -/
  | rollCall (s : StrawId) (data : BitVec 512)
  /-- ROLL_CALL_TIMEOUT (R301). -/
  | rollCallTimeout (s : StrawId)
  /-- STRAW_AUTO_RETRY (R303). -/
  | strawAutoRetry (s : StrawId)
  /-- STRAW_EN (R303). -/
  | strawEn (s : StrawId) (en : Bool)
  /-- STRAW_RETRAIN (R303). -/
  | strawRetrain (s : StrawId)
  /-- SHEAF_MEMBERS_WRITE (R288). -/
  | sheafMembersWrite (n : SheafId) (v : W32)
  /-- SHEAF_DEGRADED (R295). -/
  | sheafDegraded (n : SheafId)
  /-- SHARE_WRITE (R339). -/
  | shareWrite (s : StrawId) (i : Fin 16) (v : W32)
  /-- COORD_ABSENT (R304). -/
  | coordAbsent (axis : Fin 3) (coord : Fin 4)
  /-- RING_ABSENT_CLEAR (R307). -/
  | ringAbsentClear (axis : Fin 3) (mask : BitVec 4)
  /-- TBL_WRITE (R326). -/
  | tblWrite (d : DieId) (cmd : W32)
  /-- TBL_READ (R317). -/
  | tblRead (d : DieId) (cmd : W32)
  /-- TBL_SEAL (R329). -/
  | tblSeal (d : DieId) (cmd : W32)
  /-- TBL_UNSEAL (R326). -/
  | tblUnseal (d : DieId) (cmd : W32)
  /-- EPOCH_FLIP (R327). -/
  | epochFlip (d : DieId) (inj : BitVec 1)
  /-- BANK_DRAIN_EXPIRE (R326). -/
  | bankDrainExpire (bank : BitVec 1)
  /-- TRANSPORT_RECEIVE (R333). -/
  | transportReceive (ep : EpId) (room : Bool) (pkt : Packet)
  /-- ACK_TIMER (R333). -/
  | ackTimer (ep : EpId) (peer : Ec)
  /-- ACK (R334). -/
  | ack (ep : EpId) (pkt : Packet)
  /-- NAK (R334). -/
  | nak (ep : EpId) (pkt : Packet)
  /-- RESYNC_PACKET (R336). -/
  | resyncPacket (ep : EpId) (pkt : Packet)
  /-- RETRY_TIMER (R334). -/
  | retryTimer (ep : EpId) (peer : Ec)
  /-- REDUCTION_POST_ACCEPT (R351). -/
  | reductionPostAccept (p : PanId)
  /-- RED_UP (R359). -/
  | redUp (n : NodeId) (pkt : Packet)
  /-- RED_DOWN (R359). -/
  | redDown (r : RedId) (pkt : Packet)
  /-- RED_ABORT (R359). -/
  | redAbort (r : RedId) (pkt : Packet)
  /-- GATHER_TIMEOUT (R359). -/
  | gatherTimeout (n : NodeId) (k : RedKey)
  /-- AWAIT_DOWN_TIMEOUT (R359). -/
  | awaitDownTimeout (n : NodeId) (k : RedKey)
  /-- RESULT_TIMEOUT (R360). -/
  | resultTimeout (p : PanId) (k : RedKey)
  /-- PREPARE_STAGING (R380). -/
  | prepareStaging (s : StrawId) (pkt : Packet)
  /-- PREPARE (R393). -/
  | prepare (h : HomeId) (pkt : Packet)
  /-- LOCK (R393). -/
  | lock (n : StackId) (pkt : Packet)
  /-- LINES_LOCKED (R373). -/
  | linesLocked (h : HomeId) (id : BndId) (ue : Bool)
  /-- LOCKING_TIMEOUT (R393). -/
  | lockingTimeout (h : HomeId) (id : BndId)
  /-- VOTE (R378). -/
  | vote (p : PanId) (pkt : Packet)
  /-- COMMIT (R379). -/
  | commit (h : HomeId) (pkt : Packet)
  /-- APPLIED (R385). -/
  | applied (p : PanId) (pkt : Packet)
  /-- ABORT (R393). -/
  | abort (h : HomeId) (pkt : Packet)
  /-- RELEASE (R393). -/
  | release (h : HomeId) (pkt : Packet)
  /-- RELEASE_ACK (R377). -/
  | releaseAck (p : PanId) (pkt : Packet)
  /-- WOUND (R382). -/
  | wound (p : PanId) (pkt : Packet)
  /-- BND_QUERY (R387). -/
  | bndQuery (p : PanId) (pkt : Packet)
  /-- BND_DECISION (R387). -/
  | bndDecision (h : HomeId) (pkt : Packet)
  /-- PREPARE_DEADLINE (R384). -/
  | prepareDeadline (p : PanId) (id : BndId)
  /-- COMMIT_LATE (R385). -/
  | commitLate (p : PanId) (id : BndId)
  /-- COMMIT_RESEND (R385). -/
  | commitResend (p : PanId) (id : BndId)
  /-- DECISION_LOG_EXPIRE (R377). -/
  | decisionLogExpire (p : PanId) (id : BndId)
  /-- PREPARED_QUERY_TIMER (R387). -/
  | preparedQueryTimer (h : HomeId) (id : BndId)
  /-- BND_ORPHAN (R387). -/
  | bndOrphan (h : HomeId) (id : BndId)
  /-- COMMITTED_EXPIRE (R393). -/
  | committedExpire (h : HomeId) (id : BndId)
  /-- SQ_TAIL (R405). -/
  | sqTail (q : QueueId) (v : W32)
  /-- CQ_HEAD (R404). -/
  | cqHead (q : QueueId) (v : W32)
  /-- COMMAND_FETCH (R405). -/
  | commandFetch (q : QueueId)
  /-- STEWARD_TURN (R409). -/
  | stewardTurn (w : Fin 4) (q : QueueId) (seq : W32)
  /-- STEWARD_TURN_END (R480). -/
  | stewardTurnEnd (w : Fin 4)
  /-- QUEUE_IRQ (R428). -/
  | queueIrq (q : QueueId) (timer : Bool)
  /-- HOST_DMA_ERROR (R398). -/
  | hostDmaError (q : QueueId) (seq : W32) (ring : Bool)
  /-- QUEUE_ENABLE (R407). -/
  | queueEnable (q : QueueId) (cfg : W32)
  /-- QUEUE_DISABLE (R407). -/
  | queueDisable (q : QueueId)
  /-- QUEUE_RESTART (R407). -/
  | queueRestart (q : QueueId) (skip : Bool)
  /-- LAUNCH_GRAPH (R413). -/
  | launchGraph (q : QueueId) (seq : W32) (g : GraphDesc) (status : BitVec 8)
  /-- COPY (R413). -/
  | copy (q : QueueId) (seq : W32) (remote : List Byte) (st : BitVec 8)
  /-- FILL (R413). -/
  | fill (q : QueueId) (seq : W32) (st : BitVec 8)
  /-- FENCE (R413). -/
  | fence (q : QueueId) (seq : W32)
  /-- SIGNAL (R414). -/
  | signal (q : QueueId) (seq : W32)
  /-- WAIT (R414). -/
  | wait (q : QueueId) (seq : W32)
  /-- WAIT_TIMEOUT (R413). -/
  | waitTimeout (q : QueueId) (seq : W32)
  /-- MAP (R415). -/
  | map (q : QueueId) (seq : W32) (pages tabs far : List Nat)
  /-- UNMAP (R415). -/
  | unmap (q : QueueId) (seq : W32)
  /-- CTX_CREATE (R418). -/
  | ctxCreate (q : QueueId) (seq : W32) (l1 : Nat)
  /-- CTX_DESTROY (R419). -/
  | ctxDestroy (q : QueueId) (seq : W32)
  /-- CTX_DRAIN_DONE (R419). -/
  | ctxDrainDone (c : CtxId) (l1 : Nat)
  /-- CTX_SCRUB (R419). -/
  | ctxScrub (c : CtxId)
  /-- SLICE_SETUP (R413). -/
  | sliceSetup (q : QueueId) (seq : W32)
  /-- REDUCE_TREE_SETUP (R344). -/
  | reduceTreeSetup (q : QueueId) (seq : W32) (recs : List TreeRec)
  /-- LOAD_FW (R439). -/
  | loadFw (q : QueueId) (seq : W32)
  /-- BIST (R467). -/
  | bist (q : QueueId) (seq : W32)
  /-- BIST_COMPLETE (R472). -/
  | bistComplete (finds : List Finding) (analog : Nat)
  /-- BIST_ABANDON (R470). -/
  | bistAbandon (z : ZoneId)
  /-- POWER_SCHEDULE (R416). -/
  | powerSchedule (q : QueueId) (seq : W32)
  /-- QUERY (R413). -/
  | query (q : QueueId) (seq : W32)
  /-- DUMP (R493). -/
  | dump (q : QueueId) (seq : W32)
  /-- RESET_DOMAIN (R614). -/
  | resetDomain (q : QueueId) (seq : W32)
  /-- FLR (R422). -/
  | flr (fn : Fin 64)
  /-- HOST_RESET (R543). -/
  | hostReset
  /-- BAR4_ACCESS (R401). -/
  | bar4Access (off : Local) (size : Nat) (write : Option (List Byte))
  /-- BAR4_TIMEOUT (R402). -/
  | bar4Timeout (off : Local) (size : Nat) (write : Bool)
  /-- REGISTER_WRITE (R8). -/
  | registerWrite (path : Path) (off : BitVec 26) (v : W32)
  /-- REGISTER_READ_CLEAR (R8). -/
  | registerReadClear (path : Path) (off : BitVec 26)
  /-- REGISTER_ACCESS_TIMEOUT (R588). -/
  | registerAccessTimeout (off : BitVec 26) (write : Bool)
  /-- PAIR_LO_READ (R589). -/
  | pairLoRead (path : Path) (off : BitVec 26)
  /-- PAIR_HI_WRITE (R589). -/
  | pairHiWrite (path : Path) (off : BitVec 26) (v : W32)
  /-- PAIR_LO_WRITE (R589). -/
  | pairLoWrite (path : Path) (off : BitVec 26) (v : W32)
  /-- FAULT_LOG_READ (R476). -/
  | faultLogRead (path : Path) (entry : Fin 1024) (word : Fin 8)
  /-- FLT_CORR_CLEAR (R475). -/
  | fltCorrClear
  /-- KNOT_INFO_CLEAR (R506). -/
  | knotInfoClear
  /-- PKG_RESET_RELEASE (R429). -/
  | pkgResetRelease
  /-- PKG_RESET_ASSERT (R433). -/
  | pkgResetAssert
  /-- PWR_OK_FALL (R433). -/
  | pwrOkFall
  /-- STRAP_SAMPLE (R436). -/
  | strapSample
  /-- STRAP_CHANGE (R542). -/
  | strapChange (pin : StrapPin) (level : Bool)
  /-- BOOT_PHASE_COMPLETE (R429). -/
  | bootPhaseComplete (ph : Phase) (finds : List Finding)
  /-- TILLER_WAVE (R430). -/
  | tillerWave (t : TillerId) (wave : Fin 12) (finds : List Finding)
  /-- HBM_GROUP_TRAINED (R432). -/
  | hbmGroupTrained (g : Fin 3)
  /-- HBM_TRAINING_TIMEOUT (R432). -/
  | hbmTrainingTimeout (n : StackId)
  /-- FW_BLOCK (R445). -/
  | fwBlock (u : Fin 1544) (block : Nat)
  /-- FW_REPAIR_ROUND (R446). -/
  | fwRepairRound (bad : List (Fin 1544))
  /-- PUSH_GO (R440). -/
  | pushGo (v : W32)
  /-- PUSH_TIMEOUT (R440). -/
  | pushTimeout
  /-- BOOT_REQ (R440). -/
  | bootReq (s : StrawId) (peer : Ec)
  /-- BOOT_DATA (R440). -/
  | bootData (s : StrawId) (block : Nat) (bytes : List Byte)
  /-- BOOT_DATA_TIMEOUT (R440). -/
  | bootDataTimeout
  /-- FABRIC_BOOT_RETRY (R440). -/
  | fabricBootRetry
  /-- FLORET_WATCHDOG (R479). -/
  | floretWatchdog (f : FloretId)
  /-- HOUSEKEEPING_HEARTBEAT_MISS (R486). -/
  | housekeepingHeartbeatMiss (t : TillerId)
  /-- CANCEL_TIMEOUT (R486). -/
  | cancelTimeout (t : TillerId)
  /-- PHY_ERROR (R486). -/
  | phyError (n : StackId) (pc : Fin 64) (timeouts : Bool)
  /-- VC_STUCK (R486). -/
  | vcStuck (d : DieId) (vc : BitVec 3)
  /-- ROUTE_TABLE_UE (R486). -/
  | routeTableUe (d : DieId)
  /-- HUB_SRAM_UE (R486). -/
  | hubSramUe
  /-- GLEAN_END (R481). -/
  | gleanEnd (dom : Fin 40)
  /-- DOMAIN_RESET_RELEASE (R481). -/
  | domainResetRelease (dom : Fin 40)
  /-- DOMAIN_REENTRY_COMPLETE (R481). -/
  | domainReentryComplete (dom : Fin 40) (contentLost : Bool) (finds : List Finding)
  /-- REENTRY_FAIL (R481). -/
  | reentryFail (dom : Fin 40)
  /-- RECOVERY_FAILED (R505). -/
  | recoveryFailed
  /-- STW_WATCHDOG (R502). -/
  | stwWatchdog (w : Fin 4)
  /-- EDGE_POST (R489). -/
  | edgePost (e : Edge)
  /-- EDGE_REMOVE (R487). -/
  | edgeRemove (e : Edge)
  /-- EDGE_REPOST (R492). -/
  | edgeRepost (e : Edge)
  /-- KNOT (R490). -/
  | knot (e : Edge)
  /-- GLEAN_READ (R494). -/
  | gleanRead (item : Fin 8) (unit : Ec) (whole : Bool) (data : GleanData)
  /-- GLEAN_UNRESPONSIVE (R496). -/
  | gleanUnresponsive (item : Fin 8) (unit : Ec)
  /-- UNIT_SHADOW (R496). -/
  | unitShadow (unit : Ec) (bytes : List Byte)
  /-- DUMP_COMPLETE (R499). -/
  | dumpComplete (failed : BitVec 24)
  /-- POWER_SAMPLE (R515). -/
  | powerSample (watts : Nat)
  /-- FCAP_UPDATE (R518). -/
  | fcapUpdate
  /-- FCAP_RAISE (R518). -/
  | fcapRaise
  /-- P_BASE_UPDATE (R519). -/
  | pBaseUpdate (watts : Nat)
  /-- CAP_ENTRY_BOUNDARY (R512). -/
  | capEntryBoundary
  /-- TRAY_SILENCE (R510). -/
  | traySilence
  /-- FORECAST_REBUILD (R524). -/
  | forecastRebuild (minutes : Bool)
  /-- THERMAL_FORECAST_REFIT (R525). -/
  | thermalForecastRefit (watts : Nat)
  /-- SENSOR_SAMPLE (R527). -/
  | sensorSample (z : ZoneId) (a b : BitVec 12)
  /-- SENSOR_DISAGREE (R528). -/
  | sensorDisagree (z : ZoneId)
  /-- FTHERM_STEP (R530). -/
  | fthermStep (z : ZoneId)
  /-- COOLANT_REPORT (R533). -/
  | coolantReport (inst inlet outlet : BitVec 8) (flow : BitVec 16)
  /-- COOLANT_STALE (R533). -/
  | coolantStale
  /-- COOLANT_LOSS_END (R534). -/
  | coolantLossEnd
  /-- COOLING_DEGRADED_END (R533). -/
  | coolingDegradedEnd
  /-- PKG_EVT_ASSERT (R522). -/
  | pkgEvtAssert
  /-- FAST_THROTTLE_RELEASE (R522). -/
  | fastThrottleRelease
  /-- HEARTBEAT_REARM (R545). -/
  | heartbeatRearm
  /-- HEARTBEAT_STOP (R545). -/
  | heartbeatStop
  /-- I3C_ENTDAA (R549). -/
  | i3cEntdaa (addr : BitVec 7)
  /-- I3C_SETDASA (R549). -/
  | i3cSetdasa (static addr : BitVec 7)
  /-- I3C_RSTDAA (R549). -/
  | i3cRstdaa
  /-- SET_ENDPOINT_ID (R550). -/
  | setEndpointId (eid : BitVec 8)
  /-- GET_ENDPOINT_ID (R550). -/
  | getEndpointId
  /-- GET_ENDPOINT_UUID (R550). -/
  | getEndpointUuid
  /-- GET_MCTP_VERSION_SUPPORT (R550). -/
  | getMctpVersionSupport (typ : BitVec 8)
  /-- GET_MESSAGE_TYPE_SUPPORT (R550). -/
  | getMessageTypeSupport
  /-- GET_STATUS (R552). -/
  | getStatus (inst : BitVec 8)
  /-- SET_CAP_SCHEDULE (R511). -/
  | setCapSchedule (inst : BitVec 8) (bytes : List Byte)
  /-- POWER_OFF (R514). -/
  | powerOff (inst : BitVec 8)
  /-- LOAD_RACK_PLAN (R553). -/
  | loadRackPlan (inst : BitVec 8) (bytes : List Byte)
  /-- READ_FORECAST (R552). -/
  | readForecast (inst : BitVec 8)
  /-- READ_FAULT_LOG (R552). -/
  | readFaultLog (inst : BitVec 8) (first : W32) (count : BitVec 8)
  /-- CLEAR_CORR (R545). -/
  | clearCorr (inst : BitVec 8)
  /-- SET_EVT_MODE (R559). -/
  | setEvtMode (inst mode level : BitVec 8)
  /-- RECOVERY_IMAGE (R552). -/
  | recoveryImage (inst : BitVec 8) (offset : W32) (last : Bool) (bytes : List Byte)
  /-- RESYNC (R562). -/
  | resync (inst : BitVec 8)
  /-- GRANT_WRAP (R555). -/
  | grantWrap (inst : BitVec 8) (slice : BitVec 16) (axes revoke : BitVec 8)
  /-- EVENT_NOTICE (R554). -/
  | eventNotice
  /-- MULTIPART_ABANDON (R561). -/
  | multipartAbandon
  /-- PLDM_SENSOR_READ (R556). -/
  | pldmSensorRead (sensor : BitVec 16)
  /-- REQUEST_UPDATE (R557). -/
  | requestUpdate (image : List Byte)
  /-- GET_VERSION (R579). -/
  | getVersion (port : SpdmPort)
  /-- GET_CAPABILITIES (R580). -/
  | getCapabilities (port : SpdmPort)
  /-- NEGOTIATE_ALGORITHMS (R580). -/
  | negotiateAlgorithms (port : SpdmPort) (offer : Bool)
  /-- GET_DIGESTS (R580). -/
  | getDigests (port : SpdmPort)
  /-- GET_CERTIFICATE (R580). -/
  | getCertificate (port : SpdmPort) (slot : BitVec 8) (offset length : Nat)
  /-- CHALLENGE (R580). -/
  | challenge (port : SpdmPort) (slot : BitVec 8) (nonce : List Byte)
  /-- GET_MEASUREMENTS (R581). -/
  | getMeasurements (port : SpdmPort) (index : BitVec 8) (signed : Bool) (nonce : List Byte)
  /-- GET_NONCE (R575). -/
  | getNonce (port : SpdmPort)
  /-- LC_TRANSITION (R570). -/
  | lcTransition (port : SpdmPort) (tok : List Byte)
  /-- DEBUG_UNLOCK (R577). -/
  | debugUnlock (port : SpdmPort) (tok : List Byte)
  /-- DEBUG_RELOCK (R578). -/
  | debugRelock (port : SpdmPort)
  /-- DEBUG_LIFETIME_EXPIRE (R578). -/
  | debugLifetimeExpire
  /-- NONCE_EXPIRE (R575). -/
  | nonceExpire
  /-- JTAG_INSTRUCTION (R548). -/
  | jtagInstruction (ir : TapIr)
  /-- BRIDGE_PRBS_ERROR (R274). -/
  | bridgePrbsError (b : DirId) (pl : Plane) (lane : Fin 296) (got : BitVec 2)
  /-- WOUND_REPLY (R382). -/
  | woundReply (h : HomeId) (pkt : Packet)
  /-- HOST_LINK_LOSS (R422). -/
  | hostLinkLoss
  /-- STEWARD_RESTART_DONE (R502). -/
  | stewardRestartDone (w : Fin 4)
  /-- PKG_EVT_DEASSERT (R522). -/
  | pkgEvtDeassert
  /-- OTP_GENERATION_WRITTEN (R571). -/
  | otpGenerationWritten
  /-- UNMAPPED_FRAME_RETURN (R390). -/
  | unmappedFrameReturn (c : CtxId) (frame : Nat)
  /-- PEER_ENTRY_EVICT (R336). -/
  | peerEntryEvict (ep : EpId) (peer : Ec)
deriving DecidableEq, Repr

end Sys2Proof
end

