-- ==== Sys2Proof/Decode.lean ====
section
/-! DEFINITION. The words of the block's commands. No row of the table has bits, so no table word
spells a command (R121 to R125 give the floret instructions their 32-bit words: they are encoded and
decoded here beside it). -/

namespace Sys2Proof

/-- The command that a table word spells: none, since no row of the table gives bits. -/
def decodeTableWord (_nbits _w : Nat) : Option Instr := none

/-- A word of format A (Table 4-1). -/
def wordA (major : BitVec 6) (g : BitVec 4) (d a b : BitVec 5) (minor : BitVec 7) : W32 :=
  major ++ g ++ d ++ a ++ b ++ minor

/-- A word of format A whose minor holds a format code in [4:0] (Table 4-3). -/
def wordF (major : BitVec 6) (top : BitVec 2) (g : BitVec 4) (fmt d a b : BitVec 5) : W32 :=
  major ++ g ++ d ++ a ++ b ++ top ++ fmt

/-- A word of format I (Table 4-1). -/
def wordI (major : BitVec 6) (g : BitVec 4) (d a : BitVec 5) (imm : BitVec 12) : W32 :=
  major ++ g ++ d ++ a ++ imm

/-- A word of format B (Table 4-1). -/
def wordB (major : BitVec 6) (g : BitVec 4) (d : BitVec 5) (off : BitVec 17) : W32 :=
  major ++ g ++ d ++ off

/-- A word of format W (Table 4-1); bit 16 is reserved. -/
def wordW (major : BitVec 6) (h mode : BitVec 2) (d : BitVec 5) (z : BitVec 1) (imm : BitVec 16) :
    W32 :=
  major ++ h ++ mode ++ d ++ z ++ imm

/-- The word of a floret instruction (R121, R125, Tables 4-1 to 4-6); the other commands have
none. -/
def encodeFloret : Instr → Option W32
  | .add _ g d a b => some (wordA 0 g d a b 0)
  | .sub _ g d a b => some (wordA 0 g d a b 1)
  | .and _ g d a b => some (wordA 0 g d a b 2)
  | .or _ g d a b => some (wordA 0 g d a b 3)
  | .xor _ g d a b => some (wordA 0 g d a b 4)
  | .shl _ g d a b => some (wordA 0 g d a b 5)
  | .shr _ g d a b => some (wordA 0 g d a b 6)
  | .sra _ g d a b => some (wordA 0 g d a b 7)
  | .min _ g d a b => some (wordA 0 g d a b 8)
  | .max _ g d a b => some (wordA 0 g d a b 9)
  | .minu _ g d a b => some (wordA 0 g d a b 10)
  | .maxu _ g d a b => some (wordA 0 g d a b 11)
  | .mul _ g d a b => some (wordA 0 g d a b 12)
  | .mulh _ g d a b => some (wordA 0 g d a b 13)
  | .mulhu _ g d a b => some (wordA 0 g d a b 14)
  | .sext8 _ g d a b => some (wordA 0 g d a b 16)
  | .sext16 _ g d a b => some (wordA 0 g d a b 17)
  | .sext32 _ g d a b => some (wordA 0 g d a b 18)
  | .clz _ g d a b => some (wordA 0 g d a b 19)
  | .popc _ g d a b => some (wordA 0 g d a b 20)
  | .cmpEq _ g d a b => some (wordA 8 g d a b 0)
  | .cmpNe _ g d a b => some (wordA 8 g d a b 1)
  | .cmpLt _ g d a b => some (wordA 8 g d a b 2)
  | .cmpGe _ g d a b => some (wordA 8 g d a b 3)
  | .cmpLtu _ g d a b => some (wordA 8 g d a b 4)
  | .cmpGeu _ g d a b => some (wordA 8 g d a b 5)
  | .pand _ g d a b => some (wordA 8 g d a b 8)
  | .por _ g d a b => some (wordA 8 g d a b 9)
  | .pxor _ g d a b => some (wordA 8 g d a b 10)
  | .pnot _ g d a b => some (wordA 8 g d a b 12)
  | .pget _ g d a b => some (wordA 8 g d a b 16)
  | .pset _ g d a b => some (wordA 8 g d a b 17)
  | .jr _ g d a b => some (wordA 13 g d a b 0)
  | .ropGet64 _ g d a b => some (wordA 32 g d a b 0)
  | .ropPut64 _ g d a b => some (wordA 32 g d a b 1)
  | .ropAdd64 _ g d a b => some (wordA 32 g d a b 2)
  | .ropSwap64 _ g d a b => some (wordA 32 g d a b 3)
  | .ropOr64 _ g d a b => some (wordA 32 g d a b 4)
  | .ropCas64 _ g d a b => some (wordA 32 g d a b 5)
  | .ropWait _ g d a b => some (wordA 32 g d a b 16)
  | .syncSig _ g d a b => some (wordA 33 g d a b 0)
  | .syncWait _ g d a b => some (wordA 33 g d a b 1)
  | .pbarSet _ g d a b => some (wordA 34 g d a b 0)
  | .pbarWait _ g d a b => some (wordA 34 g d a b 1)
  | .bndOpen _ g d a b => some (wordA 36 g d a b 0)
  | .bndPut _ g d a b => some (wordA 36 g d a b 1)
  | .bndAdd _ g d a b => some (wordA 36 g d a b 2)
  | .bndCommit _ g d a b => some (wordA 36 g d a b 3)
  | .bndDrop _ g d a b => some (wordA 36 g d a b 4)
  | .latSt _ g d a b => some (wordA 40 g d a b 32)
  | .latWait _ g d a b => some (wordA 40 g d a b 33)
  | .bcPost _ g d a b => some (wordA 44 g d a b 0)
  | .redPost _ g d a b => some (wordA 44 g d a b 1)
  | .movPost _ g d a b => some (wordA 44 g d a b 2)
  | .cvtSeed _ g d a b => some (wordA 48 g d a b 96)
  | .sysRd _ g d a b => some (wordA 56 g d a b 0)
  | .fltPark _ g d a b => some (wordA 56 g d a b 2)
  | .fltHalt _ g d a b => some (wordA 56 g d a b 3)
  | .latMm _ g fmt d a b => some (wordF 40 0 g fmt d a b)
  | .cvtR _ g fmt d a b => some (wordF 48 0 g fmt d a b)
  | .cvtUp _ g fmt d a b => some (wordF 48 1 g fmt d a b)
  | .cvtB _ g fmt d a b => some (wordF 48 2 g fmt d a b)
  | .addI _ g d a imm => some (wordI 1 g d a imm)
  | .andI _ g d a imm => some (wordI 2 g d a imm)
  | .orI _ g d a imm => some (wordI 3 g d a imm)
  | .xorI _ g d a imm => some (wordI 4 g d a imm)
  | .shI _ g d a imm => some (wordI 5 g d a imm)
  | .ldU8 _ g d a imm => some (wordI 16 g d a imm)
  | .ldU16 _ g d a imm => some (wordI 17 g d a imm)
  | .ldU32 _ g d a imm => some (wordI 18 g d a imm)
  | .ld64 _ g d a imm => some (wordI 19 g d a imm)
  | .st8 _ g d a imm => some (wordI 20 g d a imm)
  | .st16 _ g d a imm => some (wordI 21 g d a imm)
  | .st32 _ g d a imm => some (wordI 22 g d a imm)
  | .st64 _ g d a imm => some (wordI 23 g d a imm)
  | .ldPs32 _ g d a imm => some (wordI 24 g d a imm)
  | .ldPs64 _ g d a imm => some (wordI 25 g d a imm)
  | .stPs32 _ g d a imm => some (wordI 26 g d a imm)
  | .stPs64 _ g d a imm => some (wordI 27 g d a imm)
  | .latRd _ g d a imm => some (wordI 41 g d a imm)
  | .latClr _ g d a imm => some (wordI 42 g d a imm)
  | .br _ g d off => some (wordB 12 g d off)
  | .movK _ h mode d z imm => some (wordW 6 h mode d z imm)
  | _ => none

/-- The floret that issues an instruction; the other commands have none. -/
def floretOf : Instr → Option FloretId
  | .add f _ _ _ _ => some f
  | .sub f _ _ _ _ => some f
  | .and f _ _ _ _ => some f
  | .or f _ _ _ _ => some f
  | .xor f _ _ _ _ => some f
  | .shl f _ _ _ _ => some f
  | .shr f _ _ _ _ => some f
  | .sra f _ _ _ _ => some f
  | .min f _ _ _ _ => some f
  | .max f _ _ _ _ => some f
  | .minu f _ _ _ _ => some f
  | .maxu f _ _ _ _ => some f
  | .mul f _ _ _ _ => some f
  | .mulh f _ _ _ _ => some f
  | .mulhu f _ _ _ _ => some f
  | .sext8 f _ _ _ _ => some f
  | .sext16 f _ _ _ _ => some f
  | .sext32 f _ _ _ _ => some f
  | .clz f _ _ _ _ => some f
  | .popc f _ _ _ _ => some f
  | .cmpEq f _ _ _ _ => some f
  | .cmpNe f _ _ _ _ => some f
  | .cmpLt f _ _ _ _ => some f
  | .cmpGe f _ _ _ _ => some f
  | .cmpLtu f _ _ _ _ => some f
  | .cmpGeu f _ _ _ _ => some f
  | .pand f _ _ _ _ => some f
  | .por f _ _ _ _ => some f
  | .pxor f _ _ _ _ => some f
  | .pnot f _ _ _ _ => some f
  | .pget f _ _ _ _ => some f
  | .pset f _ _ _ _ => some f
  | .jr f _ _ _ _ => some f
  | .ropGet64 f _ _ _ _ => some f
  | .ropPut64 f _ _ _ _ => some f
  | .ropAdd64 f _ _ _ _ => some f
  | .ropSwap64 f _ _ _ _ => some f
  | .ropOr64 f _ _ _ _ => some f
  | .ropCas64 f _ _ _ _ => some f
  | .ropWait f _ _ _ _ => some f
  | .syncSig f _ _ _ _ => some f
  | .syncWait f _ _ _ _ => some f
  | .pbarSet f _ _ _ _ => some f
  | .pbarWait f _ _ _ _ => some f
  | .bndOpen f _ _ _ _ => some f
  | .bndPut f _ _ _ _ => some f
  | .bndAdd f _ _ _ _ => some f
  | .bndCommit f _ _ _ _ => some f
  | .bndDrop f _ _ _ _ => some f
  | .latSt f _ _ _ _ => some f
  | .latWait f _ _ _ _ => some f
  | .bcPost f _ _ _ _ => some f
  | .redPost f _ _ _ _ => some f
  | .movPost f _ _ _ _ => some f
  | .cvtSeed f _ _ _ _ => some f
  | .sysRd f _ _ _ _ => some f
  | .fltPark f _ _ _ _ => some f
  | .fltHalt f _ _ _ _ => some f
  | .latMm f _ _ _ _ _ => some f
  | .cvtR f _ _ _ _ _ => some f
  | .cvtUp f _ _ _ _ _ => some f
  | .cvtB f _ _ _ _ _ => some f
  | .addI f _ _ _ _ => some f
  | .andI f _ _ _ _ => some f
  | .orI f _ _ _ _ => some f
  | .xorI f _ _ _ _ => some f
  | .shI f _ _ _ _ => some f
  | .ldU8 f _ _ _ _ => some f
  | .ldU16 f _ _ _ _ => some f
  | .ldU32 f _ _ _ _ => some f
  | .ld64 f _ _ _ _ => some f
  | .st8 f _ _ _ _ => some f
  | .st16 f _ _ _ _ => some f
  | .st32 f _ _ _ _ => some f
  | .st64 f _ _ _ _ => some f
  | .ldPs32 f _ _ _ _ => some f
  | .ldPs64 f _ _ _ _ => some f
  | .stPs32 f _ _ _ _ => some f
  | .stPs64 f _ _ _ _ => some f
  | .latRd f _ _ _ _ => some f
  | .latClr f _ _ _ _ => some f
  | .br f _ _ _ => some f
  | .movK f _ _ _ _ _ => some f
  | _ => none

/-- The instruction of minor `minor` of major 0x00 (Tables 4-3, 4-5, 4-6); a minor that is not listed is
reserved (R124). -/
def decodeInt (f : FloretId) (g : BitVec 4) (d a b : BitVec 5) (minor : BitVec 7) : Option Instr :=
  match minor.toNat with
  | 0 => some (.add f g d a b)
  | 1 => some (.sub f g d a b)
  | 2 => some (.and f g d a b)
  | 3 => some (.or f g d a b)
  | 4 => some (.xor f g d a b)
  | 5 => some (.shl f g d a b)
  | 6 => some (.shr f g d a b)
  | 7 => some (.sra f g d a b)
  | 8 => some (.min f g d a b)
  | 9 => some (.max f g d a b)
  | 10 => some (.minu f g d a b)
  | 11 => some (.maxu f g d a b)
  | 12 => some (.mul f g d a b)
  | 13 => some (.mulh f g d a b)
  | 14 => some (.mulhu f g d a b)
  | 16 => some (.sext8 f g d a b)
  | 17 => some (.sext16 f g d a b)
  | 18 => some (.sext32 f g d a b)
  | 19 => some (.clz f g d a b)
  | 20 => some (.popc f g d a b)
  | _ => none

/-- The instruction of minor `minor` of major 0x08 (Tables 4-3, 4-5, 4-6); a minor that is not listed is
reserved (R124). -/
def decodePred (f : FloretId) (g : BitVec 4) (d a b : BitVec 5) (minor : BitVec 7) : Option Instr :=
  match minor.toNat with
  | 0 => some (.cmpEq f g d a b)
  | 1 => some (.cmpNe f g d a b)
  | 2 => some (.cmpLt f g d a b)
  | 3 => some (.cmpGe f g d a b)
  | 4 => some (.cmpLtu f g d a b)
  | 5 => some (.cmpGeu f g d a b)
  | 8 => some (.pand f g d a b)
  | 9 => some (.por f g d a b)
  | 10 => some (.pxor f g d a b)
  | 12 => some (.pnot f g d a b)
  | 16 => some (.pget f g d a b)
  | 17 => some (.pset f g d a b)
  | _ => none

/-- The instruction of minor `minor` of major 0x0D (Tables 4-3, 4-5, 4-6); a minor that is not listed is
reserved (R124). -/
def decodeJr (f : FloretId) (g : BitVec 4) (d a b : BitVec 5) (minor : BitVec 7) : Option Instr :=
  match minor.toNat with
  | 0 => some (.jr f g d a b)
  | _ => none

/-- The instruction of minor `minor` of major 0x20 (Tables 4-3, 4-5, 4-6); a minor that is not listed is
reserved (R124). -/
def decodeRop (f : FloretId) (g : BitVec 4) (d a b : BitVec 5) (minor : BitVec 7) : Option Instr :=
  match minor.toNat with
  | 0 => some (.ropGet64 f g d a b)
  | 1 => some (.ropPut64 f g d a b)
  | 2 => some (.ropAdd64 f g d a b)
  | 3 => some (.ropSwap64 f g d a b)
  | 4 => some (.ropOr64 f g d a b)
  | 5 => some (.ropCas64 f g d a b)
  | 16 => some (.ropWait f g d a b)
  | _ => none

/-- The instruction of minor `minor` of major 0x21 (Tables 4-3, 4-5, 4-6); a minor that is not listed is
reserved (R124). -/
def decodeSync (f : FloretId) (g : BitVec 4) (d a b : BitVec 5) (minor : BitVec 7) : Option Instr :=
  match minor.toNat with
  | 0 => some (.syncSig f g d a b)
  | 1 => some (.syncWait f g d a b)
  | _ => none

/-- The instruction of minor `minor` of major 0x22 (Tables 4-3, 4-5, 4-6); a minor that is not listed is
reserved (R124). -/
def decodePbar (f : FloretId) (g : BitVec 4) (d a b : BitVec 5) (minor : BitVec 7) : Option Instr :=
  match minor.toNat with
  | 0 => some (.pbarSet f g d a b)
  | 1 => some (.pbarWait f g d a b)
  | _ => none

/-- The instruction of minor `minor` of major 0x24 (Tables 4-3, 4-5, 4-6); a minor that is not listed is
reserved (R124). -/
def decodeBnd (f : FloretId) (g : BitVec 4) (d a b : BitVec 5) (minor : BitVec 7) : Option Instr :=
  match minor.toNat with
  | 0 => some (.bndOpen f g d a b)
  | 1 => some (.bndPut f g d a b)
  | 2 => some (.bndAdd f g d a b)
  | 3 => some (.bndCommit f g d a b)
  | 4 => some (.bndDrop f g d a b)
  | _ => none

/-- The instruction of minor `minor` of major 0x28 (Tables 4-3, 4-5, 4-6); a minor that is not listed is
reserved (R124). -/
def decodeLat (f : FloretId) (g : BitVec 4) (d a b : BitVec 5) (minor : BitVec 7) : Option Instr :=
  if minor.extractLsb' 5 2 = 0 then some (.latMm f g (minor.extractLsb' 0 5) d a b)
  else match minor.toNat with
  | 32 => some (.latSt f g d a b)
  | 33 => some (.latWait f g d a b)
  | _ => none

/-- The instruction of minor `minor` of major 0x2C (Tables 4-3, 4-5, 4-6); a minor that is not listed is
reserved (R124). -/
def decodePost (f : FloretId) (g : BitVec 4) (d a b : BitVec 5) (minor : BitVec 7) : Option Instr :=
  match minor.toNat with
  | 0 => some (.bcPost f g d a b)
  | 1 => some (.redPost f g d a b)
  | 2 => some (.movPost f g d a b)
  | _ => none

/-- The instruction of minor `minor` of major 0x30 (Tables 4-3, 4-5, 4-6); a minor that is not listed is
reserved (R124). -/
def decodeCvt (f : FloretId) (g : BitVec 4) (d a b : BitVec 5) (minor : BitVec 7) : Option Instr :=
  if minor.extractLsb' 5 2 = 0 then some (.cvtR f g (minor.extractLsb' 0 5) d a b)
  else if minor.extractLsb' 5 2 = 1 then some (.cvtUp f g (minor.extractLsb' 0 5) d a b)
  else if minor.extractLsb' 5 2 = 2 then some (.cvtB f g (minor.extractLsb' 0 5) d a b)
  else match minor.toNat with
  | 96 => some (.cvtSeed f g d a b)
  | _ => none

/-- The instruction of minor `minor` of major 0x38 (Tables 4-3, 4-5, 4-6); a minor that is not listed is
reserved (R124). -/
def decodeSys (f : FloretId) (g : BitVec 4) (d a b : BitVec 5) (minor : BitVec 7) : Option Instr :=
  match minor.toNat with
  | 0 => some (.sysRd f g d a b)
  | 2 => some (.fltPark f g d a b)
  | 3 => some (.fltHalt f g d a b)
  | _ => none

/-- The instruction that a word stands for when floret `f` issues it (R121, R125, Table 4-2); none for
a reserved major or minor code, which raises ILLEGAL (R124). -/
def decodeFloretWord (f : FloretId) (w : W32) : Option Instr :=
  let g : BitVec 4 := w.extractLsb' 22 4
  let d : BitVec 5 := w.extractLsb' 17 5
  let a : BitVec 5 := w.extractLsb' 12 5
  let b : BitVec 5 := w.extractLsb' 7 5
  let minor : BitVec 7 := w.extractLsb' 0 7
  let imm : BitVec 12 := w.extractLsb' 0 12
  match (w.extractLsb' 26 6).toNat with
  | 0 => decodeInt f g d a b minor
  | 8 => decodePred f g d a b minor
  | 13 => decodeJr f g d a b minor
  | 32 => decodeRop f g d a b minor
  | 33 => decodeSync f g d a b minor
  | 34 => decodePbar f g d a b minor
  | 36 => decodeBnd f g d a b minor
  | 40 => decodeLat f g d a b minor
  | 44 => decodePost f g d a b minor
  | 48 => decodeCvt f g d a b minor
  | 56 => decodeSys f g d a b minor
  | 1 => some (.addI f g d a imm)
  | 2 => some (.andI f g d a imm)
  | 3 => some (.orI f g d a imm)
  | 4 => some (.xorI f g d a imm)
  | 5 => some (.shI f g d a imm)
  | 16 => some (.ldU8 f g d a imm)
  | 17 => some (.ldU16 f g d a imm)
  | 18 => some (.ldU32 f g d a imm)
  | 19 => some (.ld64 f g d a imm)
  | 20 => some (.st8 f g d a imm)
  | 21 => some (.st16 f g d a imm)
  | 22 => some (.st32 f g d a imm)
  | 23 => some (.st64 f g d a imm)
  | 24 => some (.ldPs32 f g d a imm)
  | 25 => some (.ldPs64 f g d a imm)
  | 26 => some (.stPs32 f g d a imm)
  | 27 => some (.stPs64 f g d a imm)
  | 41 => some (.latRd f g d a imm)
  | 42 => some (.latClr f g d a imm)
  | 12 => some (.br f g d (w.extractLsb' 0 17))
  | 6 => some (.movK f (w.extractLsb' 24 2) (w.extractLsb' 22 2) d (w.extractLsb' 16 1) (w.extractLsb' 0 16))
  | _ => none

end Sys2Proof
end

