-- ==== Sys2Proof/Config.lean ====
section
/-! DEFINITION. What the spec leaves open: free values, which have no body, so that a proof about
them holds whatever they are. -/

namespace Sys2Proof.Config

/-- A 64-bit value that the spec does not state, drawn by the model's counter (assumption 1). -/
opaque openValue : Nat → W64

/-- Where the steward places the floor map in the granary (R453; assumption 3). -/
opaque floorAddr : Nat

/-- Where the dump region lies in the granary (R498; assumption 12). -/
opaque dumpAddr : Nat

/-- Granary frames that the steward reserves for the staged controller firmware (R441; assumption 12). The model takes
the first 256, which hold an image of 16 MiB, the longest there is (R442). -/
opaque stagedFrames : List Nat

/-- Whether an Ed448 signature verifies: key, message, signature (R442, R576; assumption 13). -/
opaque ed448 : List Byte → List Byte → List Byte → Bool

/-- The UUID of the MCTP endpoint (R550; assumption 15). -/
opaque endpointUuid : BitVec 128

/-- The Ed448 public key of a private key (R564; assumption 13). -/
opaque ed448Public : List Byte → List Byte

/-- The Ed448 signature of a private key over a message (R565; assumption 13). -/
opaque ed448Sign : List Byte → List Byte → List Byte

/-- What the DevID certificate carries and is signed over: the serial and the DevID public key (R566; assumption 16). -/
opaque devIdBody : W64 → List Byte → List Byte

/-- What the AK certificate carries and is signed over: the AK public key, and in an extension the AK's inputs other
than the UDS (R565; assumption 16). -/
opaque akBody : List Byte → List Byte → List Byte

/-- A certificate, from what it carries and the signature over it (assumption 16). -/
opaque certificate : List Byte → List Byte → List Byte

/-- The SHA3-512 digest of SPDM (R580; assumption 16). -/
opaque sha3 : List Byte → List Byte

/-- The bytes of the boot ROM (Table 18-6; assumption 16). -/
opaque romBytes : List Byte

/-- The 256 bytes of a configuration generation (Table 13-5): SKU code, core clock ceiling, TDP, life-cycle code,
owner key hash, orphan cap; assumption 16. -/
opaque cfgBytes : Nat → Nat → Nat → Nat → List Byte → Nat → List Byte

/-- The 1,728 bytes of a repair generation, from its entries (Table 13-5; assumption 16). -/
opaque repBytes : List W32 → List Byte

/-- How many bytes QUERY returns for an item whose layout is not in the source (Table 12-10; assumption 17). -/
opaque queryLen : Nat → Nat

/-- The CRC-16 of a mesh flit, from its data, channel and type: no polynomial is given (R252; assumption 170). -/
opaque crc16 : BitVec 512 → BitVec 3 → BitVec 3 → BitVec 16

/-- Where the PRBS-31 generator of a lane stands when its bridge direction starts: direction, plane, lane (R274;
assumption 171). -/
opaque prbsSeed : Nat → Bool → Nat → BitVec 31

/-- Bits 511–18 of a CREDIT frame that returns flits of a channel (R286; assumption 172). -/
opaque creditBody : BitVec 3 → Nat → BitVec 494

/-- The channel and the flits that a CREDIT frame's data returns (R286; assumption 172). -/
opaque creditOf : BitVec 512 → BitVec 3 × Nat

end Sys2Proof.Config
end

