-- ==== Sys2Proof/Machine/Bits.lean ====
section
/-! DEFINITION. Bit fields, byte order (R5: little-endian everywhere) and saturating counts. -/

namespace Sys2Proof.Machine

/-- Bits [hi:lo] of a number. -/
def fieldOf (x hi lo : Nat) : Nat := (x >>> lo) % 2 ^ (hi + 1 - lo)

/-- Bits [hi:lo] of a word. -/
def fld {n : Nat} (x : BitVec n) (hi lo : Nat) : Nat := fieldOf x.toNat hi lo

/-- Bits [hi:lo] of `x` replaced by the low bits of `v`. -/
def setFld {n : Nat} (x : BitVec n) (hi lo v : Nat) : BitVec n :=
  let m : Nat := (2 ^ (hi + 1 - lo) - 1) <<< lo
  (x &&& ~~~ (BitVec.ofNat n m)) ||| (BitVec.ofNat n (v <<< lo) &&& BitVec.ofNat n m)

/-- The number that little-endian bytes spell (R5). -/
def ofLE : List Byte → Nat
  | [] => 0
  | b :: bs => b.toNat + 256 * ofLE bs

/-- `n` little-endian bytes of a number (R5). -/
def toLE : Nat → Nat → List Byte
  | 0, _ => []
  | n + 1, v => BitVec.ofNat 8 v :: toLE n (v / 256)

/-- Bytes `i` to `i + n − 1` of a list, zeros past its end. -/
def slice (bs : List Byte) (i n : Nat) : List Byte :=
  let t := (bs.drop i).take n
  t ++ List.replicate (n - t.length) 0

/-- The little-endian number in bytes `i` to `i + n − 1`. -/
def leAt (bs : List Byte) (i n : Nat) : Nat := ofLE (slice bs i n)

/-- Number of bits set below bit `n`. -/
def popUpTo : Nat → Nat → Nat
  | 0, _ => 0
  | n + 1, x => (x % 2) + popUpTo n (x / 2)

/-- Number of bits set in a word. -/
def popc {n : Nat} (x : BitVec n) : Nat := popUpTo n x.toNat

/-- Number of leading zeros of a word. -/
def clz {n : Nat} (x : BitVec n) : Nat := if x = 0#n then n else n - 1 - x.toNat.log2

/-- Indices below `n` whose bit is set, rising. -/
def bitsSet {n : Nat} (x : BitVec n) : List Nat := (List.range n).filter (fun i => x.getLsbD i)

/-- A word with exactly the listed bits set. -/
def bitMask (n : Nat) (is : List Nat) : BitVec n :=
  is.foldl (fun m i => m ||| BitVec.ofNat n (2 ^ i)) 0#n

/-- Bit `i` set or cleared. -/
def putBit {n : Nat} (x : BitVec n) (i : Nat) (b : Bool) : BitVec n :=
  if b then x ||| BitVec.ofNat n (2 ^ i) else x &&& ~~~ (BitVec.ofNat n (2 ^ i))

/-- Saturating increase of a counter of `n` bits. -/
def satAdd {n : Nat} (x : BitVec n) (k : Nat) : BitVec n :=
  BitVec.ofNat n (Nat.min (x.toNat + k) (2 ^ n - 1))

/-- A number as a word, saturating. -/
def satOf (n k : Nat) : BitVec n := BitVec.ofNat n (Nat.min k (2 ^ n - 1))

/-- Element `i` of a list replaced. -/
def putAt {α : Type} : List α → Nat → α → List α
  | [], _, _ => []
  | _ :: t, 0, v => v :: t
  | h :: t, n + 1, v => h :: putAt t n v

/-- Element `i` of a list removed. -/
def dropAt {α : Type} : List α → Nat → List α
  | [], _ => []
  | _ :: t, 0 => t
  | h :: t, n + 1 => h :: dropAt t n

/-- Element `i` of a list updated. -/
def modAt {α : Type} : List α → Nat → (α → α) → List α
  | [], _, _ => []
  | h :: t, 0, g => g h :: t
  | h :: t, n + 1, g => h :: modAt t n g

/-- The smallest element of a list of numbers, if any. -/
def leastOf : List Nat → Option Nat
  | [] => none
  | a :: t => match leastOf t with
    | none => some a
    | some b => some (Nat.min a b)

/-- Round up division. -/
def ceilDiv (a b : Nat) : Nat := (a + b - 1) / b

end Sys2Proof.Machine
end

