-- ==== Sys2Proof/Machine/Tab.lean ====
section
/-! DEFINITION. Sparse tables: registers of many like units, and memory, kept as lists of keys and
values in one canonical form, so that equal contents are equal data. -/

namespace Sys2Proof.Machine

/-- A table from numbers to values: keys strictly rising, no entry equal to the default. -/
abbrev Tab (α : Type) := List (Nat × α)

/-- The value at key `n`; an unlisted key holds the default `d`. -/
def Tab.get {α : Type} (d : α) : Tab α → Nat → α
  | [], _ => d
  | (k, v) :: t, n => if k = n then v else Tab.get d t n

/-- The entry for `n` put in front of a tail whose keys all lie above `n`, or left out when it is
the default. -/
def Tab.put {α : Type} [DecidableEq α] (d : α) (n : Nat) (v : α) (t : Tab α) : Tab α :=
  if v = d then t else (n, v) :: t

/-- Write `v` at key `n`, keeping the canonical form. Past the place of `n` any further entry for it goes too (a
table in canonical form has none), so that reading it back gives `v` whatever the list. -/
def Tab.set {α : Type} [DecidableEq α] (d : α) : Tab α → Nat → α → Tab α
  | [], n, v => Tab.put d n v []
  | (k, w) :: t, n, v =>
    if k < n then (k, w) :: Tab.set d t n v
    else Tab.put d n v (((k, w) :: t).filter (fun e => decide (e.1 ≠ n)))

/-- All keys lie above `b` and rise strictly, and no entry is the default. -/
def Tab.above {α : Type} [DecidableEq α] (d : α) : Option Nat → Tab α → Bool
  | _, [] => true
  | b, (k, v) :: t =>
    (match b with
     | none => true
     | some m => decide (m < k)) && (decide (v ≠ d) && Tab.above d (some k) t)

/-- The canonical form of a table. -/
def Tab.wf {α : Type} [DecidableEq α] (d : α) (t : Tab α) : Bool := Tab.above d none t

/-- Update the entry at `n`. -/
def Tab.upd {α : Type} [DecidableEq α] (d : α) (t : Tab α) (n : Nat) (g : α → α) : Tab α :=
  Tab.set d t n (g (Tab.get d t n))

/-- Write consecutive keys from `n` on. -/
def Tab.setMany {α : Type} [DecidableEq α] (d : α) : Tab α → Nat → List α → Tab α
  | t, _, [] => t
  | t, n, v :: vs => Tab.setMany d (Tab.set d t n v) (n + 1) vs

/-- Read `n` consecutive keys from `a` on. -/
def Tab.getMany {α : Type} (d : α) (t : Tab α) (a : Nat) : Nat → List α
  | 0 => []
  | n + 1 => Tab.get d t a :: Tab.getMany d t (a + 1) n

end Sys2Proof.Machine
end

