-- ==== Sys2Proof/Machine/CoreUnits.lean ====
section
/-! DEFINITION. Plain data of the compute units: florets, spikelets, panicles and stream sequencers
(chapters 2 to 5). -/

namespace Sys2Proof.Machine

/-- Why a floret is BLOCKED (Table 2-2, R195). -/
inductive BlockWhy where
  | ibuf (line : Nat)
  | slot
  | latQueue
  | bank
  | spill
deriving DecidableEq, Repr

/-- What a floret is WAITING for (Table 2-2): a sync wait names its slot and its cell. -/
inductive WaitWhy where
  | sync (slot : Nat) (cell : Vertex)
  | barrier (n : Nat)
  | rops (n : Nat)
deriving DecidableEq, Repr

/-- Floret states (Table 2-2). `halting` is RUNNABLE's `flt.halt` row between the stop of issue and
the completion of the outstanding remote operations. -/
inductive FStatus where
  | idle
  | runnable
  | blocked (w : BlockWhy)
  | waiting (w : WaitWhy)
  | parked
  | halting
  | faulted
deriving DecidableEq, Repr

/-- What a translation that had to wait has come to (R184, R200): the physical address with the bytes to the page's
end, or a refusal. -/
inductive XlGot where
  | at_ (pa room : Nat)
  | no (status : Nat)
deriving DecidableEq, Repr

/-- A spilled access that missed and waits for its fill (R195): `store` holds the value of a
store; with `touch` the row is only brought in, for an instruction that is held meanwhile. -/
structure SpillMiss where
  row    : Nat
  off    : Nat
  bytes  : Nat
  dst    : BitVec 5
  store  : Option W64
  touch  : Bool := false
deriving DecidableEq, Repr

/-- A floret (R119, Table 2-1): `run` counts its starts, so that the operations of an earlier run are told apart
(R167), and `filled` are the spilled rows that have come for an instruction that touches several (R193), `xl` the translation that a spill fill or write-back had to wait for. -/
structure Floret where
  status  : FStatus := .idle
  pc      : BitVec 20 := 0
  sregs   : Tab W64 := []
  preds   : BitVec 8 := 0
  latStat : BitVec 4 := 0
  pend    : BitVec 32 := 0
  park    : BitVec 24 := 0
  hint    : W64 := 0
  lwBase  : BitVec 9 := 0
  lwRows  : BitVec 7 := 0
  lwRes   : BitVec 7 := 0
  miss    : Option SpillMiss := none
  bundle  : Option (Fin 4) := none
  bndSeq  : BitVec 24 := 0
  run     : Nat := 0
  filled  : List Nat := []
  xl      : Option (Nat × XlGot) := none
deriving DecidableEq, Repr

/-- What a request of the florets' class does at the bank (R131, R161): `cvt` is the read of a `cvt.b`'s source row,
and each `out` one of its writes of `n` bytes, `bs` once the row is converted; the `last` of them brings SAT and NAN. -/
inductive BankOp where
  | load (d : BitVec 5) (bytes : Nat)
  | store (v : W64) (bytes : Nat)
  | cvt (fmt : BitVec 5) (ctl : Byte) (rs : List Nat)
  | out (n : Nat) (bs : List Byte) (last sat nan : Bool)
deriving DecidableEq, Repr

/-- A floret's request to its bank (Table 2-4, requester 2). -/
structure BankReq where
  floret : Fin 16
  pc     : BitVec 20
  off    : Nat
  op     : BankOp
  order  : Nat := 0
deriving DecidableEq, Repr

/-- What a remote-operation slot carries (R79, R135, R139, R140, R145, R155, R157, R195). -/
inductive SlotKind where
  | get | put | add | swap | or | cas
  | signal | wait
  | drain (tile : Fin 4) (bytes : List Byte)
  | commit
  | post
  | spill
deriving DecidableEq, Repr

/-- Where a slot's operation stands: held by the spikelet (R139), in translation (R184, R200), sent
and awaiting its reply, or answered DOMAIN_RESETTING and awaiting its reissue (R137). -/
inductive SlotStage where
  | held | translating | sent | resetting
deriving DecidableEq, Repr

/-- A remote-operation slot in use. -/
structure Slot where
  floret : Fin 16
  kind   : SlotKind
  stage  : SlotStage := .sent
  pc     : BitVec 20 := 0
  addr   : W64 := 0
  opa    : W64 := 0
  opb    : W64 := 0
  dst    : BitVec 5 := 0
  order  : Nat := 0
  drst   : Bool := false
deriving DecidableEq, Repr

/-- A spill buffer entry (R195). -/
structure SpillEntry where
  floret : Fin 16
  row    : Nat
  dirty  : Bool
  data   : List Byte
deriving DecidableEq, Repr

/-- One row stream of a lattice operation: how many rows have come, and those that its buffers hold,
the one in use first (R56, R612, R64). -/
structure StreamSt where
  come : Nat := 0
  rows : List (List Byte) := []
deriving DecidableEq, Repr

/-- A lattice operation in the descriptor queue (R63, R146): `headed` once it has passed the checks of
R147, `beats` the beats it has taken, `factors` its row-scale vector, `group` the activation rows of
the sparse group under way. -/
structure LatOp where
  floret  : Fin 16
  pc      : BitVec 20
  fmt     : BitVec 5
  sa      : W64
  sb      : W64
  run     : Nat := 0
  headed  : Bool := false
  armed   : Bool := false
  beats   : Nat := 0
  weights : StreamSt := {}
  metas   : StreamSt := {}
  scales  : StreamSt := {}
  factors : List Byte := []
  group   : List (List Byte) := []
  done    : Bool := false
deriving DecidableEq, Repr

/-- Destination of a drain (Table 4-11). -/
inductive DrainTo where
  | bank (off : Nat)
  | remote (addr : W64)
  | tree (rid : BitVec 8)
deriving DecidableEq, Repr

/-- A drain whose writes are not complete (R151); `pieces` are remote writes still to be sent
(R79), `rows` the tile rows submitted to the reduce tree, `held` a drain whose reduction is not yet
posted (R152). -/
structure Drain where
  floret : Fin 16
  pc     : BitVec 20
  tile   : Fin 4
  sd     : W64
  sa     : W64
  dst    : DrainTo
  data   : List Byte := []
  scale  : List Byte := []
  scaleAt : W64 := 0
  pieces : List (W64 × List Byte) := []
  order  : Nat := 0
  rows   : List (List W32) := []
  held   : Bool := false
  sat    : Bool := false
  nan    : Bool := false
  run    : Nat := 0
deriving DecidableEq, Repr

/-- The fault record of a spikelet (Tables 4-16 to 4-18). -/
structure FaultRec where
  valid  : Bool := false
  ovf    : Bool := false
  floret : BitVec 4 := 0
  kind   : BitVec 2 := 0
  ctx    : BitVec 12 := 0
  code   : BitVec 8 := 0
  pc     : BitVec 19 := 0
  detail : W64 := 0
deriving DecidableEq, Repr

/-- A spikelet (Table 2-1), with its bank's maps and its registers (Tables 2-6 to 2-13). -/
structure Spikelet where
  bound     : Option (BitVec 12 × BitVec 8) := none
  step      : W32 := 0
  lastIssue : Fin 16 := 15
  bubbles   : Nat := 0
  ibuf      : List Nat := []
  slots     : Tab (Option Slot) := []
  parity    : BitVec 64 := 0
  order     : Nat := 0
  spill     : List SpillEntry := []
  bankQ     : List BankReq := []
  shadow    : BitVec 512 := 0
  zero      : BitVec 512 := 0
  landing   : BitVec 8 := 0
  remap     : List (Fin 512 × Fin 8) := []
  fixRows   : List (Fin 512) := []
  eccCe     : W32 := 0
  ueValid   : Bool := false
  ueRow     : BitVec 9 := 0
  ueCount   : BitVec 8 := 0
  lfsr      : W32 := 1
  latQ      : List LatOp := []
  tiles     : Tab W32 := []
  invalid   : BitVec 128 := 0
  drains    : List Drain := []
  frec      : FaultRec := {}
deriving DecidableEq, Repr

/-- A panicle barrier (R141). -/
structure Barrier where
  count    : Nat := 0
  arrivals : Nat := 0
deriving DecidableEq, Repr

/-- A broadcast (Table 4-12): `next` is the next beat to read from the store. -/
structure Bcast where
  mask : BitVec 64
  ctl  : W64
  poster : FloretId
  slot : Nat
  next : Nat := 0
deriving DecidableEq, Repr

/-- A member's submission to the reduce tree (R151): the member, the floret and PC of its drain, the
drain's s_a word and its tile rows. -/
structure TreeSub where
  member : Fin 64
  floret : Fin 16
  pc     : BitVec 20
  sa     : W64
  rows   : List (List W32)
  run    : Nat := 0
deriving DecidableEq, Repr

/-- A posted panicle reduction (R156). -/
structure PanRed where
  poster : FloretId
  pc     : BitVec 20
  mask   : BitVec 64
  ctl    : W64
  subs   : List TreeSub := []
  started : Bool := false
  run    : Nat := 0
deriving DecidableEq, Repr

/-- A TLB entry, most recently used first in its list (R183): `size` is 30, 21 or 16. -/
structure TlbEntry where
  ctx   : BitVec 12
  gen   : BitVec 8
  size  : Nat
  vpn   : Nat
  pte   : W64
  leafAt : Nat
deriving DecidableEq, Repr

/-- What waits for a translation: a remote-operation slot of a spikelet, or a packet that another
package's panicle sent to this panicle as proxy (R175), a mover descriptor, or a spill fill or
write-back of a floret (R195). -/
inductive XlFor where
  | slot (s : SpkId) (i : Nat)
  | mover (id : Nat)
  | spill (f : FloretId)
  | packet (p : Packet)
deriving DecidableEq, Repr

/-- A translation in progress: a walk, a miss waiting for a walk, or an access held at a far page
(R184, R200). -/
structure Xl where
  ctx   : BitVec 12
  gen   : BitVec 8
  va    : Nat
  write : Bool
  who   : XlFor
deriving DecidableEq, Repr

/-- Where a descriptor comes from: a floret's post or the stream sequencer (R157). -/
inductive MovFrom where
  | floret (f : FloretId) (pc : BitVec 20) (at_ : W64)
  | sequencer
deriving DecidableEq, Repr

/-- Where a mover descriptor stands: accepted, started, held for the step's commit (R158, R211),
deferred (R207), its writes to another package sent and not all answered, its sync-cell add sent there and not
answered. -/
inductive MovStage where
  | waiting | started | heldSig | deferred | reissued | heldWrite | writing | signalling
deriving DecidableEq, Repr

/-- A descriptor in the panicle mover (R157, R158): `data` is what it has read so far, and what a reissued descriptor
holds until the shadow clear (R211, order 5), `wrote` how many of its bytes it has written, `xl` the translation that it
had to wait for, `cut` that the step that it serves is cancelled (R213), `early` that its source has been read ahead of its start (R260); `post` the slot that its floret's post holds (R157), `run` that
floret's run; `tag` its place of the 256 in flight, whose use parity its requests carry (R335), and `out` its requests
to other packages that have no reply yet. -/
structure MovDesc where
  id    : Nat
  src   : MovFrom
  ctx   : BitVec 12
  gen   : BitVec 8
  d     : MovFields
  step  : W32 := 0
  stage : MovStage := .waiting
  data  : List Byte := []
  post  : Nat := 0
  run   : Nat := 0
  tag   : Nat := 0
  out   : Nat := 0
  wrote : Nat := 0
  xl    : Option (Nat × XlGot) := none
  cut   : Bool := false
  early : Bool := false
deriving DecidableEq, Repr

/-- One action of a bundle (R143): a write of bytes, or an add. -/
inductive BndAct where
  | put (addr : W64) (bytes : List Byte)
  | add (addr : W64) (v : W64)
deriving DecidableEq, Repr

/-- A bundle slot that is open and not yet committed (R142). -/
structure OpenBundle where
  floret : FloretId
  seq    : BitVec 24
  acts   : List BndAct := []
deriving DecidableEq, Repr

/-- The counters of Table 5-9 and the transport counters of Table 9-17. -/
structure PanCounters where
  xlHit   : W32 := 0
  xlMiss  : W32 := 0
  xlFar   : W32 := 0
  spHit   : W32 := 0
  spMiss  : W32 := 0
  spWb    : W32 := 0
  raDiscard : W32 := 0
  raDefer : W32 := 0
  tpRetry : W32 := 0
  tpNak   : W32 := 0
  tpDup   : W32 := 0
  tpUnreach : W32 := 0
  tpStall : W32 := 0
deriving DecidableEq, Repr

/-- A panicle (R18, R171): store contents stand in memory; `fixWords` are store words whose
correction awaits its write-back (R611), `movParity` the use parity of the mover's 256 places (R335), `inval` the
invalidations that it has yet to acknowledge, oldest first (R185), `toClear` that a destroyed context has left it
(R420). -/
structure Panicle where
  bound    : Option (BitVec 12 × BitVec 8) := none
  barriers : Tab Barrier := []
  slots    : Tab (Option OpenBundle) := []
  running  : Option Bcast := none
  waitList : List Bcast := []
  posts    : List Bcast := []
  reds     : List (BitVec 8 × PanRed) := []
  tlb      : List TlbEntry := []
  walks    : List Xl := []
  misses   : List Xl := []
  farWait  : List Xl := []
  farMore  : List Xl := []
  movPosts : List MovDesc := []
  movs     : List MovDesc := []
  movNext  : Nat := 0
  movParity : BitVec 256 := 0
  fixWords : List (Fin 32768) := []
  storeMap : List (Fin 2048 × Fin 16) := []
  inval    : List (BitVec 12 × Nat × Nat) := []
  toClear  : Bool := false
  ctr      : PanCounters := {}
deriving DecidableEq, Repr

/-- How far a stream sequencer has brought the next step (Table 5-8): its landing set not marked, its
run-ahead under way, its deferred descriptors reissued. -/
inductive StepStage where
  | unmarked | runAhead | reissue
deriving DecidableEq, Repr

/-- A launch on a stream sequencer (R211): `first` is the step index N of the first step, `arg` the
argument of its start requests, `step` the place in the graph of the next step to commit; while
`running`, the step before it runs and `waiting` are the panicles that have yet to report it.
`outcome` is the status and result of the command, once known. -/
structure Launch where
  queue    : QueueId
  seq      : W32
  ctx      : BitVec 12
  gen      : BitVec 8
  graph    : GraphDesc
  first    : W32 := 0
  arg      : W64 := 0
  step     : Nat := 0
  running  : Bool := false
  waiting  : List PanId := []
  stage    : StepStage := .unmarked
  outcome  : Option (Nat × Nat) := none
deriving DecidableEq, Repr

/-- The stream sequencer of a tiller. -/
structure Sequencer where
  launches : List Launch := []
deriving DecidableEq, Repr

/-- The compute units: florets by floret index, spikelets by spikelet index, panicles, sequencers. -/
structure Cores where
  florets : Tab Floret := []
  spikelets : Tab Spikelet := []
  panicles : Tab Panicle := []
  seqs    : Tab Sequencer := []
deriving DecidableEq, Repr

end Sys2Proof.Machine
end

