-- ==== Sys2Proof/Machine/FabricUnits.lean ====
section
/-! DEFINITION. Plain data of the fabric: packets on the way, mesh links, bridges, straws and
sheaves, routing tables and transport peers (chapters 7 to 9). -/

namespace Sys2Proof.Machine

/-! ### Mesh and injection -/

/-- A mesh link into a router's port (R252 to R254): `fails` how often the flit it is at has failed, `discard` that
flits are discarded until the replay of that one, `wire` the packets that its sender has on it, oldest first, with the
flits of each that have come. -/
structure MeshLink where
  fails   : Nat := 0
  down    : Bool := false
  discard : Bool := false
  wire    : List (Packet × Nat) := []
deriving DecidableEq, Repr

/-- A packet in the input buffer of a router's port (R253): routers as panicles are numbered, 1536 the hub's; ports N, E,
S, W, L, X are 0 to 5. -/
structure Parked where
  at_  : Nat
  port : Nat
  pkt  : Packet
deriving DecidableEq, Repr

/-- Registers of a panicle's injection and bank arbiters (Tables 2-7, 2-8, 7-8, 7-9). -/
structure PanArb where
  injPrio  : BitVec 8 := 0x9B
  stall    : Bool := false
  movPrefetch : BitVec 16 := 256
  hints    : W32 := 0
  prefetching : Bool := false
  barbPrio : BitVec 6 := 0x39
  barbSel  : BitVec 6 := 0
deriving DecidableEq, Repr

/-! ### Node bridges -/

/-- Plane states (Table 7-13); `held` is FAULTED and held. -/
inductive PlaneState where
  | active | standby | faulted | held | retrain
deriving DecidableEq, Repr

/-- A spare lane (Table 7-14); `since` is when the clean period of its lane began (R276). -/
structure Spare where
  used      : Bool := false
  returning : Bool := false
  since     : W64 := 0
  lane      : BitVec 9 := 0
deriving DecidableEq, Repr

/-- A plane of a bridge direction (R261, R271, Table 7-13): `faults` when it faulted, `errors` the
lanes and times of errors, `attributed` the lanes of its last fault, `sparing` lanes with the spares that
they move to, `returns` lanes and times of returns (R277), `unserved` failing lanes without a spare. -/
structure BPlane where
  state    : PlaneState := .retrain
  cause    : BitVec 2 := 0
  lastLane : BitVec 9 := 0x1FF
  faults   : List W64 := []
  crc      : W32 := 0
  prbs     : W32 := 0
  spares   : Tab Spare := []
  errors   : List (Nat × W64) := []
  lastErr  : Option W64 := none
  attributed : List Nat := []
  sparing  : List (Nat × Nat) := []
  returns  : List (Nat × W64) := []
  unserved : List Nat := []
deriving DecidableEq, Repr

/-- A sequenced flit of a bridge's transmitter (R263): flit `ix` of a packet, with the credit that it returns for the
opposite direction (Table 7-4). -/
structure BFlit where
  seq   : BitVec 12 := 0
  port  : Nat
  typ   : BitVec 3
  ix    : Nat
  pkt   : Packet
  cport : Nat := 0
  cvc   : BitVec 3 := 0
  ccnt  : Nat := 0
deriving DecidableEq, Repr

/-- A bridge direction: receiver and transmitter (R263 to R270, Tables 7-11, 7-12). `drive` is the active plane, false for
plane A, and `released` that DRIVE_SEL selects none meanwhile (R269); `failed` that the direction was declared down,
`ready` that both its planes have trained since (R268); `txPrbs` the plane that the transmitter drives with the PRBS
pattern only. The transmitter: `txq` the flits that wait at each sub-port, `rr` the sub-port whose turn is next, `replay`
the flits not yet acknowledged, of which `out` have been sent, `ctl` the LINK_CTL flits to send, by code and SEQ, `credit`
by 8 × sub-port + VC. The receiver: `asm` the bytes of packets that are coming in and `owed` the credit it is to return,
both by that key, `elastic` the slots that wait while the output is held, `slots` the slots received and `idles` those
of them that were IDLE. -/
structure BDir where
  a        : BPlane := {}
  b        : BPlane := {}
  drive    : Bool := false
  down     : Bool := true
  failed   : Bool := false
  ready    : Bool := false
  hold     : Bool := false
  released : Bool := false
  forceRefused : Bool := false
  interlock : Bool := false
  autoRetrain : Bool := true
  naks     : W32 := 0
  mismatch : W32 := 0
  switches : W32 := 0
  expected : BitVec 12 := 0
  txAcked  : BitVec 12 := 0xFFF
  nakSeq   : Option (BitVec 12) := none
  nakRun   : Nat := 0
  txPrbs   : Option Bool := none
  txNext   : BitVec 12 := 0
  txq      : Tab (List BFlit) := []
  rr       : Nat := 0
  replay   : List BFlit := []
  out      : Nat := 0
  ctl      : List (BitVec 4 × BitVec 12) := []
  credit   : Tab Nat := []
  asm      : Tab (List Byte) := []
  owed     : Tab Nat := []
  elastic  : List (BitVec 576 × BitVec 576) := []
  slots    : Nat := 0
  idles    : Nat := 0
deriving DecidableEq, Repr

/-! ### Straws and sheaves -/

/-- Straw states (Table 8-7). -/
inductive StrawState where
  | off | down | training | rollCall | up | held | quarantined
deriving DecidableEq, Repr

/-- Roll-call outcomes (Table 8-6). -/
inductive Outcome where
  | none | matched | swapped | miswired | missing | unexpected
deriving DecidableEq, Repr

/-- A packet that a straw carries in a sub-sheaf and that is not acknowledged (R293). -/
structure SheafPkt where
  seq  : BitVec 14
  sseq : BitVec 10
  pkt  : Packet
deriving DecidableEq, Repr

/-- A straw port (Tables 8-10 to 8-13, 9-20, R286, R301): `heard` the last ROLL_CALL frame, `same` how many
like it have come in a row with a good echo, `sentRoll` the last one sent; `partly` a packet whose HEAD has
come, its bytes so far; `unacked` packets by their last SEQ; `missingSeen` that it has reported MISSING since it was
UP; `credit` flits that the far end has room for, by VC (R291); `deficit` and `turn` the deficit round robin of
its share table (R339); `driven` the frames that it has driven on its fibre, newest first: the model's own record, as long as
the replay buffer. -/
structure Straw where
  state    : StrawState := .off
  outcome  : Outcome := .none
  en       : Bool := true
  auto     : Bool := true
  planSkew : Bool := false
  exchWith : BitVec 5 := 0
  lambda   : BitVec 8 := 0
  naks     : W32 := 0
  crc      : W32 := 0
  fec      : W32 := 0
  heard    : Option RollFrame := none
  same     : Nat := 0
  sentRoll : Option RollFrame := none
  rxNext   : BitVec 14 := 0
  partly   : Option (BitVec 10 × List Byte) := none
  txNext   : BitVec 14 := 0
  nakSeq   : Option (BitVec 14) := none
  nakRun   : Nat := 0
  unacked  : List SheafPkt := []
  share    : Tab W32 := []
  schedPrio : BitVec 16 := 0xFA5E
  hints    : W32 := 0
  stalls   : List (BitVec 12) := []
  missingSeen : Bool := false
  credit   : Tab Nat := []
  deficit  : Tab Nat := []
  turn     : Nat := 0
  driven   : List (BitVec 576) := []
deriving DecidableEq, Repr

/-- A packet in a reorder buffer (R291), with the straw that it came by; `dead` that it was dropped for its age (R325). -/
structure Reordered where
  sseq  : BitVec 10
  straw : Nat
  pkt   : Packet
  dead  : Bool := false
deriving DecidableEq, Repr

/-- A sheaf (R288 to R295); SSEQ counters, reorder buffers and the round robin by tiller × 8 + VC (1024 + straw × 8 + VC for
reduction packets that named a straw, R347); `wholeAt`
is when every member came into the live set, `degraded` that an episode of R295 has been raised. -/
structure Sheaf where
  members  : W32 := 0
  cfgErr   : Bool := false
  split    : Bool := false
  resent   : W32 := 0
  dropped  : W32 := 0
  degraded : Bool := false
  wholeAt  : Option W64 := none
  txNext   : Tab (BitVec 10) := []
  rxNext   : Tab (BitVec 10) := []
  reorder  : Tab (List Reordered) := []
  last     : Tab Nat := []
deriving DecidableEq, Repr

/-- A ring's register (Table 8-15). -/
structure Ring where
  absent : BitVec 4 := 0
  state  : BitVec 2 := 0
deriving DecidableEq, Repr

/-! ### Routing -/

/-- Table bank states (Table 9-13). -/
inductive BankSt where
  | retired | sealed | active | draining
deriving DecidableEq, Repr

/-- The routing registers of a die (Tables 9-17 to 9-19). -/
structure DieRoute where
  bank0    : BankSt := .retired
  bank1    : BankSt := .retired
  tables   : Tab W32 := []
  flipRefused : Bool := false
  tblRefused  : Bool := false
  cmd      : W32 := 0
  data     : W32 := 0
  sum      : W32 := 0
  noRoute  : W32 := 0
  age      : W32 := 0
  invalid  : W32 := 0
  detour   : W32 := 0
deriving DecidableEq, Repr

/-- Where a router sends a packet head (R318, R319): a bridge with its sub-port, a sheaf with the tiller of
its sub-sheaf and the router of its straw port, or the straw that a reduction packet's sender names (R347). -/
inductive Exit where
  | toPanicle (p : PanId)
  | toStation (fn : Nat)
  | toBridge (b : Fin 12) (port : Nat)
  | toSheaf (n : SheafId) (tiller : TillerId) (at_ : PanId)
  | toStraw (w : StrawId)
  | toHub
deriving DecidableEq, Repr

/-- A packet head that a router has resolved; `out` that it has left the mesh by its exit, to an endpoint or a sheaf
engine. -/
structure Routed where
  die  : DieId
  at_  : PanId
  exit : Exit
  pkt  : Packet
  out  : Bool := false
deriving DecidableEq, Repr

/-! ### Transport -/

/-- A transport peer entry (R331 to R336): `unacked` are the sequenced packets that are not yet
acknowledged, oldest first; `opened` says that the entry has sent a sequenced packet. -/
structure Peer where
  ep       : Nat
  peer     : Ec
  next     : BitVec 16 := 0
  opened   : Bool := false
  expected : Option (BitVec 16) := none
  retries  : Nat := 0
  unacked  : List Packet := []
  lastRecv : Option W64 := none
  lastSent : W64 := 0
  lastNak  : Option W64 := none
  ackOwed  : Bool := false
deriving DecidableEq, Repr

/-- The fabric. `sent` are the packets that this package has injected and that have not reached
their endpoint, `stalled` packets that wait for a transport entry or window (R332, R336), `ingress`
packets that arrived by straw, `delivered` packets that transport has accepted, `routed` the last routing decision
for each packet on its way, `parked` what the routers' input buffers hold, oldest first. -/
structure Fabric where
  coord   : BitVec 24 := 0
  mesh    : Tab MeshLink := []
  panArbs : Tab PanArb := []
  dirs    : Tab BDir := []
  straws  : Tab Straw := []
  sheaves : Tab Sheaf := []
  rings   : Tab Ring := []
  reshape : BitVec 16 := 5
  schedSel : BitVec 5 := 0
  plan    : Option (List Byte) := none
  inj     : BitVec 1 := 0
  drainAt : Option W64 := none
  dies    : Tab DieRoute := []
  saved   : Tab DieRoute := []
  savedInj : BitVec 1 := 0
  sent    : List Packet := []
  stalled : List (EpId × Packet) := []
  ingress : List Packet := []
  delivered : List Packet := []
  routed  : List Routed := []
  parked  : List Parked := []
  peers   : List Peer := []
deriving DecidableEq, Repr

/-- The default sheaves of Table 8-3, the reset values of SHF_SHEAF_MEMBERS (R288, R309). -/
def defaultSheaves : Tab Sheaf :=
  [(0, { members := 0x0000000F }), (1, { members := 0x000000F0 }), (2, { members := 0x00000F00 }),
   (3, { members := 0x000F0000 }), (4, { members := 0x00F00000 }), (5, { members := 0x0F000000 }),
   (6, { members := 0x10001000 }), (7, { members := 0x20002000 }), (8, { members := 0x40004000 }),
   (9, { members := 0x00008000 }), (10, { members := 0x80000000 })]

end Sys2Proof.Machine
end

