-- ==== Sys2Proof/Machine/HostUnits.lean ====
section
/-! DEFINITION. Plain data of the host interface: contexts, slices, queues, commands, BAR4
(chapter 12). -/

namespace Sys2Proof.Machine

/-- States of a context table entry (R417). -/
inductive CtxState where
  | free | live | destroying
deriving DecidableEq, Repr

/-- A run of granary frames of 64 KiB: first frame and count (R415). -/
structure Extent where
  first : Nat
  count : Nat
deriving DecidableEq, Repr

/-- Frames of an unmapped page, and when its UNMAP completed (R390). -/
structure Unmapped where
  ext : Extent
  at_ : W64
deriving DecidableEq, Repr

/-- A frame of a far pool with the page that it holds and that page's far slot (R201). -/
structure FarHeld where
  frame : Nat
  va    : Nat
  slot  : Nat
deriving DecidableEq, Repr

/-- Far slots that a MAP registered: the first, how many, and the host address of the first (R199). -/
structure FarMap where
  first : Nat
  count : Nat
  host  : W64
deriving DecidableEq, Repr

/-- A context table entry (R417): `pages` are the frames of its mapped pages, `tabs` those of its page
tables, `tabAt` where the next table may lie; `farPool` the frames of its far pool, `farHeld` the pages
that they hold, `farMaps` its far slots. `owner` is the command that destroys it. -/
structure Ctx where
  st      : CtxState := .free
  gen     : BitVec 8 := 0
  fn      : Nat := 0
  slice   : BitVec 16 := 0
  seed    : W64 := 0
  spb     : W64 := 0
  quota   : W64 := 0
  pages   : List Extent := []
  tabs    : List Nat := []
  tabAt   : Nat := 0
  farPool : List Nat := []
  farHeld : List FarHeld := []
  farMaps : List FarMap := []
  l1      : Nat := 0
  unmapped : List Unmapped := []
  owner   : Option (QueueId × W32) := none
deriving DecidableEq, Repr

/-- Queue states (Table 12-4). -/
inductive QState where
  | disabled | running | draining | stopped
deriving DecidableEq, Repr

/-- A stook member's answer to a command sent to every member (R424). -/
structure MemberRes where
  member : Fin 64
  status : BitVec 16
  result : W64
deriving DecidableEq, Repr

/-- A command that is fetched and not completed (R411): `cfg` its queue's configuration and `gen` the
generation of its context when fetched; `via` the master whose queue it stands for (R425); `discard`
that its completion is discarded (R422); `away` the members that it still waits for. `step` is
progress that an opcode keeps, `startNo` numbers commands in the order in which they start (R415), at the time `startAt`;
`waitsOn` are the commands that a FENCE waits for. -/
structure HCmd where
  seq     : W32
  bytes   : List Byte
  cfg     : W32
  gen     : BitVec 8 := 0
  via     : Option Ec := none
  started : Bool := false
  discard : Bool := false
  local_  : Bool := true
  away    : List (Fin 64) := []
  results : List MemberRes := []
  step    : Nat := 0
  startNo : Nat := 0
  startAt : W64 := 0
  waitsOn : List (Nat × W32) := []
  asked   : Bool := false
  out     : Nat := 0
  ending  : Option (Nat × Nat) := none
deriving DecidableEq, Repr

/-- A queue (R403 to R408, Tables 12-12 to 12-16). -/
structure Queue where
  base    : W64 := 0
  cqBase  : W64 := 0
  cfg     : W32 := 0
  st      : QState := .disabled
  cfgErr  : Bool := false
  cause   : BitVec 4 := 0
  gen     : BitVec 8 := 0
  head    : W32 := 0
  tail    : W32 := 0
  cqHead  : W32 := 0
  cqCount : W32 := 0
  cmds    : List HCmd := []
  irq     : W32 := 0
  irqOwed : Nat := 0
deriving DecidableEq, Repr

/-- A slice (R361, R338): its packages, parts per straw port, share weight, axes of wrap ownership. -/
structure Slice where
  id     : BitVec 16
  pkgs   : List (BitVec 24)
  red    : Nat
  bnd    : Nat
  weight : Nat
  axes   : BitVec 3
deriving DecidableEq, Repr

/-- A far miss posted to the steward (R200): context, page VA, when it was posted. -/
structure FarMiss where
  ctx : BitVec 12
  va  : Nat
  at_ : W64
deriving DecidableEq, Repr

/-- An invalidation in progress (R185, R186): the MAP or UNMAP that waits, the units yet to
acknowledge, the frames to return. -/
structure Inval where
  queue : QueueId
  seq   : W32
  ctx   : BitVec 12
  va    : Nat
  len   : Nat
  waits : List PanId
  pages : Nat
  frames : List Extent
deriving DecidableEq, Repr

/-- A steward (R409, R480, R502): the command of its turn. -/
structure Steward where
  turn    : Option (QueueId × W32) := none
  turnAt  : W64 := 0
  down    : Bool := false
  downAt  : Option W64 := none
deriving DecidableEq, Repr

/-- The host interface. `msix` are the interrupts signalled (function, vector), `readOut` what reads
from outside have returned, `stwOut` the steward messages sent,
`turns` the turns that each queue has taken in the stewards' round (R409),
`stwReqs` the requests of stewards that await a reply, by tag; `blames` the descriptors of failed steps that sequencers
have named to the steward (context, panicle, descriptor; R212); `bar4Bits` the size of BAR4 in address bits
(R399). -/
structure HostIf where
  ctxs    : Tab Ctx := []
  queues  : Tab Queue := []
  slices  : List Slice := []
  wraps   : List (BitVec 16 × BitVec 3) := []
  peak    : BitVec 13 := 0
  dbIgnored : W32 := 0
  msix    : List (Nat × Nat) := []
  readOut : List (List Byte) := []
  stwOut  : List (Ec × StwMsg) := []
  stewards : Tab Steward := []
  turns   : Tab Nat := []
  stwReqs : List (Nat × QueueId × W32) := []
  stwTag  : Nat := 0
  starts  : Nat := 0
  scrubs  : List (BitVec 12 × Extent) := []
  farMisses : List FarMiss := []
  farFills : W32 := 0
  farEvicts : W32 := 0
  farLongest : BitVec 24 := 0
  invals  : List Inval := []
  blames  : List (BitVec 12 × PanId × Nat) := []
  bar4Lo  : W32 := 0
  bar4Hi  : W32 := 0
  bar4Valid : Bool := false
  bar4Ovf : Bool := false
  bar4Kind : BitVec 2 := 0
  bar4Write : Bool := false
  bar4Addr : W64 := 0
  bar4Bits : Nat := 36
deriving DecidableEq, Repr

end Sys2Proof.Machine
end

