-- ==== Sys2Proof/Machine/HubUnits.lean ====
section
/-! DEFINITION. Plain data of the hub: fault log, floor map, power and thermal managers, boot,
management port and security block (chapters 13 to 19). -/

namespace Sys2Proof.Machine

/-- A fault log entry (Table 15-2); `read` says that it has been read (R476). -/
structure LogEntry where
  time   : W64
  code   : BitVec 16
  lost   : Bool
  cls    : BitVec 3
  ctx    : Option (BitVec 12)
  src    : Ec
  aux    : Ec
  detail : BitVec 48
  read   : Bool := false
deriving DecidableEq, Repr

/-- Reset domain states (Table 15-5). -/
inductive DomState where
  | run | glean | reset | reentry
deriving DecidableEq, Repr

/-- A reset domain (R481, Tables 15-18, 15-19): `gleaned` is when its last dump began, `backAt` when
its last re-entry ended, `fails` its failed re-entries in a row; `owner` is the RESET_DOMAIN or BIST that
waits for its end, `test` the subsets of the test that it is reset for. -/
structure Dom where
  st       : DomState := .run
  resets   : BitVec 8 := 0
  trigger  : BitVec 4 := 0
  gen      : BitVec 8 := 0
  ctxStale : BitVec 16 := 0
  domStale : BitVec 16 := 0
  backAt   : Option W64 := none
  fails    : Nat := 0
  owner    : Option (QueueId × W32) := none
  test     : Option (BitVec 4) := none
deriving DecidableEq, Repr

/-- Fault log and fault registers (R476, R506, Tables 15-15 to 15-19). Domains by index: 0 PKG,
1 TRANSIT, 2 HOSTFN, 8 + t TILLER, 16 + n GRANARY. -/
structure Flt where
  log    : Tab (Option LogEntry) := []
  count  : W32 := 0
  fatal  : Bool := false
  corr   : Bool := false
  wdogEn : Bool := true
  wdogLimit : BitVec 10 := 10
  doms   : Tab Dom := []
deriving DecidableEq, Repr

/-- A hold on a cycle of edges, named by their arrival numbers; `closing` was posted last (R489). -/
structure EdgeHold where
  closing : Nat
  cycle   : List Nat
deriving DecidableEq, Repr

/-- The record of a KNOT (Tables 15-15, 15-20, 15-21): ends of the closing edge coded 0 queue, 1 step,
2 cell. -/
structure Knot where
  valid : Bool := false
  ovf   : Bool := false
  src   : BitVec 3 := 0
  dst   : BitVec 3 := 0
  ctx   : BitVec 12 := 0
  ctxs  : List (BitVec 12) := []
  edge  : BitVec 16 := 0
  cell  : Local := 0
deriving DecidableEq, Repr

/-- The wait-cycle detector (R487 to R492): edges on their way to it, edges held by arrival number,
holds, the record of the last KNOT. -/
structure Detector where
  posts    : List Edge := []
  removals : List Edge := []
  edges    : List (Nat × Edge) := []
  next     : Nat := 0
  holds    : List EdgeHold := []
  full     : Bool := false
  knot     : Knot := {}
deriving DecidableEq, Repr

/-- The floor map (R20, R450 to R454): `fused` are the units that the repair generation in force
marks dead, the others are what this boot or this service life has found; `cause` is the cause byte
of a panicle (Table 13-8), `soft` the spikelets soft-dead this boot, `retired` the frames retired
under R247. -/
structure Floor where
  deadSpk   : Tab Bool := []
  deadPan   : Tab Bool := []
  deadTil   : BitVec 8 := 0
  deadStack : BitVec 24 := 0
  deadChan  : Tab (BitVec 32) := []
  deadStraw : BitVec 32 := 0
  cause     : Tab Byte := []
  soft      : Tab Bool := []
  retired   : List Nat := []
  version   : W32 := 0
  below     : Bool := false
  published : Bool := false
  repairGen : BitVec 4 := 0
deriving DecidableEq, Repr

/-! ### OTP, boot and self-test (chapters 13, 14, 18) -/

/-- A configuration generation of the OTP (Table 13-5): SKU code, core clock ceiling in MHz, TDP in W,
life-cycle code, owner key hash, orphan cap in percent. The default holds the limits of a part that has
none (R569). -/
structure CfgGen where
  sku    : BitVec 8 := 3
  fmax   : BitVec 11 := 1050
  tdp    : BitVec 16 := 1600
  lc     : BitVec 3 := 0
  owner  : List Byte := []
  orphan : BitVec 7 := 70
deriving DecidableEq, Repr

/-- An OTP generation that is being written (R449, R571). -/
inductive OtpWrite where
  | cfg (g : CfgGen)
  | rep (es : List W32)
deriving DecidableEq, Repr

/-- The OTP (R448, R449): the serial and the unique device secret; generations as written, oldest first; one that was interrupted is none. -/
structure Otp where
  serial : W64 := 0
  uds    : List Byte := []
  rev    : BitVec 8 := 0
  root   : List Byte := []
  cfg    : List (Option CfgGen) := []
  rep    : List (Option (List W32)) := []
  writing : Option OtpWrite := none
deriving DecidableEq, Repr

/-- The debug lock while it is open (R577, R578). -/
structure Unlock where
  scope : BitVec 3
  at_   : W64
  minutes : Nat
deriving DecidableEq, Repr

/-- What an SPDM response carries (R579 to R581): `signed` responses are signed with the AK. -/
inductive SpdmRsp where
  | version
  | capabilities
  | algorithms
  | digests (d : List Byte)
  | certificate (bytes : List Byte) (left : Nat)
  | challengeAuth (nonce : List Byte) (signer : List Byte)
  | measurements (blocks : List (Nat × List Byte)) (signer : Option (List Byte)) (nonce : List Byte)
  | vendor (code : Nat) (status : Nat) (payload : List Byte)
  | error (code : Nat)
deriving DecidableEq, Repr

/-- What the stewards hold of the keys (R565, R580): the alias key, which is an Ed448 private key, and the chain of slot 0,
the DevID certificate and then the AK certificate. -/
structure Alias where
  key   : List Byte
  chain : List Byte
deriving DecidableEq, Repr

/-- Identity and attestation (chapter 18): the OTP; `cfg` the generation in force with its number, read at
phase ROM; `image` the bytes of the image that runs; `ak` the alias key and its chain, once derived; `udsOpen` whether the UDS port of the security block is open; `conn` how far each SPDM
transport has come; `tap` the instruction in the TAP. -/
structure Sec where
  otp   : Otp := {}
  cfg   : CfgGen := {}
  cfgNo : Nat := 0
  image : Tab Byte := []
  ak    : Option Alias := none
  udsOpen : Bool := true
  nonce : Option (BitVec 128) := none
  lock  : Option Unlock := none
  conn  : Tab Nat := []
  tap   : TapIr := .idcode
  out   : List (SpdmPort × SpdmRsp) := []
deriving DecidableEq, Repr

/-- A slot of the boot flash (Tables 13-3, 13-4) with the bytes of its image. -/
structure FlashSlot where
  state   : W32 := 0xFFFFFFFF
  tries   : W32 := 0xFFFFFFFF
  erases  : W32 := 0
  version : W32 := 0xFFFFFFFF
  image   : Tab Byte := []
deriving DecidableEq, Repr

/-- Bring-up (chapter 13). `inReset` is the level of PKG_RST_N; `source` the boot source in use, which
falls back to recovery; `image` are the bytes received from it, `whole` that they are complete, `had` how many a host
push has brought without a gap, `got` the blocks of a fabric boot; `rounds` counts repair rounds of the boot, `reRounds` those of a tiller's re-entry; `waves` counts waves of each tiller, `groups` HBM groups done; `blocks` are the
firmware blocks of each loader (tillers 0–7, then panicles), `running` the controllers that have started
theirs; `finds` what the self-tests of this boot have found, `news` the repair entries that they add; `start` when bring-up began; `recovery` is
set during a full package recovery, `hold` in the hold of R505, `held` under COMPAT_H3. -/
structure Boot where
  inReset  : Bool := true
  phase    : BitVec 4 := 1
  fail     : BitVec 3 := 0
  rounds   : BitVec 4 := 0
  reRounds : Tab Nat := []
  fwOut    : BitVec 8 := 0
  fuseWritten : Bool := false
  fuseStricter : Bool := false
  newDead  : Bool := false
  sampled  : Bool := false
  src      : BitVec 2 := 0
  source   : BitVec 2 := 0
  compat   : Bool := false
  slot     : Bool := false
  tentative : Bool := false
  ms       : W32 := 0
  start    : W64 := 0
  slotA    : FlashSlot := {}
  slotB    : FlashSlot := {}
  flashWear : Bool := false
  push     : W32 := 0
  pushReq  : W32 := 0
  window   : Tab Byte := []
  image    : Tab Byte := []
  whole    : Bool := false
  had      : Nat := 0
  got      : List Nat := []
  straw    : Option StrawId := none
  tried    : List StrawId := []
  waves    : Tab Nat := []
  groups   : Nat := 0
  blocks   : Tab (List Nat) := []
  running  : List Nat := []
  finds    : List Finding := []
  news     : List W32 := []
  recovery : Bool := false
  recoveries : List W64 := []
  recCount : BitVec 8 := 0
  hold     : Bool := false
  held     : Bool := false
deriving DecidableEq, Repr

/-- Self-test status (Table 14-7); `base` are the usable spikelets, dead panicles and soft-repaired rows as the
test began. -/
structure Bist where
  running : Bool := false
  domain  : BitVec 8 := 0
  subset  : BitVec 4 := 0
  classFail : BitVec 4 := 0
  count   : BitVec 8 := 0
  result  : W64 := 0
  base    : Nat × Nat × Nat := (0, 0, 0)
deriving DecidableEq, Repr

/-! ### Dumps (R493 to R499) -/

/-- A unit's record in a dump (Table 15-10). -/
structure DumpRec where
  item   : Nat
  status : Nat
  time   : W64
  unit   : Ec
  bytes  : List Byte
deriving DecidableEq, Repr

/-- A unit's last shadow (R496). -/
structure Shadow where
  unit  : Ec
  time  : W64
  bytes : List Byte
deriving DecidableEq, Repr

/-- The gleaner: the trigger of the dump under way, its records; the last dump's length and the summary
at BAR0 0x031_0000. -/
structure Gleaner where
  running : Bool := false
  trigger : BitVec 16 := 0
  start   : W64 := 0
  recs    : List DumpRec := []
  valid   : Bool := false
  length  : Nat := 0
  summary : List Byte := []
  shadows : List Shadow := []
  waiting : List (QueueId × W32) := []
deriving DecidableEq, Repr

/-! ### Power and thermal management (chapter 16) -/

/-- A zone (R527 to R530): sensor readings in 0.125 °C; `lastA` sensor A's last sample, plausible or not, `goodA` since
when a suspect sensor A has read well, `differ` since when the readings differ, `told` that the episode is
logged; `drop` is F_therm below the SKU ceiling in kHz; `past` the control temperatures of the last
100 ms. -/
structure Zone where
  ta     : BitVec 12 := 0
  tb     : BitVec 12 := 0
  lastA  : Option (BitVec 12) := none
  lastB  : Option (BitVec 12) := none
  suspA  : Bool := false
  suspB  : Bool := false
  goodA  : Option W64 := none
  goodB  : Option W64 := none
  differ : Option W64 := none
  told   : Bool := false
  disagree : Bool := false
  drop   : Nat := 0
  tmax   : BitVec 8 := 0
  past   : List (W64 × Int) := []
deriving DecidableEq, Repr

/-- The tray's coolant report (R533). -/
structure Coolant where
  inlet  : BitVec 8 := 0
  outlet : BitVec 8 := 0
  flow   : BitVec 16 := 0
  stale  : Bool := true
deriving DecidableEq, Repr

/-- The power manager (R507 to R526): `drop` is F_cap below the SKU ceiling in kHz; `samples` are those of
the 100 µs under way, `avgs` the last 100 averages, newest first; `unmet` that CAP_UNMET has been logged in
this episode. -/
structure Power where
  host     : BitVec 16 := 0
  sched    : List (BitVec 16) := []
  schedId  : W32 := 0
  t0       : W64 := 0
  entry    : Nat := 0
  orphan   : Bool := false
  degraded : Bool := false
  degradedW : Nat := 0
  emergency : Bool := false
  drop     : Nat := 0
  samples  : List Nat := []
  avgs     : List Nat := []
  pBase    : Option Nat := none
  unmet    : Bool := false
  capUnmet : Bool := false
  grnThrottle : Bool := false
  ftLevel  : BitVec 7 := 50
  ftAsserted : Bool := false
  ftActive : Bool := false
  powerOff : Bool := false
  secs     : List W64 := []
  mins     : List W64 := []
  builtAt  : W64 := 0
  rFit     : Int := 0
  coolant  : Coolant := {}
  zones    : Tab Zone := []
  hot      : BitVec 24 := 0
  stopped  : Bool := false
deriving DecidableEq, Repr

/-! ### Management port (chapter 17) -/

/-- A Camnik message that has been answered: code, instance number, when, the reply (R551). -/
structure Answered where
  code  : Nat
  inst  : BitVec 8
  at_   : W64
  reply : List Byte
deriving DecidableEq, Repr

/-- A multi-part message under way (R552, R561). -/
structure Parts where
  bytes : List Byte
  total : Nat
deriving DecidableEq, Repr

/-- The management port (R539 to R563): pin levels, the heartbeat generator, the MCTP endpoint, the PKG_EVT_N
assignment; `out` are the messages sent, `noticed` the count of log entries up to the last notice, `notices`
the times of those of the last second; `pulses` counts pulls of PKG_EVT_N (R560). -/
structure Mgt where
  pwrOk    : Bool := false
  hostRstN : Bool := false
  evtN     : Bool := true
  sel0     : Bool := false
  sel1     : Bool := false
  compat   : Bool := false
  strapChanged : Bool := false
  evtMode  : BitVec 2 := 0
  refused  : Bool := false
  dbgEvent : BitVec 16 := 0
  dumpAt   : Option W64 := none
  silent   : Bool := false
  last     : W64 := 0
  eid      : Option (BitVec 8) := none
  i3c      : Option (BitVec 7) := none
  answered : List Answered := []
  plan     : Option Parts := none
  image    : Option Parts := none
  heartbeat : Bool := false
  trip     : Bool := false
  out      : List (List Byte) := []
  noticed  : W32 := 0
  notices  : List W64 := []
  pulses   : Nat := 0
deriving DecidableEq, Repr

/-! ### Register access (chapter 19) -/

/-- The latches of the pair rule (R589): by access path and offset of _LO, the high half that a read of _LO
copied and the held write of _HI. -/
structure Latch where
  path : Path
  off  : Nat
  read : W32 := 0
  held : Option W32 := none
deriving DecidableEq, Repr

/-- HUB_BAR0_ERR (Table 19-2) and the latches of the pair rule. -/
structure Access where
  valid : Bool := false
  ovf   : Bool := false
  kind  : BitVec 2 := 0
  write : Bool := false
  off   : BitVec 26 := 0
  latches : List Latch := []
deriving DecidableEq, Repr

end Sys2Proof.Machine
end

