-- ==== Sys2Proof/Machine/MemUnits.lean ====
section
/-! DEFINITION. Plain data of the memories, the granary controllers and the shared arbiter model
(chapter 6): the bytes of the package-local address space, the errors that their codes hold, and the
host memory that the package reads and writes. -/

namespace Sys2Proof.Machine

/-- Who waits at a sync cell (R140, R414): a SYNC_WAIT request that is owed its reply, or a queue's
WAIT. -/
inductive CellWho where
  | packet (p : Packet)
  | queue (q : QueueId) (seq : W32)
deriving DecidableEq, Repr

/-- A wait registered at a sync cell, by its package-local address (R140, R414). -/
structure CellWait where
  addr : Nat
  threshold : W64
  who  : CellWho
deriving DecidableEq, Repr

/-- Memory (R169): `bytes` by package-local physical address; `ecc` by 128-bit word of the banks and
panicle stores (address / 16), `some false` a single-bit error and `some true` an uncorrectable one
(R42, R611); `line` the same for 64-byte granary lines (address / 64, R239); `host` by bus address; `waits` are the waits registered at sync cells. -/
structure Mem where
  bytes : Tab Byte := []
  ecc   : Tab (Option Bool) := []
  line  : Tab (Option Bool) := []
  host  : Tab Byte := []
  waits : List CellWait := []
deriving DecidableEq, Repr

/-- The counter set of a requester (R229). -/
structure ArbCtr where
  grants  : W32 := 0
  wait    : BitVec 48 := 0
  longest : BitVec 24 := 0
deriving DecidableEq, Repr

/-- A turn hint (R228). -/
structure Hint where
  pos : Nat
  est : Nat
deriving DecidableEq, Repr

/-- What a grant is for, so that a stalled one fails its holder's operation (R49, R226): open requests of a
controller, its scrub read or a posted write-back; a bank's lattice operation by its place in the queue, a drain by its
order, a mover's descriptor, an incoming request, a panicle reduction by its tag. -/
inductive Aim where
  | other
  | lines (ids : List Nat)
  | scrub
  | fix (line : BitVec 30)
  | latOp (k : Nat)
  | latDrain (order : Nat)
  | mov (p : Nat) (id : Nat)
  | pkt (q : Packet)
  | red (tag : BitVec 8)
deriving DecidableEq, Repr

/-- The grant that an arbiter has given: requester, bytes of its unit, whether it is never split, and what it is for
(R226, R227). -/
structure Grant where
  who   : Nat
  bytes : Nat
  whole : Bool
  aim   : Aim := .other
deriving DecidableEq, Repr

/-- An arbiter instance (R225 to R231): requests posted besides those that a unit's own queue shows, cycles
waited by requester, where the search starts at each priority, the last 16 grant lengths of the instance and of
each requester, the packets that were granted and are still on their way, the remainders of split grants at the head
of their classes (R227), and the requesters that waited at the last decision (R229). -/
structure Arb where
  reqs   : Tab Nat := []
  waited : Tab Nat := []
  holder : Option Grant := none
  start  : Tab Nat := []
  lens   : List Nat := []
  lensOf : Tab (List Nat) := []
  ctr    : Tab ArbCtr := []
  hint   : Tab (Option Hint) := []
  given  : List Packet := []
  rest   : List Grant := []
  known  : List Nat := []
deriving DecidableEq, Repr

/-- An open request of a granary controller (R221, R222); `passed` how many later demand reads have passed it
(R233). -/
structure GrnOpen where
  id      : Nat
  req     : GrnReq
  granted : Bool := false
  passed  : Nat := 0
deriving DecidableEq, Repr

/-- A reply that a controller has sent: request, the context that it names, status, data (R222, R226, R240). -/
structure GrnReply where
  id     : Nat
  ctx    : BitVec 12
  status : BitVec 8
  data   : List Byte
deriving DecidableEq, Repr

/-- A stack, its controller and its prefetcher (chapter 6, Tables 6-6 to 6-16). `openRow` is the open row of each bank,
one more than its number (R233), `fixes` the corrected lines whose write-back waits (R239), `rowBad` the rows that have
returned an uncorrectable error and `rowCe` the corrected events of rows with their times (R244). -/
structure Stack where
  resetting : Bool := true
  trained   : Bool := false
  lost      : Bool := false
  throttled : Bool := false
  gapOwed   : BitVec 64 := 0
  temp      : BitVec 8 := 0
  tmax      : BitVec 8 := 0
  trefi     : BitVec 8 := 0
  openReqs  : List GrnOpen := []
  credit    : List GrnReq := []
  nextId    : Nat := 0
  replies   : List GrnReply := []
  peak      : BitVec 11 := 0
  ecCe      : W32 := 0
  ueValid   : Bool := false
  ueOvf     : Bool := false
  ueAddrErr : Bool := false
  ueClass   : BitVec 3 := 0
  ueCtx     : BitVec 12 := 0
  ueCount   : BitVec 12 := 0
  ueAddr    : BitVec 36 := 0
  scrubEn   : Bool := true
  scrubPer  : BitVec 8 := 12
  scrubPos  : BitVec 30 := 0
  soft      : List Nat := []
  hardUsed  : Tab Nat := []
  errValid  : Bool := false
  errOvf    : Bool := false
  errKind   : BitVec 2 := 0
  errPc     : BitVec 6 := 0
  errCtx    : BitVec 12 := 0
  prio      : BitVec 12 := 0x426
  sel       : BitVec 6 := 0
  elevated  : BitVec 64 := 0
  lvl       : Tab W32 := []
  hints     : Tab W32 := []
  refresh   : Tab Nat := []
  paused    : BitVec 64 := 0
  pfEn      : Bool := true
  backoff   : BitVec 16 := 2000
  pfBuf     : List (BitVec 30) := []
  streams   : List (TillerId × BitVec 29 × Nat) := []
  pfHit     : W32 := 0
  pfDrop    : W32 := 0
  openRow   : Tab Nat := []
  fixes     : List (BitVec 30) := []
  rowBad    : List Nat := []
  rowCe     : List (Nat × W64) := []
deriving DecidableEq, Repr

/-- The granary controllers, and every arbiter instance by its key. -/
structure Granary where
  ctrls : Tab Stack := []
  arbs   : Tab Arb := []
deriving DecidableEq, Repr

end Sys2Proof.Machine
end

