-- ==== Sys2Proof/Machine/RedUnits.lean ====
section
/-! DEFINITION. Plain data of in-fabric reduction and of bundles (chapters 10 and 11). -/

namespace Sys2Proof.Machine

/-! ### Reduction -/

/-- States of a key at a node (Table 10-5). SEND_DOWN and IDLE do not appear: the copies of a down
packet are sent within the step that decides them, and an idle key is not listed. -/
inductive KeySt where
  | gather | awaitDown
deriving DecidableEq, Repr

/-- A key at a node: payloads stored by child index. -/
structure NodeKey where
  key   : RedKey
  st    : KeySt := .gather
  parts : Tab (Option (List Byte)) := []
deriving DecidableEq, Repr

/-- A node entry: the 12 words of Table 10-2 and its keys. -/
structure RedNode where
  words : List W32
  keys  : List NodeKey := []
deriving DecidableEq, Repr

/-- A combiner (R345, R359, Table 10-9). -/
structure Combiner where
  nodes    : List RedNode := []
  closed   : List RedKey := []
  combined : W32 := 0
  aborts   : W32 := 0
  discard  : W32 := 0
deriving DecidableEq, Repr

/-- A chunk post of a member, with the step index of the posting step (R350, R351). -/
structure RedPost where
  poster  : FloretId
  pc      : BitVec 20
  tree    : BitVec 8
  step    : W32
  chunk   : BitVec 13
  roff    : Nat
  h       : Nat
  masked  : Bool
  payload : List Byte
deriving DecidableEq, Repr

/-- TAG of a post's chunk: its step index modulo 256 (Table 10-4). -/
def RedPost.tag (q : RedPost) : BitVec 8 := q.step.setWidth 8

/-- A chunk that a leaf has sent (R360). -/
structure LeafChunk where
  key  : RedKey
  roff : Nat
deriving DecidableEq, Repr

/-- A leaf entry: the 5 words of Table 10-3, chunks awaiting their outcome and the last chunk posted
in a step (R352). -/
structure RedLeaf where
  words : List W32
  out   : List LeafChunk := []
  last  : Option (W32 × BitVec 13) := none
deriving DecidableEq, Repr

/-- The reduction side of a panicle mover (R345, R351, Table 10-12). `posts` await acceptance,
`heldPosts` are accepted and await room in the window. -/
structure LeafUnit where
  leaves    : List RedLeaf := []
  posts     : List RedPost := []
  heldPosts : List RedPost := []
  failValid : Bool := false
  failOvf   : Bool := false
  failStatus : BitVec 8 := 0
  failTree  : BitVec 8 := 0
  failChunk : BitVec 13 := 0
  origin    : Ec := 0
  done      : W32 := 0
  fails     : W32 := 0
deriving DecidableEq, Repr

/-- A slice's parts of a straw port's slots (R361). -/
structure SlicePart where
  slice : BitVec 16
  red   : Nat
  bnd   : Nat
deriving DecidableEq, Repr

/-- A PREPARE packet held in a staging slot (R380). -/
structure Staged where
  slice : BitVec 16
  pkt   : Packet
deriving DecidableEq, Repr

/-- The slots of a straw port (R361, R380, Tables 10-11, 11-9). -/
structure StrawSlots where
  parts    : List SlicePart := []
  staged   : List Staged := []
  stagedCt : W32 := 0
  fullCt   : W32 := 0
deriving DecidableEq, Repr

/-- Reduction state of the package; combiners by router panicle, then 1536 + straw. `saved` are the
steward's copies of node entries and leaf entries (R364). -/
structure Red where
  combiners : Tab Combiner := []
  leaves    : Tab LeafUnit := []
  slots     : Tab StrawSlots := []
  sel       : Tab (BitVec 8) := []
  released  : List (BitVec 8 × W64) := []
  savedNodes : Tab (List (List W32)) := []
  savedLeaves : Tab (List (List W32)) := []
deriving DecidableEq, Repr

/-! ### Bundles -/

/-- An action record (Table 11-4): `addend` is none for a write. -/
structure ActRec where
  addr   : Nat
  addend : Option W64
  bytes  : List Byte
deriving DecidableEq, Repr

/-- States of a home or agent record (Table 11-7). -/
inductive RecSt where
  | locking | prepared | committed
deriving DecidableEq, Repr

/-- A controller that an agent has sent LOCK to: its vote and generation (R375). -/
structure AgentStack where
  stack   : StackId
  hgen    : BitVec 8 := 0
  voted   : Bool := false
  applied : Bool := false
deriving DecidableEq, Repr

/-- A record of a bundle at a home or agent (R371, R372): `lines` with whether each is locked,
`image` what they will hold, `waiters` ordinary requests that wait (R386), `late` that its vote is 500 µs
back, `torn` that a controller of an agent has lost its part. -/
structure HomeRec where
  id      : BndId
  tidx    : Nat := 0
  ctx     : BitVec 12
  gen     : BitVec 8
  slice   : BitVec 16
  coord   : Ec
  req     : Packet
  agent   : Bool := false
  st      : RecSt := .locking
  hgen    : BitVec 8 := 0
  actions : List ActRec := []
  xlated  : List ActRec := []
  lines   : List (Nat × Bool) := []
  image   : List (Nat × List Byte) := []
  ctrls  : List AgentStack := []
  wounded : List BndId := []
  waiters : List Packet := []
  late    : Bool := false
  torn    : Bool := false
deriving DecidableEq, Repr

/-- What a coordinator knows of one target (R369, R376, R377). -/
structure BndTarget where
  dst      : Ec
  parts    : List (List Byte)
  voted    : Bool := false
  hgen     : BitVec 8 := 0
  applied  : Bool := false
  released : Bool := false
  torn     : Bool := false
deriving DecidableEq, Repr

/-- A bundle at its coordinator: from `bnd.commit` to the decision, then in the decision log
(R377, R378). `owed` is the slot and register that `bnd.commit` still completes. -/
structure CoordRec where
  id      : BndId
  floret  : FloretId
  ctx     : BitVec 12
  gen     : BitVec 8
  targets : List BndTarget
  sent    : Bool := false
  committed : Bool := false
  owed    : Option (Nat × BitVec 5) := none
deriving DecidableEq, Repr

/-- The bundle registers of a panicle (Tables 11-10 to 11-12), its coordinator and its records as
home and agent. -/
structure PanBnd where
  coord    : List CoordRec := []
  homes    : List HomeRec := []
  agents   : List HomeRec := []
  commits  : W32 := 0
  aborts   : W32 := 0
  wounds   : W32 := 0
  readWait : W32 := 0
  evtValid : Bool := false
  evtOvf   : Bool := false
  evtKind  : BitVec 2 := 0
  evtCtx   : BitVec 12 := 0
  evtSpk   : BitVec 6 := 0
  evtFloret : BitVec 4 := 0
  evtSeq   : BitVec 24 := 0
deriving DecidableEq, Repr

/-- The bundle records of a granary controller (Table 11-13). -/
structure StackBnd where
  homes    : List HomeRec := []
  wounds   : W32 := 0
  readWait : W32 := 0
  peak     : BitVec 13 := 0
deriving DecidableEq, Repr

/-- Bundle state of the package. -/
structure Bnd where
  pans   : Tab PanBnd := []
  ctrls : Tab StackBnd := []
deriving DecidableEq, Repr

end Sys2Proof.Machine
end

