-- ==== Sys2Proof/Machine/State.lean ====
section
/-! DEFINITION. The state of the package, the reasons a command can stop, and the state after reset. -/

namespace Sys2Proof.Machine

/-- The package. Every unit that a table does not list holds its reset value. `pending` is the queue
of commands, first in, first out; `refcnt` the reference counter (R26); `freeIx` the model's own
counter of open values drawn so far (assumption 1). -/
structure State where
  pending : List Instr := []
  refcnt  : W64 := 0
  freeIx  : Nat := 0
  cores   : Cores := {}
  mem     : Mem := {}
  grn     : Granary := {}
  fab     : Fabric := {}
  red     : Red := {}
  bnd     : Bnd := {}
  host    : HostIf := {}
  floor   : Floor := {}
  flt     : Flt := {}
  det     : Detector := {}
  sec     : Sec := {}
  boot    : Boot := {}
  bist    : Bist := {}
  glean   : Gleaner := {}
  pwr     : Power := {}
  mgt     : Mgt := {}
  acc     : Access := {}
deriving DecidableEq, Repr

/-- Why a command stops the machine: no command of this block does. What goes wrong inside it is state (fault records,
the fault log, statuses). -/
inductive Fault
deriving DecidableEq, Repr

/-- Why a command has no meaning. -/
inductive Refusal where
  /-- Raised by the dispatch for a command without a meaning. Safe: nothing is claimed of it. -/
  | notModelled (mnemonic : String)
  /-- Raised by a TAP instruction whose effect the spec does not describe (R548). Safe: nothing is
  claimed of it. -/
  | tapInstruction
deriving DecidableEq, Repr

/-- The package right after reset, before PKG_RST_N is released. -/
def State.reset : State := { fab := { sheaves := defaultSheaves } }

end Sys2Proof.Machine
end

