-- ==== Sys2Proof/Machine/Ops.lean ====
section
/-! DEFINITION. Named operations that the meanings share: units, memory with its codes, the fault
log and open values. -/

namespace Sys2Proof.Machine

/-- The outcome of every command. -/
abbrev Out := Host.Outcome State Fault Refusal

/-! ### Units -/

/-- The floret with index `f`. -/
def State.floret (s : State) (f : Nat) : Floret := Tab.get {} s.cores.florets f

/-- Write a floret. -/
def State.setFloret (s : State) (f : Nat) (v : Floret) : State :=
  { s with cores := { s.cores with florets := Tab.set {} s.cores.florets f v } }

/-- The spikelet with index `i`. -/
def State.spk (s : State) (i : Nat) : Spikelet := Tab.get {} s.cores.spikelets i

/-- Write a spikelet. -/
def State.setSpk (s : State) (i : Nat) (v : Spikelet) : State :=
  { s with cores := { s.cores with spikelets := Tab.set {} s.cores.spikelets i v } }

/-- The panicle with index `p`. -/
def State.pan (s : State) (p : Nat) : Panicle := Tab.get {} s.cores.panicles p

/-- Write a panicle. -/
def State.setPan (s : State) (p : Nat) (v : Panicle) : State :=
  { s with cores := { s.cores with panicles := Tab.set {} s.cores.panicles p v } }

/-- The stream sequencer of tiller `t`. -/
def State.seqr (s : State) (t : Nat) : Sequencer := Tab.get {} s.cores.seqs t

/-- Write a stream sequencer. -/
def State.setSeqr (s : State) (t : Nat) (v : Sequencer) : State :=
  { s with cores := { s.cores with seqs := Tab.set {} s.cores.seqs t v } }

/-- The context table entry `c` (R417). -/
def State.ctx (s : State) (c : Nat) : Ctx := Tab.get {} s.host.ctxs c

/-- Write a context table entry. -/
def State.setCtx (s : State) (c : Nat) (v : Ctx) : State :=
  { s with host := { s.host with ctxs := Tab.set {} s.host.ctxs c v } }

/-- The spikelet of a floret index. -/
def spkOfFloret (f : Nat) : Nat := f / 16

/-- The floret's number in its spikelet. -/
def floretNo (f : Nat) : Fin 16 := Fin.ofNat 16 f

/-- The panicle of a spikelet index (Table 13-6). -/
def panOfSpk (i : Nat) : Nat := i / 64

/-- The tiller of a panicle index. -/
def tillerOfPan (p : Nat) : Nat := p / 192

/-- The tiller of a spikelet index. -/
def tillerOfSpk (i : Nat) : Nat := i / 12288

/-- An endpoint coordinate of this or another package (R310). -/
def ecOf (coord : BitVec 24) (t p sp fn : Nat) : Ec :=
  BitVec.ofNat 48 (coord.toNat * 2 ^ 24 + t * 2 ^ 21 + p * 2 ^ 13 + sp * 2 ^ 7 + fn)

/-- The EC of function `fn` of spikelet `i` (Table 9-2). -/
def State.spkEc (s : State) (i fn : Nat) : Ec :=
  ecOf s.fab.coord (tillerOfSpk i) (panOfSpk i % 192) (i % 64) fn

/-- The EC of function `fn` of panicle `p` (Table 9-2). -/
def State.panEc (s : State) (p fn : Nat) : Ec := ecOf s.fab.coord (tillerOfPan p) (p % 192) 0 fn

/-- The EC of a floret (R120). -/
def State.floretEc (s : State) (f : Nat) : Ec := s.spkEc (spkOfFloret f) (f % 16)

/-- Context and generation of a spikelet; an unbound spikelet shows context 0 (R32). -/
def Spikelet.owner (sp : Spikelet) : BitVec 12 × BitVec 8 := sp.bound.getD (0, 0)

/-! ### Time -/

/-- One tick of the 1 GHz reference (R26, assumption 4). -/
def State.tick (s : State) : State := { s with refcnt := s.refcnt + 1 }

/-! ### Open values -/

/-- A value that the spec does not state, and the state that has drawn it (assumption 1). -/
def State.draw (s : State) : W64 × State :=
  (Config.openValue s.freeIx, { s with freeIx := s.freeIx + 1 })

/-- `n` open bytes, drawn eight at a time (assumption 1). -/
def State.drawBytes (s : State) (n : Nat) : List Byte × State :=
  ((List.range n).map (fun i => (Config.openValue (s.freeIx + i / 8)).extractLsb' (8 * (i % 8)) 8),
   { s with freeIx := s.freeIx + (n + 7) / 8 })

/-! ### Memory -/

/-- Base address of a spikelet's bank (R39). -/
def bankBase (i : Nat) : Nat :=
  0x80000000000 + tillerOfSpk i * 2 ^ 30 + (panOfSpk i % 192) * 2 ^ 22 + (i % 64) * 2 ^ 16

/-- Base address of a panicle's store (Table 5-1). -/
def storeBase (p : Nat) : Nat := 0x90000000000 + tillerOfPan p * 2 ^ 27 + (p % 192) * 2 ^ 19

/-- `n` bytes of memory from package-local physical address `a`. -/
def State.read (s : State) (a n : Nat) : List Byte := Tab.getMany 0 s.mem.bytes a n

/-- Write bytes from package-local physical address `a`. -/
def State.write (s : State) (a : Nat) (bs : List Byte) : State :=
  { s with mem := { s.mem with bytes := Tab.setMany 0 s.mem.bytes a bs } }

/-- Where a bus address of a function stands in the model's host memory: an access carries its function's requester ID,
under which the host translates the address (R396). -/
def hostKey (fn a : Nat) : Nat := fn * 2 ^ 64 + a

/-- `n` bytes of host memory at a bus address of a function. -/
def State.hostRead (s : State) (fn a n : Nat) : List Byte := Tab.getMany 0 s.mem.host (hostKey fn a) n

/-- Write host memory at a bus address of a function. -/
def State.hostWrite (s : State) (fn a : Nat) (bs : List Byte) : State :=
  { s with mem := { s.mem with host := Tab.setMany 0 s.mem.host (hostKey fn a) bs } }

/-- The error mark of a 128-bit word of a bank or store. -/
def State.eccAt (s : State) (w : Nat) : Option Bool := Tab.get none s.mem.ecc w

/-- Mark or clear the error of a 128-bit word. -/
def State.setEcc (s : State) (w : Nat) (m : Option Bool) : State :=
  { s with mem := { s.mem with ecc := Tab.set none s.mem.ecc w m } }

/-- Marks for the errors that an event reports, in words counted from address `a`. -/
def State.plant (s : State) (a : Nat) (hits : List EccHit) : State :=
  hits.foldl (fun s h => s.setEcc (a / 16 + h.word) (some h.ue)) s

/-- Bank rows that `n` bytes from `off` touch. -/
def rowsOf (off n : Nat) : List Nat :=
  if n = 0 then [] else (List.range ((off + n - 1) / 128 + 1 - off / 128)).map (· + off / 128)

/-- Whether a write of `n` bytes at `off` covers only part of some 128-bit word (R40). -/
def partialWord (off n : Nat) : Bool := decide (off % 16 ≠ 0) || decide ((off + n) % 16 ≠ 0)

/-- One byte of a bank; a row with its zero flag set reads as zeros (R54). -/
def State.bankByte (s : State) (i off : Nat) : Byte :=
  if (s.spk i).zero.getLsbD (off / 128) then 0 else Tab.get 0 s.mem.bytes (bankBase i + off)

/-- `n` bytes of a bank. -/
def State.bankRead (s : State) (i off n : Nat) : List Byte :=
  (List.range n).map (fun k => s.bankByte i (off + k))

/-- The zero flag of a row made plain zeros, with valid check bits, before a write of the row (R54). -/
def State.unzero (s : State) (i row : Nat) : State :=
  if (s.spk i).zero.getLsbD row then
    (List.range 8).foldl (fun s w => s.setEcc ((bankBase i + row * 128) / 16 + w) none)
      ((s.write (bankBase i + row * 128) (List.replicate 128 0)).setSpk i
        { s.spk i with zero := putBit (s.spk i).zero row false })
  else s

/-- 128-bit words, counted from address 0, that a write of `n` bytes at `a` covers whole. -/
def wholeWords (a n : Nat) : List Nat :=
  let lo := (a + 15) / 16
  let hi := (a + n) / 16
  (List.range (hi - lo)).map (· + lo)

/-- Write bytes of a bank: zero flags of the rows clear, whole words get new check bits (R40, R54). -/
def State.bankWrite (s : State) (i off : Nat) (bs : List Byte) : State :=
  let s := (rowsOf off bs.length).foldl (fun s r => s.unzero i r) s
  let s := s.write (bankBase i + off) bs
  (wholeWords (bankBase i + off) bs.length).foldl (fun s w => s.setEcc w none) s

/-- Error marks of the eight words of a bank row; a row with its zero flag set has valid check bits (R54). -/
def State.rowMarks (s : State) (i row : Nat) : List (Option Bool) :=
  if (s.spk i).zero.getLsbD row then List.replicate 8 none
  else (List.range 8).map (fun w => s.eccAt ((bankBase i + row * 128) / 16 + w))

/-- The check on one row read (R42): corrected words are counted and a write-back of the row is
due; an uncorrectable word is recorded. The answer says whether the read fails. -/
def State.checkRow (s : State) (i row : Nat) : State × Bool :=
  let ms := s.rowMarks i row
  let ce := ms.countP (· == some false)
  let ue := ms.any (· == some true)
  let sp := s.spk i
  let sp := if ce = 0 then sp else
    { sp with
      eccCe := satAdd sp.eccCe ce
      fixRows := if sp.fixRows.contains (Fin.ofNat 512 row) then sp.fixRows
        else sp.fixRows ++ [Fin.ofNat 512 row] }
  let sp := if ue then
    { sp with ueValid := true, ueRow := BitVec.ofNat 9 row, ueCount := satAdd sp.ueCount 1 } else sp
  (s.setSpk i sp, ue)

/-- The check on the rows that `n` bytes at `off` touch. -/
def State.checkRows (s : State) (i off n : Nat) : State × Bool :=
  (rowsOf off n).foldl (fun p r => let q := p.1.checkRow i r; (q.1, p.2 || q.2)) (s, false)

/-- Whether some row that `n` bytes at `off` touch is a shadow row (R52). -/
def State.shadowHit (s : State) (i off n : Nat) : Bool :=
  (rowsOf off n).any (fun r => (s.spk i).shadow.getLsbD r)

/-- Store words, counted from the store's start, that `n` bytes at `off` touch. -/
def wordsOf (off n : Nat) : List Nat :=
  if n = 0 then [] else (List.range ((off + n - 1) / 16 + 1 - off / 16)).map (· + off / 16)

/-- The check on a panicle-store read (R611): words corrected await their write-back; the answer
says whether a covered word is uncorrectable. -/
def State.checkStore (s : State) (p off n : Nat) : State × Bool :=
  let ws := wordsOf off n
  let ce := ws.filter (fun w => s.eccAt (storeBase p / 16 + w) == some false)
  let pn := s.pan p
  let fix := ce.foldl (fun l w => if l.contains (Fin.ofNat 32768 w) then l
    else l ++ [Fin.ofNat 32768 w]) pn.fixWords
  (if ce.isEmpty then s else s.setPan p { pn with fixWords := fix },
    ws.any (fun w => s.eccAt (storeBase p / 16 + w) == some true))

/-- Store words that a write of `n` bytes at `off` covers only in part (R611). -/
def partWords (off n : Nat) : List Nat :=
  (wordsOf off n).filter (fun w => decide (w * 16 < off) || decide (off + n < w * 16 + 16))

/-- Write a panicle store (R611): a word that it covers in part is read first, with the check of every read; the
write fails, writing nothing, where such a word is uncorrectable. Every word that it covers gets new check bits. -/
def State.storeWrite (s : State) (p off : Nat) (bs : List Byte) : State × Bool :=
  let r := (partWords off bs.length).foldl (fun (q : State × Bool) w =>
    let t := q.1.checkStore p (w * 16) 16; (t.1, q.2 || t.2)) (s, false)
  if r.2 then r
  else
    let s := r.1.write (storeBase p + off) bs
    ((wordsOf off bs.length).foldl (fun s w => s.setEcc (storeBase p / 16 + w) none) s, false)

/-- `n` bytes of a panicle store. -/
def State.storeRead (s : State) (p off n : Nat) : List Byte := s.read (storeBase p + off) n

/-! ### The fault log -/

/-- An event is logged (R474 to R476); in DEBUG_TRIGGER the chosen code pulses PKG_EVT_N (R560). -/
def State.log (s : State) (code : Nat) (cls : Nat) (ctx : Option (BitVec 12)) (src aux : Ec)
    (detail : Nat) : State :=
  let i := s.flt.count.toNat % 1024
  let lost := match Tab.get none s.flt.log i with
    | some e => !e.read
    | none => false
  let e : LogEntry :=
    { time := s.refcnt, code := BitVec.ofNat 16 code, lost := lost, cls := BitVec.ofNat 3 cls,
      ctx := ctx, src := src, aux := aux, detail := BitVec.ofNat 48 detail }
  let pulse := decide (s.mgt.evtMode = 2) && decide (s.mgt.dbgEvent.toNat = code)
  { s with
    flt := { s.flt with
      log := Tab.set none s.flt.log i (some e)
      count := s.flt.count + 1
      corr := s.flt.corr || decide (cls = 1) || decide (cls = 3)
      fatal := s.flt.fatal || decide (cls = 4) }
    mgt := if pulse then { s.mgt with pulses := s.mgt.pulses + 1 } else s.mgt }

/-- The EC of steward `w` (Table 9-2). -/
def State.stewardEc (s : State) (w : Nat) : Ec := ecOf s.fab.coord 0 0 w 0x7F

/-- The EC of granary controller `n` (R15). -/
def State.stackEc (s : State) (n : Nat) : Ec := ecOf s.fab.coord (n / 3) 0 0 (0x50 + n % 3)

/-- The EC of a stream sequencer. -/
def State.seqEc (s : State) (t : Nat) : Ec := ecOf s.fab.coord t 0 0 0x60

/-- The EC of a transport endpoint (R331): panicle movers, granary controllers, stream sequencers, the
hub. -/
def State.epEc (s : State) (ep : Nat) : Ec :=
  if ep < 1536 then s.panEc ep 0x41
  else if ep < 1560 then s.stackEc (ep - 1536)
  else if ep < 1568 then s.seqEc (ep - 1560)
  else s.stewardEc 0

/-! ### Wait-for edges and domains -/

/-- An edge sent to the wait-cycle detector (R33, R487). -/
def State.postEdge (s : State) (e : Edge) : State :=
  { s with det := { s.det with posts := s.det.posts ++ [e] } }

/-- A queue or step of this package stops counting as waiting: the holds on cycles through it end (R489). In a cycle each
vertex is the source of an edge. A cell always counts as waiting. -/
def Detector.stir (d : Detector) (v : Vertex) : Detector :=
  match v with
  | .cell _ _ _ => d
  | .queue _ _ | .step _ _ _ => { d with holds := d.holds.filter (fun h =>
      !d.edges.any (fun x => h.cycle.contains x.1 && decide (x.2.src = v))) }

/-- A vertex of this package stops counting as waiting (R489). -/
def State.stir (s : State) (v : Vertex) : State := { s with det := s.det.stir v }

/-- The removal of an edge sent to the wait-cycle detector. What waited and goes on no longer counts as waiting (R488). -/
def State.dropEdge (s : State) (e : Edge) : State :=
  { s with det := ({ s.det with removals := s.det.removals ++ [e] } : Detector).stir e.src }

/-- The cell that a global address of a context names (Tables 4-7, 5-2 and 15-8): a virtual address means
what it means to its context. -/
def State.cellAt (s : State) (c : BitVec 12) (a : W64) : Vertex :=
  let pkg : BitVec 24 := if a.getLsbD 63 then
      BitVec.ofNat 24 (fld a 61 50 * 4096 + fld a 49 48 * 256 + fld a 47 46 * 16 + fld a 45 44)
    else s.fab.coord
  .cell pkg (if a.getLsbD 43 then 0 else Fin.ofNat 4096 c.toNat) (a.extractLsb' 0 44)

/-- The vertex of the step that a spikelet's florets belong to (R487). -/
def State.stepVertex (s : State) (i : Nat) : Vertex :=
  .step s.fab.coord (Fin.ofNat 8 (tillerOfSpk i)) (Fin.ofNat 4096 (s.spk i).owner.1.toNat)

/-- The edge of a floret that waits on a cell (Table 15-8). -/
def State.stepEdge (s : State) (i : Nat) (cell : Vertex) : Edge :=
  { src := s.stepVertex i, dst := cell, owner := Fin.ofNat 4096 (s.spk i).owner.1.toNat }

/-- The edge of a floret's sync wait is removed. -/
def State.dropWait (s : State) (i : Nat) (cell : Vertex) : State := s.dropEdge (s.stepEdge i cell)

/-- A reset domain, by its index (R506). -/
def State.dom (s : State) (d : Nat) : Dom := Tab.get {} s.flt.doms d

/-- Write a reset domain. -/
def State.setDom (s : State) (d : Nat) (v : Dom) : State :=
  { s with flt := { s.flt with doms := Tab.set {} s.flt.doms d v } }

/-- Whether a domain answers DOMAIN_RESETTING (R481). -/
def State.domResetting (s : State) (d : Nat) : Bool :=
  decide ((s.dom d).st = .reset) || decide ((s.dom d).st = .reentry)

/-! ### Faults of florets (R165 to R167) -/

/-- Fault kinds of PNC_FREC_INFO (Table 4-16). -/
inductive FKind where
  | sync | remote | lattice | mover
deriving DecidableEq, Repr

/-- KIND of Table 4-16. -/
def FKind.bits : FKind → BitVec 2
  | .sync => 0 | .remote => 1 | .lattice => 2 | .mover => 3

/-- Spill entries of one floret dropped without write-back (R196). -/
def dropSpill (f : Fin 16) (l : List SpillEntry) : List SpillEntry :=
  l.filter (fun e => e.floret ≠ f)

/-- The fault is recorded in the spikelet's record, or sets OVF; a recorded fault is logged as
SPIKELET_FAULT (R167, R477). -/
def State.record (s : State) (i : Nat) (f : Fin 16) (k : FKind) (code : Nat) (pc : BitVec 20)
    (detail : W64) : State :=
  let sp := s.spk i
  if sp.frec.valid then s.setSpk i { sp with frec := { sp.frec with ovf := true } }
  else
    let s := s.setSpk i { sp with frec :=
      { valid := true, ovf := false, floret := BitVec.ofNat 4 f.val, kind := k.bits,
        ctx := sp.owner.1, code := BitVec.ofNat 8 code, pc := pc.setWidth 19, detail := detail } }
    s.log 0x0401 2 (some sp.owner.1) (s.spkEc i f.val) 0
      (code * 2 ^ 40 + f.val * 2 ^ 36 + (pc.setWidth 19).toNat)

/-- A fault of floret `f` of spikelet `i`: recorded, and the floret stops unless it is IDLE (R33,
R167). -/
def State.raise (s : State) (i : Nat) (f : Fin 16) (k : FKind) (code : Nat) (pc : BitVec 20)
    (detail : W64) : State :=
  let s := s.record i f k code pc detail
  let x := i * 16 + f.val
  let fl := s.floret x
  if fl.status = .idle then s
  else
    let s := match fl.status with
      | .waiting (.sync _ cell) => s.dropWait i cell
      | _ => s
    let s := s.setFloret x { fl with status := .faulted, miss := none }
    let sp := s.spk i
    s.setSpk i { sp with spill := dropSpill f sp.spill }

/-- The fault of an operation of floret `f`'s run `run`: recorded in any case, but a floret that has halted since,
or runs anew, changes no state (R167). -/
def State.raiseRun (s : State) (i : Nat) (f : Fin 16) (run : Nat) (k : FKind) (code : Nat) (pc : BitVec 20)
    (detail : W64) : State :=
  if (s.floret (i * 16 + f.val)).run = run then s.raise i f k code pc detail else s.record i f k code pc detail

/-- A fault whose detail the spec does not state: an open value (R168, assumption 2). -/
def State.raiseOpen (s : State) (i : Nat) (f : Fin 16) (k : FKind) (code : Nat) (pc : BitVec 20) :
    State :=
  let (v, s) := s.draw
  s.raise i f k code pc v

/-- The floret fault of a reply status (Tables 9-9 and 4-15); 0 for a status with none. -/
def statusFault (st : Nat) : Nat :=
  match st with
  | 1 => 0x21 | 2 => 0x23 | 3 => 0x24 | 4 => 0x25 | 5 => 0x26 | 6 => 0x27 | 7 => 0x20
  | _ => 0

/-! ### Records of bundles (R371, R372, R386) -/

/-- The bundle side of panicle `p`. -/
def State.panBnd (s : State) (p : Nat) : PanBnd := Tab.get {} s.bnd.pans p

/-- Write the bundle side of a panicle. -/
def State.setPanBnd (s : State) (p : Nat) (v : PanBnd) : State :=
  { s with bnd := { s.bnd with pans := Tab.set {} s.bnd.pans p v } }

/-- The bundle records of granary controller `n`. -/
def State.stackBnd (s : State) (n : Nat) : StackBnd := Tab.get {} s.bnd.ctrls n

/-- Write the bundle records of a granary controller. -/
def State.setStackBnd (s : State) (n : Nat) (v : StackBnd) : State :=
  { s with bnd := { s.bnd with ctrls := Tab.set {} s.bnd.ctrls n v } }

/-- Lines, as address / 64, that `n` bytes from address `a` touch. -/
def linesOf (a n : Nat) : List Nat :=
  if n = 0 then [] else (List.range ((a + n - 1) / 64 + 1 - a / 64)).map (· + a / 64)

/-- Whether a record holds one of some lines in state PREPARED (R386). -/
def HomeRec.holds (r : HomeRec) (ls : List Nat) : Bool :=
  decide (r.st = .prepared) && r.lines.any (fun l => ls.contains l.1)

/-- Whether a prepared bundle holds a panicle-store line that `n` bytes at offset `off` touch. -/
def State.storeHeld (s : State) (p off n : Nat) : Bool :=
  (s.panBnd p).homes.any (fun r => r.holds (linesOf (storeBase p + off) n))

/-- Whether a prepared bundle holds the line of address / 64 at a controller (R386). -/
def State.lineHeld (s : State) (n line : Nat) : Bool :=
  (s.stackBnd n).homes.any (fun r => r.holds [line])

/-! ### Remote-operation slots (R79) -/

/-- Slot `i` of a spikelet. -/
def Spikelet.slot (sp : Spikelet) (i : Nat) : Option Slot := Tab.get none sp.slots i

/-- Slots in use. -/
def Spikelet.out (sp : Spikelet) : Nat := sp.slots.length

/-- Slots in use by one floret. -/
def Spikelet.outOf (sp : Spikelet) (f : Fin 16) : Nat :=
  sp.slots.countP (fun e => match e.2 with
    | some x => decide (x.floret = f)
    | none => false)

/-- The lowest free slot. -/
def Spikelet.freeSlot (sp : Spikelet) : Option Nat :=
  (List.range 64).find? (fun i => (sp.slot i).isNone)

/-- Whether floret `f` may take one more slot (R79). -/
def Spikelet.mayTake (sp : Spikelet) (f : Fin 16) : Bool :=
  decide (sp.out < 64) && decide (sp.outOf f < 4)

/-- A slot is taken; operations of a spikelet are numbered in issue order. -/
def State.putSlot (s : State) (i n : Nat) (x : Slot) : State :=
  let sp := s.spk i
  s.setSpk i { sp with
    slots := Tab.set none sp.slots n (some { x with order := sp.order })
    order := sp.order + 1 }

/-- A slot in use is rewritten. -/
def State.setSlot (s : State) (i n : Nat) (x : Slot) : State :=
  let sp := s.spk i
  s.setSpk i { sp with slots := Tab.set none sp.slots n (some x) }

/-- A slot is freed; its use parity flips (R335). -/
def State.freeSlotAt (s : State) (i n : Nat) : State :=
  let sp := s.spk i
  s.setSpk i { sp with
    slots := Tab.set none sp.slots n none
    parity := putBit sp.parity n (!sp.parity.getLsbD n) }

end Sys2Proof.Machine
end

