-- ==== Sys2Proof/Machine/Arbiter.lean ====
section
/-! DEFINITION. The shared arbiter model and its instances (R45, R46, R225 to R237, R257 to R260,
R297). -/

namespace Sys2Proof.Machine

/-- The key of an arbiter instance. -/
def arbKey : ArbId → Nat
  | .bank i => i.val
  | .hbm n pc => 98304 + n.val * 64 + pc.val
  | .inject p => 99840 + p.val
  | .sheaf s => 101376 + s.val

/-- An arbiter instance. -/
def State.arb (s : State) (a : ArbId) : Arb := Tab.get {} s.grn.arbs (arbKey a)

/-- Write an arbiter instance. -/
def State.setArb (s : State) (a : ArbId) (v : Arb) : State :=
  { s with grn := { s.grn with arbs := Tab.set {} s.grn.arbs (arbKey a) v } }

/-- A stack and its controller. -/
def State.stack (s : State) (n : Nat) : Stack := Tab.get {} s.grn.ctrls n

/-- Write a stack. -/
def State.setStack (s : State) (n : Nat) (v : Stack) : State :=
  { s with grn := { s.grn with ctrls := Tab.set {} s.grn.ctrls n v } }

/-- Arbiter registers of a panicle. -/
def State.panArb (s : State) (p : Nat) : PanArb := Tab.get {} s.fab.panArbs p

/-- Write the arbiter registers of a panicle. -/
def State.setPanArb (s : State) (p : Nat) (v : PanArb) : State :=
  { s with fab := { s.fab with panArbs := Tab.set {} s.fab.panArbs p v } }

/-- A straw port. -/
def State.straw (s : State) (i : Nat) : Straw := Tab.get {} s.fab.straws i

/-- Write a straw port. -/
def State.setStraw (s : State) (i : Nat) (v : Straw) : State :=
  { s with fab := { s.fab with straws := Tab.set {} s.fab.straws i v } }

/-- Number of ordinary requesters (Tables 2-4, 6-3, 7-3, 8-4). -/
def arbSize : ArbId → Nat
  | .bank _ => 3
  | .hbm _ _ => 6
  | .inject _ => 4
  | .sheaf _ => 8

/-- The emergency requester's index, where the instance has one (Table 6-2). -/
def arbEmergency : ArbId → Option Nat
  | .bank _ => some 3
  | .hbm _ _ => some 6
  | _ => none

/-- The priority of a requester (R46, Tables 2-7, 6-13, 7-8, 8-17); the write class of a
pseudo-channel stands at 3 while it is elevated (R234). -/
def State.prioOf (s : State) (a : ArbId) (r : Nat) : Nat :=
  match a with
  | .bank i => fld (s.panArb (panOfSpk i.val)).barbPrio (5 - 2 * r) (4 - 2 * r)
  | .hbm n pc =>
    if r = 1 ∧ (s.stack n.val).elevated.getLsbD pc.val then 3
    else fld (s.stack n.val).prio (2 * r + 1) (2 * r)
  | .inject p => fld (s.panArb p.val).injPrio (2 * r + 1) (2 * r)
  | .sheaf w => fld (s.straw w.val).schedPrio (2 * r + 1) (2 * r)

/-- A requester posts a request. -/
def State.ask (s : State) (a : ArbId) (r : Nat) : State :=
  let b := s.arb a
  s.setArb a { b with reqs := Tab.upd 0 b.reqs r (· + 1) }

/-- The first of `ws` found by searching upward from `st`, modulo `n` (R225). -/
def firstFrom (n st : Nat) (ws : List Nat) : Option Nat :=
  ((List.range n).map (fun k => (st + k) % n)).find? (fun r => ws.contains r)

/-- The winner among waiting requesters: highest priority, then the search of that priority
(R225). Before any grant at a priority its search begins at index 0: the model's choice (assumption 146). -/
def winnerOf (n : Nat) (prio : Nat → Nat) (start : Tab Nat) (ws : List Nat) : Option Nat :=
  let top := ws.foldl (fun m r => Nat.max m (prio r)) 0
  firstFrom n (Tab.get 0 start top) (ws.filter (fun r => prio r = top))

/-- The order in which waiting requests, each listed by its requester, would be served if none arrived (R228, Table
6-5). -/
def serveOrder (n : Nat) (prio : Nat → Nat) : Nat → Tab Nat → List Nat → List Nat
  | 0, _, _ => []
  | k + 1, start, ws =>
    match winnerOf n prio start ws with
    | none => []
    | some r => r :: serveOrder n prio k (Tab.set 0 start (prio r) ((r + 1) % n)) (ws.erase r)

/-- Mean of the last grants, 1 before the first (R228). -/
def meanTimes (k : Nat) (ls : List Nat) : Nat :=
  if ls.isEmpty then k else k * ls.foldl (· + ·) 0 / ls.length

/-- `n` cycles of waiting for one requester (R229). -/
def Arb.elapse (b : Arb) (r n : Nat) : Arb :=
  let w := Tab.get 0 b.waited r + n
  let c := Tab.get {} b.ctr r
  { b with
    waited := Tab.set 0 b.waited r w
    ctr := Tab.set {} b.ctr r
      { c with wait := satAdd c.wait n, longest := satOf 24 (Nat.max c.longest.toNat w) } }

/-- `n` cycles since the last decision pass for the requesters that wait (R229): all of them for one that waited then,
an open number of them for one that has posted since (assumption 167). -/
def State.passTime (s : State) (a : ArbId) (ws : List Nat) (n : Nat) : State :=
  let s := ws.foldl (fun (s : State) r =>
    if (s.arb a).known.contains r then s.setArb a ((s.arb a).elapse r n)
    else
      let (v, s) := s.draw
      s.setArb a ((s.arb a).elapse r (v.toNat % (n + 1)))) s
  s.setArb a { s.arb a with known := ws }

/-- The grant `g` of `len` cycles (R226, R229); the remainder of a split grant that it takes up is used. -/
def Arb.grant (b : Arb) (len : Nat) (g : Grant) : Arb :=
  let c := Tab.get {} b.ctr g.who
  { b with
    reqs := Tab.upd 0 b.reqs g.who (· - 1)
    waited := Tab.set 0 b.waited g.who 0
    holder := some g
    rest := b.rest.filter (fun x => x.who ≠ g.who)
    lens := (len :: b.lens).take 16
    lensOf := Tab.set [] b.lensOf g.who ((len :: Tab.get [] b.lensOf g.who).take 16)
    ctr := Tab.set {} b.ctr g.who { c with grants := satAdd c.grants 1 } }

/-- Turn hints for the losers (R228): position in the order of service and estimated wait, both saturating. -/
def Arb.tell (b : Arb) (losers order : List Nat) : Arb :=
  { b with hint := losers.foldl (fun t r =>
      let k := order.idxOf r
      Tab.set none t r (some (Hint.mk (Nat.min k 255) (Nat.min (meanTimes k b.lens) (2 ^ 24 - 1))))) [] }

/-- The estimate of a bank's floret class (R48): the mean times the place that its next request takes in the order of
service. -/
def classEst (b : Arb) (order : List Nat) : Nat := Nat.min (meanTimes (order.idxOf 2) b.lens) (2 ^ 24 - 1)

/-- Turn hints of the florets whose requests stay in the bank's class (R48): requests ahead in the class, and the
class's estimate plus that many mean grants of the class. -/
def State.tellFlorets (s : State) (i : Nat) (b : Arb) (est0 skip : Nat) : State :=
  ((s.spk i).bankQ.drop skip).zipIdx.foldl (fun s p =>
    let x := i * 16 + p.1.floret.val
    let est := Nat.min (est0 + meanTimes p.2 (Tab.get [] b.lensOf 2)) (2 ^ 24 - 1)
    let fl := s.floret x
    let fl := { fl with hint := BitVec.ofNat 64 (2 ^ 63 + est * 256 + Nat.min p.2 255) }
    s.setFloret x (if fl.status = .runnable then { fl with status := .blocked .bank } else fl)) s

/-- What a decision's hints do in each instance: the bank tells its florets (R48); a pseudo-channel
counts hints and pauses the prefetcher (R235); injection counts hints and lets the mover read ahead
(R260). -/
def State.hinted (s : State) (a : ArbId) (win : Option Nat) (losers order : List Nat) : State :=
  let b := s.arb a
  match a with
  | .bank i =>
    let won := decide (win = some 2)
    s.tellFlorets i.val b (classEst b order) (if won then 1 else 0)
  | .hbm n pc =>
    let k := s.stack n.val
    let k := { k with hints := Tab.upd 0 k.hints pc.val (fun c => satAdd c losers.length) }
    let k := if win = some 3 then { k with paused := putBit k.paused pc.val false }
      else match Tab.get none b.hint 3 with
        | some h => if h.est > k.backoff.toNat then { k with paused := putBit k.paused pc.val true } else k
        | none => k
    s.setStack n.val k
  | .inject p =>
    let q := s.panArb p.val
    let q := { q with hints := satAdd q.hints losers.length }
    let q := match Tab.get none b.hint 2 with
      | some h => if h.est > q.movPrefetch.toNat then { q with prefetching := true } else q
      | none => q
    s.setPanArb p.val (if win = some 2 then { q with prefetching := false } else q)
  | .sheaf w =>
    let x := s.straw w.val
    s.setStraw w.val { x with hints := satAdd x.hints losers.length }

/-- The requester that a decision among `ws` grants (R225, R227): the emergency requester wins every decision it
enters. -/
def State.winner (s : State) (a : ArbId) (ws : List Nat) : Option Nat :=
  match arbEmergency a with
  | some e => if 0 < Tab.get 0 (s.arb a).reqs e then some e else winnerOf (arbSize a) (s.prioOf a) (s.arb a).start ws
  | none => winnerOf (arbSize a) (s.prioOf a) (s.arb a).start ws

/-- The grant `g` of `len` cycles, while the requests `ws` wait, each listed by its requester: the search of the
winner's priority moves past it, and the losers get hints (R225, R228). -/
def State.grantTo (s : State) (a : ArbId) (ws : List Nat) (len : Nat) (g : Grant) : State :=
  let b := s.arb a
  let n := arbSize a
  let b := if g.who < n then { b with start := Tab.set 0 b.start (s.prioOf a g.who) ((g.who + 1) % n) } else b
  let left := ws.erase g.who
  let order := serveOrder n (s.prioOf a) left.length b.start left
  let losers := (List.range n).filter (fun r => r ≠ g.who && left.contains r)
  let b := { (b.grant len g).tell losers order with known := left.eraseDups }
  (s.setArb a b).hinted a (some g.who) losers order

/-- One decision among the waiting requests `ws` (R225 to R231): `elapsed` cycles have passed since the last, and the
winner gets the grant unit that `unit` gives it. The answer names the winner. -/
def State.arbitrate (s : State) (a : ArbId) (ws : List Nat) (elapsed : Nat) (unit : Nat → Nat × Grant) :
    State × Option Nat :=
  let em := match arbEmergency a with
    | some e => if 0 < Tab.get 0 (s.arb a).reqs e then [e] else []
    | none => []
  let s := s.passTime a (((List.range (arbSize a)).filter (ws.contains ·)) ++ em) elapsed
  match s.winner a ws with
  | none => (s.setArb a { s.arb a with holder := none, hint := [], known := [] }, none)
  | some w => (s.grantTo a ws (unit w).1 (unit w).2, some w)

/-- The per-priority grant count of a pseudo-channel (R231). -/
def State.countLevel (s : State) (n : StackId) (pc : Fin 64) (prio : Nat) : State :=
  let k := s.stack n.val
  s.setStack n.val { k with lvl := Tab.upd 0 k.lvl (pc.val * 4 + prio) (fun c => satAdd c 1) }

/-- What is left of a grant's lines once `k` of them have moved. -/
def Aim.after (x : Aim) (k : Nat) : Aim :=
  match x with
  | .lines ids => .lines (ids.drop k)
  | _ => x

/-- Requests of a controller whose grant is taken back wait again. -/
def Stack.ungrant (k : Stack) (x : Aim) : Stack :=
  match x with
  | .lines ids => { k with openReqs := k.openReqs.map (fun o => if ids.contains o.id then { o with granted := false } else o) }
  | _ => k

/-- The emergency requester arrives during a grant (R227): a grant of more than 64 bytes that is not
a read-modify-write is split at the next 64-byte boundary, and its remainder is a new request at the
head of its class. -/
def State.preempt (s : State) (a : ArbId) (moved : Nat) : State :=
  match arbEmergency a with
  | none => s
  | some e =>
    let b := s.arb a
    let b := { b with reqs := if Tab.get 0 b.reqs e = 0 then Tab.set 0 b.reqs e 1 else b.reqs }
    match b.holder with
    | none => s.setArb a b
    | some h =>
      let cut := (moved + 63) / 64 * 64
      if h.who = e ∨ h.bytes ≤ 64 ∨ h.whole ∨ h.bytes ≤ cut then s.setArb a b
      else
        let r := { h with bytes := h.bytes - cut, aim := h.aim.after (cut / 64) }
        let s := s.setArb a { b with
          rest := r :: b.rest.filter (fun x => x.who ≠ h.who)
          waited := Tab.set 0 b.waited h.who 0
          holder := none }
        match a with
        | .hbm n _ => s.setStack n.val ((s.stack n.val).ungrant r.aim)
        | _ => s

/-- EMERGENCY_PREEMPT (R227, R47, R236). -/
def execEmergencyPreempt (a : ArbId) (moved : Nat) (s : State) : Out := .next (s.preempt a moved)

/-- The stall watchdog withdraws the grant (R226); the answer is the grant. -/
def State.withdraw (s : State) (a : ArbId) : State × Option Grant :=
  match (s.arb a).holder with
  | none => (s, none)
  | some h => (s.setArb a { s.arb a with holder := none }, some h)

end Sys2Proof.Machine
end

