-- ==== Sys2Proof/Machine/Packets.lean ====
section
/-! DEFINITION. The bytes of packets, and the flits and frames that carry them (R252, R262, R263, R285, R286, R300, R313). -/

namespace Sys2Proof.Machine

/-! ### CRC-32C (Table 7-4) -/

/-- One step of CRC-32C, reflected (Table 7-4). -/
def crcBit (c : W32) : W32 := if c.getLsbD 0 then (c >>> 1) ^^^ 0x82F63B78#32 else c >>> 1

/-- CRC-32C takes one byte. -/
def crcByte (c : W32) (b : Byte) : W32 :=
  let c := c ^^^ b.setWidth 32
  crcBit (crcBit (crcBit (crcBit (crcBit (crcBit (crcBit (crcBit c)))))))

/-- CRC-32C of bytes (Table 7-4). -/
def crc32c (bs : List Byte) : W32 := (bs.foldl crcByte 0xFFFFFFFF#32) ^^^ 0xFFFFFFFF#32

/-! ### Packet layout (R313) -/

/-- Bytes of a packet (Table 9-3). -/
def pktSize (p : Packet) : Nat := if p.data then 32 + p.payload.length else 64

/-- Flits of a packet (R252). -/
def flitsOf (p : Packet) : Nat := (pktSize p + 63) / 64

/-- Whether bytes 24–31 hold the word of a bundle or of a reduction (Tables 10-4, 11-2, 11-3). -/
def pktOwnWord (p : Packet) : Bool := decide (0x20 ≤ p.op.toNat % 128) && decide (p.op.toNat % 128 < 0x40)

/-- Bytes 12–15 (Table 9-4). -/
def pktRouteWord (p : Packet) : W32 :=
  p.slice ++ BitVec.ofBool p.data ++ p.epoch ++ p.vc ++ BitVec.ofBool p.esc ++ p.pkgs ++ 0#6

/-- The transport tag, bytes 16–23 (Table 9-5). -/
def pktTag (p : Packet) : W64 :=
  p.ctx ++ p.gen ++ p.tseq ++ p.ack ++ BitVec.ofBool p.av ++ BitVec.ofBool p.new ++ p.kind ++ p.op

/-- The operation or data word, bytes 24–31 (Tables 9-6, 9-7, 10-4, 11-2, 11-3). -/
def pktWord (p : Packet) : W64 :=
  if pktOwnWord p then p.word
  else if p.data then
    BitVec.ofNat 11 (p.payload.length - 1) ++ p.rtag ++ (if p.kind = 1 then p.status.setWidth 44 else p.addr)
  else p.rtag ++ p.status ++ 0#3 ++ p.addr

/-- The bytes of a packet (Table 9-3). -/
def pktBytes (p : Packet) : List Byte :=
  toLE 6 p.dst.toNat ++ toLE 6 p.src.toNat ++ toLE 4 (pktRouteWord p).toNat ++ toLE 8 (pktTag p).toNat ++ toLE 8 (pktWord p).toNat ++
  (if p.data then p.payload
   else toLE 8 p.opa.toNat ++ toLE 8 p.opb.toNat ++ toLE 8 p.opc.toNat ++ toLE 8 p.opd.toNat)

/-- The packet that bytes spell (Tables 9-3 to 9-7): any bytes spell one, and what lies past its length is not read. -/
def pktOf (bs : List Byte) : Packet :=
  let r := BitVec.ofNat 32 (leAt bs 12 4)
  let t := BitVec.ofNat 64 (leAt bs 16 8)
  let w := BitVec.ofNat 64 (leAt bs 24 8)
  let p : Packet :=
    { dst := BitVec.ofNat 48 (leAt bs 0 6), src := BitVec.ofNat 48 (leAt bs 6 6)
      slice := r.extractLsb' 16 16, data := r.getLsbD 15, epoch := r.extractLsb' 14 1, vc := r.extractLsb' 11 3
      esc := r.getLsbD 10, pkgs := r.extractLsb' 6 4
      ctx := t.extractLsb' 52 12, gen := t.extractLsb' 44 8, tseq := t.extractLsb' 28 16, ack := t.extractLsb' 12 16
      av := t.getLsbD 11, new := t.getLsbD 10, kind := t.extractLsb' 8 2, op := t.extractLsb' 0 8 }
  let p := if p.data then { p with payload := slice bs 32 (fld w 63 53 + 1) }
    else { p with
      opa := BitVec.ofNat 64 (leAt bs 32 8), opb := BitVec.ofNat 64 (leAt bs 40 8)
      opc := BitVec.ofNat 64 (leAt bs 48 8), opd := BitVec.ofNat 64 (leAt bs 56 8) }
  if pktOwnWord p then { p with word := w }
  else if p.data then
    if p.kind = 1 then { p with rtag := w.extractLsb' 44 9, status := w.extractLsb' 0 8 }
    else { p with rtag := w.extractLsb' 44 9, addr := w.extractLsb' 0 44 }
  else { p with rtag := w.extractLsb' 55 9, status := w.extractLsb' 47 8, addr := w.extractLsb' 0 44 }

/-- Whether a packet uses only the fields that its class lays out (Tables 9-3 to 9-7, 10-4, 11-2, 11-3). -/
def pktCanon (p : Packet) : Bool :=
  let bare := p.via.isNone && decide (p.opa = 0) && decide (p.opb = 0) && decide (p.opc = 0) && decide (p.opd = 0)
  (if p.data then bare && decide (1 ≤ p.payload.length) && decide (p.payload.length ≤ 2048) else p.via.isNone && p.payload.isEmpty) &&
  (if pktOwnWord p then
     decide (p.rtag = 0) && decide (p.status = 0) && decide (p.addr = 0) &&
     (!p.data || decide (fld p.word 63 53 + 1 = p.payload.length))
   else decide (p.word = 0) && (!p.data || (if p.kind = 1 then decide (p.addr = 0) else decide (p.status = 0))))

/-! ### Flits -/

/-- Data of flit `i` of some bytes: 64 of them, zeros past their end. -/
def flitData (bs : List Byte) (i : Nat) : BitVec 512 := BitVec.ofNat 512 (leAt bs (64 * i) 64)

/-- TYPE of flit `i` of `n` (Table 7-4). -/
def flitType (n i : Nat) : BitVec 3 := if n = 1 then 4 else if i = 0 then 1 else if i + 1 = n then 3 else 2

/-- Whether a TYPE is sequenced (R263): HEAD, BODY, TAIL, SINGLE, TAIL_ABORT. -/
def seqdType (t : BitVec 3) : Bool := decide (t ≠ 0) && decide (t ≠ 5) && decide (t ≠ 7)

/-- A mesh flit passes its check (R252). No polynomial is given: the CRC-16 is an open function (assumption 170). -/
def flitOk (f : MeshFlit) : Bool := decide (f.crc = Config.crc16 f.data f.vc f.typ)

/-- A flit with its sideband, as a bridge or a straw carries it: data in bits 511–0, sideband above. -/
abbrev Frame := BitVec 576

/-- The CRC of a frame (Table 7-4): over the data bytes and sideband bytes 0–3. -/
def frameCrc (data : BitVec 512) (low : W32) : W32 := crc32c (toLE 64 data.toNat ++ toLE 4 low.toNat)

/-- A frame from its data and the low half of its sideband. -/
def mkFrame (data : BitVec 512) (low : W32) : Frame := frameCrc data low ++ low ++ data

/-- Data of a frame. -/
def frameData (f : Frame) : BitVec 512 := f.extractLsb' 0 512

/-- The low half of a frame's sideband. -/
def frameLow (f : Frame) : W32 := f.extractLsb' 512 32

/-- Whether a frame passes its check. -/
def frameOk (f : Frame) : Bool := decide (f.extractLsb' 544 32 = frameCrc (frameData f) (frameLow f))

/-- The lane that carries bit `i` of a bridge flit (R262). -/
def laneOfBit (i : Nat) : Nat := if i < 512 then i % 256 else 256 + (i - 512) % 32

/-- The lanes on which two copies differ (R266). -/
def lanesApart (a b : Frame) : List Nat := ((bitsSet (a ^^^ b)).map laneOfBit).eraseDups

/-- Whether two copies are equal (R266): all data bits and sideband bits 31–0. -/
def sameCopies (a b : Frame) : Bool := decide (frameData a = frameData b) && decide (frameLow a = frameLow b)

/-- The low sideband of a bridge flit (Table 7-4). -/
def bridgeLow (seq : BitVec 12) (port : Nat) (vc typ : BitVec 3) (cport : Nat) (cvc : BitVec 3) (ccnt : Nat) : W32 :=
  seq ++ BitVec.ofNat 4 port ++ vc ++ typ ++ BitVec.ofNat 4 cport ++ cvc ++ BitVec.ofNat 3 ccnt

/-- The low sideband of a straw frame (Table 8-2). -/
def strawLow (seq : BitVec 14) (sseq : BitVec 10) (vc typ : BitVec 3) : W32 := seq ++ sseq ++ vc ++ typ ++ 0#2

/-- A straw frame of its fields (R285, Table 8-2). -/
def strawFrame (data : BitVec 512) (seq : BitVec 14) (sseq : BitVec 10) (vc typ : BitVec 3) (resv : BitVec 2) (crc : W32) : Frame :=
  crc ++ (seq ++ sseq ++ vc ++ typ ++ resv) ++ data

/-- Data of a bridge's LINK_CTL flit (R263). -/
def bridgeCtl (code : BitVec 4) (seq : BitVec 12) : BitVec 512 := (seq ++ code).setWidth 512

/-- Data of a straw's LINK_CTL frame (R286). -/
def strawCtl (code : BitVec 4) (seq : BitVec 14) : BitVec 512 := (seq ++ code).setWidth 512

/-! ### PRBS-31 (R274) -/

/-- One step of the generator: the bit that it gives and its next state. The polynomial x³¹ + x²⁸ + 1 is the standard
one (PRESUMED, assumption 171). -/
def prbsStep (g : BitVec 31) : Bool × BitVec 31 :=
  let b := g.getLsbD 30 ^^ g.getLsbD 27
  (b, (g <<< 1) ||| (BitVec.ofBool b).setWidth 31)

/-- The generator after `n` steps. -/
def prbsAt (g : BitVec 31) : Nat → BitVec 31
  | 0 => g
  | n + 1 => prbsAt (prbsStep g).2 n

/-- The next two bits, one for each unit interval of a flit. -/
def prbsPair (g : BitVec 31) : BitVec 2 :=
  let a := prbsStep g
  BitVec.ofBool (prbsStep a.2).1 ++ BitVec.ofBool a.1

/-! ### ROLL_CALL frames (Table 8-5) -/

/-- Data of a ROLL_CALL frame, with the SEQ of the next sequenced frame. -/
def rollBits (seq : BitVec 14) (f : RollFrame) : BitVec 512 :=
  flitData (
    toLE 3 (seq ++ 4#4).toNat ++
    toLE 1 (BitVec.ofBool f.up ++ BitVec.ofBool f.echoValid ++ BitVec.ofBool f.holdsPlan ++ 1#4).toNat ++
    toLE 2 f.rack.toNat ++ toLE 1 (f.y ++ f.x).toNat ++ toLE 1 (f.kind ++ f.z).toNat ++ toLE 8 f.serial.toNat ++
    toLE 8 f.straw.toNat ++ toLE 8 f.plan.toNat ++ toLE 8 f.echoSerial.toNat ++ toLE 1 f.echoStraw.toNat) 0

/-- The fields of a ROLL_CALL frame's data. -/
def rollOf (d : BitVec 512) : RollFrame :=
  { holdsPlan := d.getLsbD 28, echoValid := d.getLsbD 29, up := d.getLsbD 30
    rack := d.extractLsb' 32 12, x := d.extractLsb' 48 4, y := d.extractLsb' 52 4, z := d.extractLsb' 56 4
    kind := d.extractLsb' 60 4, serial := d.extractLsb' 64 64, straw := d.extractLsb' 128 5
    plan := d.extractLsb' 192 64, echoSerial := d.extractLsb' 256 64, echoStraw := d.extractLsb' 320 5 }

end Sys2Proof.Machine
end

