-- ==== Sys2Proof/Machine/Transport.lean ====
section
/-! DEFINITION. Endpoint coordinates, injection and the end-to-end transport (R310 to R316, R321,
R331 to R336). -/

namespace Sys2Proof.Machine

/-! ### Endpoint coordinates -/

/-- FUNCTION of an EC (Table 9-1). -/
def ecFn (e : Ec) : Nat := fld e 6 0
/-- SPIKELET of an EC. -/
def ecSpk (e : Ec) : Nat := fld e 12 7
/-- PANICLE of an EC. -/
def ecPan (e : Ec) : Nat := fld e 20 13
/-- TILLER of an EC. -/
def ecTil (e : Ec) : Nat := fld e 23 21
/-- RACK, X, Y and Z of an EC: the package it names (R310). -/
def ecPkg (e : Ec) : BitVec 24 := e.extractLsb' 24 24

/-- Panicle index of an EC, within its package. -/
def ecPanIx (e : Ec) : Nat := ecTil e * 192 + ecPan e

/-- Spikelet index of an EC, within its package. -/
def ecSpkIx (e : Ec) : Nat := ecPanIx e * 64 + ecSpk e

/-- Whether an EC is malformed (R312, Tables 9-1 and 9-2); the rack plan of this package gives
coordinates 0 to 3. -/
def ecMalformed (e : Ec) : Bool :=
  let fn := ecFn e
  decide (fld e 35 32 ≥ 4) || decide (fld e 31 28 ≥ 4) || decide (fld e 27 24 ≥ 4) ||
  decide (ecPan e > 191) ||
  (if fn ≤ 0x11 then false
   else if fn = 0x40 ∨ fn = 0x41 ∨ fn = 0x42 ∨ fn = 0x7E then decide (ecSpk e ≠ 0)
   else if fn = 0x50 ∨ fn = 0x51 ∨ fn = 0x52 ∨ fn = 0x60 then
     decide (ecPan e ≠ 0) || decide (ecSpk e ≠ 0)
   else if fn = 0x7F then decide (ecPan e ≠ 0) || decide (ecTil e ≠ 0) || decide (ecSpk e > 3)
   else true)

/-- The peer that an EC belongs to (R331). -/
def peerKey (e : Ec) : Ec :=
  let fn := ecFn e
  if fn < 0x50 ∨ fn = 0x7E then setFld e 12 0 0
  else setFld (setFld e 20 0 0) 6 0 fn

/-- The transport endpoint of an EC of this package (R331). -/
def epOf (e : Ec) : Nat :=
  let fn := ecFn e
  if fn < 0x50 ∨ fn = 0x7E then ecPanIx e
  else if fn ≤ 0x52 then 1536 + ecTil e * 3 + (fn - 0x50)
  else if fn = 0x60 then 1560 + ecTil e
  else 1568

/-! ### Packets -/

/-- The virtual channel at injection (R321, Table 9-12); reduction packets keep the channel that
their sender names. -/
def pktVc (p : Packet) : BitVec 3 :=
  if 0x30 ≤ p.op.toNat ∧ p.op.toNat ≤ 0x3F then p.vc
  else if p.op = 0x50 then 6
  else if p.data then 2
  else if p.kind = 1 ∨ p.kind = 2 then 1
  else 0

/-- A packet enters the fabric (R316). -/
def State.launchPkt (s : State) (p : Packet) : State :=
  { s with fab := { s.fab with sent := s.fab.sent ++
    [{ p with epoch := s.fab.inj, vc := pktVc p, esc := false, pkgs := 0 }] } }

/-- The ends of a bridge, the hub being 8 (Table 1-2); the second is where direction 0 is received
(R282). -/
def bridgeEnds (b : Nat) : Nat × Nat :=
  if b < 3 then (b, b + 1) else if b < 6 then (b + 1, b + 2) else if b < 10 then (b - 6, b - 2)
  else if b = 10 then (8, 0) else (8, 4)

/-- The router and port at which sub-port `k` of a bridge direction is received (R255, R256, R282). The hub is one router,
1536, whose ports are those of bridge 10 and then of bridge 11 (assumption 173). -/
def bridgeSink (dir k : Nat) : Nat × Nat :=
  let b := dir / 2
  let e := bridgeEnds b
  let die := if dir % 2 = 0 then e.2 else e.1
  if die = 8 then (1536, (b - 10) * 12 + k)
  else if 6 ≤ b ∧ b < 10 then (die * 192 + (if dir % 2 = 0 then 0 else 11) * 16 + k + 1, 5)
  else (die * 192 + k * 16 + (if dir % 2 = 0 then 0 else 15), 5)

/-- The bridge direction and sub-port that a port receives, if it is a bridge's (Table 7-2): what `bridgeSink` answers
there. -/
def bridgeAt (at_ port : Nat) : Option (Nat × Nat) :=
  let t := at_ / 192
  let c := at_ % 16
  let r := at_ % 192 / 16
  if at_ = 1536 then (if port < 24 then some ((10 + port / 12) * 2 + 1, port % 12) else none)
  else if port ≠ 5 then none
  else if c = 15 then (if t % 4 = 3 then none else some ((if t < 4 then t else t - 1) * 2 + 1, r))
  else if c = 0 then
    some ((if t = 0 then 10 else if t = 4 then 11 else if t < 4 then t - 1 else t - 2) * 2, r)
  else if t < 4 ∧ r = 11 then some ((6 + t) * 2 + 1, c - 1)
  else if 4 ≤ t ∧ r = 0 then some ((2 + t) * 2, c - 1)
  else none

/-- A bridge direction, by bridge × 2 + direction. -/
def State.dir (s : State) (b : Nat) : BDir := Tab.get {} s.fab.dirs b

/-- Write a bridge direction. -/
def State.setDir (s : State) (b : Nat) (v : BDir) : State :=
  { s with fab := { s.fab with dirs := Tab.set {} s.fab.dirs b v } }

/-- Flits of a sub-port and channel that its bridge's receiver is to return as credit (R262). -/
def State.oweCredit (s : State) (q : Parked) : State :=
  match bridgeAt q.at_ q.port with
  | none => s
  | some (d, k) =>
    let x := s.dir d
    s.setDir d { x with owed := Tab.upd 0 x.owed (k * 8 + q.pkt.vc.toNat) (· + flitsOf q.pkt) }

/-- A packet leaves the input buffer that holds it (R253); a bridge's receiver owes the credit. -/
def State.unpark (s : State) (p : Packet) : State :=
  match s.fab.parked.find? (fun q => q.pkt = p) with
  | none => s
  | some q => { s with fab := { s.fab with parked := s.fab.parked.erase q } }.oweCredit q

/-- Whether a packet is in the package's fabric. -/
def State.hasPkt (s : State) (p : Packet) : Bool := s.fab.sent.contains p || s.fab.ingress.contains p

/-- A listed packet replaced by what it has become on its way. -/
def State.swapPkt (s : State) (p q : Packet) : State :=
  let sub := fun (l : List Packet) => l.map (fun x => if x = p then q else x)
  { s with fab := { s.fab with
    sent := sub s.fab.sent, ingress := sub s.fab.ingress
    routed := s.fab.routed.map (fun r => if r.pkt = p then { r with pkt := q } else r) } }

/-- A packet enters the input buffer of a port (R253). -/
def State.park (s : State) (at_ port : Nat) (p : Packet) : State :=
  { s with fab := { s.fab with parked := s.fab.parked ++ [{ at_ := at_, port := port, pkt := p }] } }

/-- A packet leaves the fabric at an endpoint or is lost: its listed copy goes. -/
def State.takePkt (s : State) (p : Packet) : State :=
  let s := s.unpark p
  { s with fab := { s.fab with
    sent := s.fab.sent.erase p, ingress := s.fab.ingress.erase p
    routed := s.fab.routed.filter (fun r => r.pkt ≠ p) } }

/-- A packet that transport has accepted is consumed by its endpoint. -/
def State.consume (s : State) (p : Packet) : State :=
  { s with fab := { s.fab with delivered := s.fab.delivered.erase p } }

/-! ### Peer entries -/

/-- Whether a peer entry is the one of endpoint `ep` for a peer. -/
def Peer.isFor (x : Peer) (ep : Nat) (key : Ec) : Bool := decide (x.ep = ep) && decide (x.peer = key)

/-- The entry of an endpoint for a peer. -/
def State.peer (s : State) (ep : Nat) (key : Ec) : Option Peer :=
  s.fab.peers.find? (fun x => x.isFor ep key)

/-- Write an entry, or add it. -/
def State.setPeer (s : State) (x : Peer) : State :=
  let ps := s.fab.peers
  let ps := if ps.any (fun y => y.isFor x.ep x.peer) then
      ps.map (fun y => if y.isFor x.ep x.peer then x else y)
    else ps ++ [x]
  { s with fab := { s.fab with peers := ps } }

/-- Discard an entry. -/
def State.dropPeer (s : State) (ep : Nat) (key : Ec) : State :=
  { s with fab := { s.fab with peers := s.fab.peers.filter (fun y => !y.isFor ep key) } }

/-- Entries that an endpoint has. -/
def State.peersOf (s : State) (ep : Nat) : List Peer := s.fab.peers.filter (fun x => x.ep = ep)

/-- Bytes that an endpoint holds for resending (R332). -/
def State.heldBytes (s : State) (ep : Nat) : Nat :=
  (s.peersOf ep).foldl (fun n x => x.unacked.foldl (fun n p => n + pktSize p) n) 0

/-- A packet with the acknowledgement that rides on it (R333). -/
def Peer.ride (x : Peer) (p : Packet) : Packet :=
  match x.expected with
  | some e => { p with ack := e, av := true }
  | none => p

/-- A transport counter of a panicle mover (Table 9-17); other endpoints have none. -/
def State.countTp (s : State) (ep : Nat) (g : PanCounters → PanCounters) : State :=
  if ep < 1536 then s.setPan ep { s.pan ep with ctr := g (s.pan ep).ctr } else s

/-- What keeps a sequenced packet from being sent. -/
inductive TpHold where
  | window | entry
deriving DecidableEq, Repr

/-- A sequenced packet is numbered and sent, unless a limit holds it (R332, R336). -/
def State.trySend (s : State) (ep : Nat) (p : Packet) : Except TpHold State :=
  let key := peerKey p.dst
  let go := fun (x : Peer) =>
    if x.unacked.length ≥ 64 ∨ s.heldBytes ep + pktSize p > 262144 then .error .window
    else
      let p := x.ride { p with tseq := x.next, new := !x.opened }
      .ok ((s.setPeer { x with
        next := x.next + 1, opened := true, unacked := x.unacked ++ [p],
        lastSent := s.refcnt, ackOwed := false }).launchPkt p)
  match s.peer ep key with
  | some x => go x
  | none => if (s.peersOf ep).length ≥ 4096 then .error .entry else go { ep := ep, peer := key }

/-- A packet held back at its endpoint (R28). -/
def State.stallPkt (s : State) (ep : Nat) (p : Packet) : State :=
  { s with fab := { s.fab with stalled := s.fab.stalled ++ [(Fin.ofNat 1569 ep, p)] } }

/-- A packet is injected by an endpoint (R316, R332): sequenced packets take their place behind those
that already stall for the same peer; transport control and unsequenced packets carry TSEQ 0. While TRANSIT resets,
injectors stall (R340). -/
def State.inject (s : State) (ep : Nat) (p : Packet) : State :=
  if p.kind = 0 ∨ p.kind = 1 then
    if s.domResetting 1 = true then s.stallPkt ep p
    else if s.fab.stalled.any (fun q => decide (q.1.val = ep) && decide (peerKey q.2.dst = peerKey p.dst)) then
      s.stallPkt ep p
    else match s.trySend ep p with
      | .ok s' => s'
      | .error .window => s.stallPkt ep p
      | .error .entry =>
        (s.countTp ep (fun c => { c with tpStall := satAdd c.tpStall 1 })).stallPkt ep p
  else
    let p := { p with tseq := 0 }
    match s.peer ep (peerKey p.dst) with
    | some x => (s.setPeer { x with ackOwed := false }).launchPkt (x.ride p)
    | none => s.launchPkt p

/-- Stalled packets go on, in order, as far as the limits now let them. -/
def State.unstall (s : State) (ep : Nat) : State :=
  let mine := s.fab.stalled.filter (fun q => q.1.val = ep)
  let s := { s with fab := { s.fab with stalled := s.fab.stalled.filter (fun q => q.1.val ≠ ep) } }
  mine.foldl (fun s q =>
    if s.fab.stalled.any (fun r => decide (r.1.val = ep) && decide (peerKey r.2.dst = peerKey q.2.dst)) then
      s.stallPkt ep q.2
    else match s.trySend ep q.2 with
      | .ok s' => s'
      | .error _ => s.stallPkt ep q.2) s

/-- A transport control packet from an endpoint to the sender of `p` (R333, R334, R336). -/
def State.control (s : State) (ep : Nat) (op : Nat) (p : Packet) (ack : BitVec 16) (av : Bool) : State :=
  s.inject ep { dst := p.src, src := p.dst, kind := 2, op := BitVec.ofNat 8 op, ack := ack, av := av }

/-! ### Acknowledgement -/

/-- Whether TSEQ `a` is earlier than `b` (R333). -/
def tseqBefore (a b : BitVec 16) : Bool := decide (a ≠ b) && decide ((b - a).toNat < 32768)

/-- An acknowledgement naming the next TSEQ expected (R333, R334): earlier packets leave the resend
list, and progress clears the retry count. -/
def State.acked (s : State) (ep : Nat) (key : Ec) (ack : BitVec 16) : State :=
  match s.peer ep key with
  | none => s
  | some x =>
    let left := x.unacked.filter (fun p => !tseqBefore p.tseq ack)
    if left.length < x.unacked.length then
      (s.setPeer { x with unacked := left, retries := 0 }).unstall ep
    else s

/-- Unacknowledged packets from TSEQ `n` on are sent again, in order, with the current epoch (R330,
R334). -/
def State.resend (s : State) (ep : Nat) (key : Ec) (n : BitVec 16) : State :=
  match s.peer ep key with
  | none => s
  | some x =>
    let ps := (x.unacked.filter (fun p => !tseqBefore p.tseq n)).map x.ride
    let s := if ps.isEmpty then s else s.setPeer { x with lastSent := s.refcnt, ackOwed := false }
    ps.foldl (fun s p => s.launchPkt p) s

/-! ### Reception -/

/-- 2 ms and 2 µs of the reference (R325, R333). -/
def ms2 : Nat := 2000000
/-- 2 µs of the reference. -/
def us2 : Nat := 2000

/-- Whether a stamp lies at least `n` ns back. -/
def State.since (s : State) (t : W64) (n : Nat) : Bool := decide ((s.refcnt - t).toNat ≥ n)

/-- A sequenced packet against the entry that receives it (Table 9-14). -/
def State.tpOrder (s : State) (ep : Nat) (room : Bool) (p : Packet) (x : Peer) (e : BitVec 16) : State :=
  let x := { x with lastRecv := some s.refcnt }
  if p.tseq = e then
    if !room then (s.setPeer x).takePkt p
    else
      let s := (s.setPeer { x with expected := some (e + 1), ackOwed := true }).takePkt p
      { s with fab := { s.fab with delivered := s.fab.delivered ++ [p] } }
  else if tseqBefore p.tseq e then
    ((s.setPeer { x with ackOwed := true }).takePkt p).countTp ep
      (fun c => { c with tpDup := satAdd c.tpDup 1 })
  else
    let quiet := match x.lastNak with
      | some t => s.since t us2
      | none => true
    if quiet then
      (((s.setPeer { x with lastNak := some s.refcnt }).takePkt p).countTp ep
        (fun c => { c with tpNak := satAdd c.tpNak 1 })).control ep 0x41 p e true
    else (s.setPeer x).takePkt p

/-- Whether an endpoint consumes every packet of a channel (Table 9-12): replies, transport control and downward
reduction. -/
def alwaysTaken (vc : BitVec 3) : Bool := decide (vc = 1) || decide (vc = 5)

/-- TRANSPORT_RECEIVE (R321, R333, R336, Table 9-14): a sequenced packet arrives at an endpoint. `room` is
false where an endpoint has no room for it: a packet on VC7 is then dropped, one on a channel that is always consumed is
taken all the same, any other waits. -/
def execTransportReceive (ep : EpId) (free : Bool) (pkt : Packet) (s : State) : Out :=
  let room := free || alwaysTaken pkt.vc
  if pkt.kind ≠ 0 ∧ pkt.kind ≠ 1 then .next s
  else if !room && decide (pkt.vc ≠ 7) then .next s
  else
    let key := peerKey pkt.src
    let s := if pkt.av then s.acked ep.val key pkt.ack else s
    match s.peer ep.val key with
    | none =>
      if pkt.new then
        if (s.peersOf ep.val).length ≥ 4096 then .next (s.takePkt pkt)
        else .next (s.tpOrder ep.val room pkt { ep := ep.val, peer := key } pkt.tseq)
      else .next ((s.takePkt pkt).control ep.val 0x42 pkt 0 false)
    | some x =>
      let quiet := match x.lastRecv with
        | some t => s.since t ms2
        | none => true
      match x.expected, pkt.new && quiet with
      | _, true => .next (s.tpOrder ep.val room pkt x pkt.tseq)
      | some e, false => .next (s.tpOrder ep.val room pkt x e)
      | none, false => .next ((s.takePkt pkt).control ep.val 0x42 pkt 0 false)

/-- ACK_TIMER (R333): no packet has gone to the peer for 2 µs, and an acknowledgement that is owed is
sent on its own. -/
def execAckTimer (ep : EpId) (peer : Ec) (s : State) : Out :=
  match s.peer ep.val (peerKey peer) with
  | none => .next s
  | some x =>
    match x.ackOwed, x.expected with
    | true, some e =>
      .next ((s.setPeer { x with ackOwed := false }).launchPkt
        { dst := peer, src := s.epEc ep.val, kind := 2, op := 0x40, ack := e, av := true })
    | _, _ => .next s

/-- ACK (R334). -/
def execAck (ep : EpId) (pkt : Packet) (s : State) : Out :=
  if pkt.av then .next ((s.takePkt pkt).acked ep.val (peerKey pkt.src) pkt.ack)
  else .next (s.takePkt pkt)

/-- NAK of n (R334): what came before n has arrived, and everything from n is sent again, which is no
retry. -/
def execNak (ep : EpId) (pkt : Packet) (s : State) : Out :=
  let key := peerKey pkt.src
  .next (((s.takePkt pkt).acked ep.val key pkt.ack).resend ep.val key pkt.ack)

/-- RESYNC (R336): the sender resends from its oldest unacknowledged packet, with NEW on the first. -/
def execResyncPacket (ep : EpId) (pkt : Packet) (s : State) : Out :=
  let key := peerKey pkt.src
  let s := s.takePkt pkt
  match s.peer ep.val key with
  | none => .next s
  | some x =>
    match x.unacked with
    | [] => .next s
    | p :: t =>
      .next ((s.setPeer { x with unacked := { p with new := true } :: t }).resend ep.val key p.tseq)

/-- Whether an entry may be evicted (R336). -/
def State.evictable (s : State) (x : Peer) : Bool :=
  x.unacked.isEmpty && !x.ackOwed && s.since x.lastSent ms2 &&
  (match x.lastRecv with
   | some t => s.since t ms2
   | none => true) &&
  !s.fab.delivered.any (fun p => decide (epOf p.dst = x.ep) && decide (peerKey p.src = x.peer))

/-- When an entry was last used. -/
def Peer.lastUse (x : Peer) : Nat := Nat.max x.lastSent.toNat ((x.lastRecv.getD 0).toNat)

/-- PEER_ENTRY_EVICT (R336): the entry goes if it may and is the least recently used of those that
may; an issuer stalled for want of an entry then goes on. -/
def execPeerEntryEvict (ep : EpId) (peer : Ec) (s : State) : Out :=
  match s.peer ep.val (peerKey peer) with
  | none => .next s
  | some x =>
    let older := (s.peersOf ep.val).any (fun y => s.evictable y && decide (y.lastUse < x.lastUse))
    if s.evictable x && !older then .next ((s.dropPeer ep.val x.peer).unstall ep.val) else .next s

end Sys2Proof.Machine
end

