-- ==== Sys2Proof/Machine/HostOps.lean ====
section
/-! DEFINITION. Operations on queues and commands: fields, completions, stook messages (R396 to R428,
Tables 12-5 to 12-8). -/

namespace Sys2Proof.Machine

/-! ### Command fields (Table 12-5) -/

/-- The header word. -/
def HCmd.header (c : HCmd) : Nat := leAt c.bytes 0 4
/-- OPCODE. -/
def HCmd.opcode (c : HCmd) : Nat := fieldOf c.header 7 0
/-- BUDGET. -/
def HCmd.budget (c : HCmd) : Nat := fieldOf c.header 31 16
/-- ALL: run at every member of the stook. -/
def HCmd.all (c : HCmd) : Bool := decide (fieldOf c.header 15 15 = 1)
/-- IRQ. -/
def HCmd.irq (c : HCmd) : Bool := decide (fieldOf c.header 14 14 = 1)
/-- ORDER. -/
def HCmd.order (c : HCmd) : Bool := decide (fieldOf c.header 13 13 = 1)
/-- Declared energy class. -/
def HCmd.eclass (c : HCmd) : Nat := fieldOf c.header 11 8
/-- Declared duration in µs. -/
def HCmd.est (c : HCmd) : Nat := leAt c.bytes 4 4
/-- DV: DEST is valid. -/
def HCmd.dv (c : HCmd) : Bool := decide (fieldOf (leAt c.bytes 8 4) 31 31 = 1)
/-- DEST. -/
def HCmd.dest (c : HCmd) : BitVec 24 := BitVec.ofNat 24 (leAt c.bytes 8 4)
/-- Parameter Pi. -/
def HCmd.p (c : HCmd) (i : Nat) : Nat := leAt c.bytes (16 + 8 * i) 8
/-- How far a command that is stopped part-way has got (R412): the bytes of a COPY or FILL. -/
def HCmd.got (c : HCmd) : Nat := if c.opcode = 2 ∨ c.opcode = 3 then c.step else 0
/-- Whether a reserved field of the header is nonzero. -/
def HCmd.reserved (c : HCmd) : Bool :=
  decide (fieldOf c.header 12 12 ≠ 0) || decide (fieldOf (leAt c.bytes 8 4) 30 24 ≠ 0) ||
  decide (leAt c.bytes 12 4 ≠ 0)
/-- Whether the command's queue is an admin queue. -/
def HCmd.admin (c : HCmd) : Bool := c.cfg.getLsbD 30
/-- Function that owns the command's queue. -/
def HCmd.fn (c : HCmd) : Nat := fld c.cfg 5 0
/-- Context of the command's queue. -/
def HCmd.ctx (c : HCmd) : BitVec 12 := c.cfg.extractLsb' 12 12

/-! ### Queues -/

/-- Queue `q`. -/
def State.queue (s : State) (q : Nat) : Queue := Tab.get {} s.host.queues q

/-- Write a queue. -/
def State.setQueue (s : State) (q : Nat) (v : Queue) : State :=
  { s with host := { s.host with queues := Tab.set {} s.host.queues q v } }

/-- log₂ of a ring's entries (R403). -/
def Queue.n (x : Queue) : Nat := fld x.cfg 29 26 + 6

/-- A command of a queue. -/
def Queue.cmd (x : Queue) (seq : W32) : Option HCmd := x.cmds.find? (fun c => c.seq = seq)

/-- A command of a queue rewritten. -/
def Queue.setCmd (x : Queue) (c : HCmd) : Queue :=
  { x with cmds := x.cmds.map (fun d => if d.seq = c.seq then c else d) }

/-- A command of a queue. -/
def State.cmd (s : State) (q : QueueId) (seq : W32) : Option HCmd := (s.queue q.val).cmd seq

/-- Rewrite a command of a queue. -/
def State.setCmd (s : State) (q : QueueId) (c : HCmd) : State :=
  s.setQueue q.val ((s.queue q.val).setCmd c)

/-- Host commands in flight in the package (R405). -/
def State.inflight (s : State) : Nat :=
  s.host.queues.foldl (fun n e => n + e.2.cmds.length) 0

/-! ### The stook (R423 to R427) -/

/-- Coordinate index 16Z + 4Y + X of a package. -/
def coordIx (pkg : BitVec 24) : Nat := 16 * fld pkg 3 0 + 4 * fld pkg 7 4 + fld pkg 11 8

/-- The package of a coordinate index in the own rack. -/
def State.pkgOfIx (s : State) (i : Nat) : BitVec 24 :=
  BitVec.ofNat 24 (fld s.fab.coord 23 12 * 4096 + (i % 4) * 256 + (i / 4 % 4) * 16 + i / 16)

/-- Members and master of the stook that the rack plan names (Table 17-4); without a plan the package
stands alone. -/
def State.stook (s : State) : W64 × Nat :=
  match s.fab.plan with
  | some b => (BitVec.ofNat 64 (leAt b 16 8), leAt b 14 1)
  | none => (BitVec.ofNat 64 (2 ^ coordIx s.fab.coord), coordIx s.fab.coord)

/-- Whether this package is the master of its stook, or stands alone. -/
def State.isMaster (s : State) : Bool := decide (s.stook.2 = coordIx s.fab.coord)

/-- The record of a steward message that is sent (assumption 136). -/
def State.noteStw (s : State) (dst : Ec) (m : StwMsg) : State :=
  { s with host := { s.host with stwOut := s.host.stwOut ++ [(dst, m)] } }

/-- The packet of a steward message (Table 9-8). -/
def State.stwPkt (s : State) (dst : Ec) : Packet :=
  { dst := dst, src := s.stewardEc 0, kind := 0, op := 0x50, gen := (s.dom 0).gen }

/-- A steward message is sent on VC6 (R425, Table 9-8), on a straw that it names where it must (R440). -/
def State.sendStwBy (s : State) (via : Option StrawId) (dst : Ec) (m : StwMsg) : State :=
  (s.noteStw dst m).inject 1568 { s.stwPkt dst with via := via }

/-- A steward message is sent on VC6 (R425, Table 9-8). -/
def State.sendStw (s : State) (dst : Ec) (m : StwMsg) : State := s.sendStwBy none dst m

/-! ### Host memory (R396, R427) -/

/-- Pieces of at most 2,032 bytes of a transfer, so that one fits a packet with its address: offset and length. -/
def hostPieces (n : Nat) : List (Nat × Nat) :=
  (List.range (ceilDiv n 2032)).map (fun k => (k * 2032, Nat.min 2032 (n - k * 2032)))

/-- A host access that a member sends to its master (R427), which issues it for function `fn`. No packet of this use is
laid out in the source: in a READ, OPB carries the bus address and OPA the function and, in its upper half, the length; in
a WRITE, address and function are the payload's first 16 bytes: a choice of this model (assumption 168). -/
def State.hostSend (s : State) (master : Ec) (fn a n tag : Nat) (write : Option (List Byte)) : State :=
  (hostPieces n).foldl (fun (s : State) (q : Nat × Nat) =>
    s.inject 1568 {
      dst := master, src := s.stewardEc 0, kind := 0, gen := (s.dom 0).gen, data := write.isSome
      op := if write.isSome then 0x11 else 0x10
      opa := if write.isSome then 0 else BitVec.ofNat 64 (q.2 * 2 ^ 32 + fn)
      opb := if write.isSome then 0 else BitVec.ofNat 64 (a + q.1)
      payload := match write with
        | some bs => toLE 8 (a + q.1) ++ toLE 8 fn ++ slice bs q.1 q.2
        | none => []
      rtag := BitVec.ofNat 9 tag }) s

/-- Host memory read on behalf of a function: by this package, or by a member through its master (R427), whose host
memory this package does not hold: the bytes are open values. -/
def State.hostGet (s : State) (master : Option Ec) (fn a n : Nat) : State × List Byte :=
  match master with
  | none => (s, s.hostRead fn a n)
  | some m =>
    let r := s.drawBytes n
    (r.2.hostSend m fn a n 0 none, r.1)

/-- Host memory written on behalf of a function, by a member through its master (R427). -/
def State.hostPut (s : State) (master : Option Ec) (fn a : Nat) (bs : List Byte) : State :=
  match master with
  | none => s.hostWrite fn a bs
  | some m => s.hostSend m fn a bs.length 0 (some bs)

/-- The master through which this package reaches the host for a context's far pages (R427). -/
def State.hostVia (s : State) : Option Ec :=
  if s.isMaster then none else some (ecOf (s.pkgOfIx s.stook.2) 0 0 0 0x7F)

/-- Whether a package is a member of this stook. -/
def State.isMember (s : State) (pkg : BitVec 24) : Bool :=
  decide (fld pkg 23 12 = fld s.fab.coord 23 12) && s.stook.1.getLsbD (coordIx pkg)

/-! ### Completions -/

/-- A completion entry's bytes (Table 12-6). -/
def cqEntry (q : QueueId) (x : Queue) (seq : W32) (status : Nat) (result : Nat) : List Byte :=
  let ph := if x.cqCount.toNat / 2 ^ x.n % 2 = 0 then 1 else 0
  toLE 8 result ++ toLE 4 seq.toNat ++ toLE 2 status ++ toLE 2 (ph * 2 ^ 15 + q.val)

/-- A queue that drains is disabled when its last outstanding command is complete (Table 12-4). -/
def Queue.settle (x : Queue) : Queue :=
  if x.st = .draining ∧ x.cmds.all (fun c => c.discard) = true then
    { x with st := .disabled } else x

/-- The edge of a queue's WAIT or unstarted SIGNAL (Table 15-8). -/
def State.cmdEdge (s : State) (q : QueueId) (c : HCmd) : Edge :=
  let cell := s.cellAt c.ctx (BitVec.ofNat 64 (c.p 0))
  let queue : Vertex := .queue s.fab.coord q
  let owner : CtxId := Fin.ofNat 4096 c.ctx.toNat
  if c.opcode = 6 then { src := queue, dst := cell, owner := owner }
  else { src := cell, dst := queue, owner := owner }

/-- What a command leaves behind as it ends: the wait and edge of a WAIT, the edge of a SIGNAL that
never started (R414, Table 15-8). -/
def State.dropCmd (s : State) (q : QueueId) (c : HCmd) : State :=
  if c.opcode = 6 ∧ c.started = true then
    { s with mem := { s.mem with waits := s.mem.waits.filter (fun w => w.who ≠ CellWho.queue q c.seq) } }.dropEdge
      (s.cmdEdge q c)
  else if c.opcode = 5 ∧ c.started = false then s.dropEdge (s.cmdEdge q c)
  else s

/-- A command completes (R397, R411, Table 12-6): its entry is written to the completion ring, or sent
to the master that forwarded it, or discarded (R422). -/
def State.complete (s : State) (q : QueueId) (seq : W32) (status result : Nat) : State :=
  let x := s.queue q.val
  match x.cmd seq with
  | none => s
  | some c =>
    let s := s.dropCmd q c
    let x' := { x with cmds := x.cmds.filter (fun d => d.seq ≠ seq) }
    if c.discard then s.setQueue q.val x'.settle
    else match c.via with
      | some master =>
        (s.setQueue q.val x'.settle).sendStw master
          (.completion q seq (Fin.ofNat 64 (coordIx s.fab.coord)) (BitVec.ofNat 16 status)
            (BitVec.ofNat 64 result))
      | none =>
        let s := s.hostWrite c.fn (x.cqBase.toNat + 16 * (x.cqCount.toNat % 2 ^ x.n)) (cqEntry q x seq status result)
        s.setQueue q.val { x' with
          cqCount := x.cqCount + 1
          irqOwed := if c.irq then x.irqOwed + 1 else x.irqOwed }.settle

/-- The completion of a command that ran at every member (R424): the first nonzero status in ascending
member order with that member's result, else the master's. -/
def mergeRes (own : Nat) (rs : List MemberRes) : Nat × Nat :=
  let ordered := (List.range 64).flatMap (fun m => rs.filter (fun r => r.member.val = m))
  let master := match rs.find? (fun r => r.member.val = own) with
    | some o => o.result.toNat
    | none => 0
  match ordered.find? (fun r => r.status ≠ 0) with
  | some r =>
    if rs.all (fun r => r.status.toNat < 0x100) then (r.status.toNat, master)
    else (r.status.toNat, r.result.toNat)
  | none => (0, master)

/-- One member's answer to a command that runs at several (R424, R425). -/
def State.memberDone (s : State) (q : QueueId) (seq : W32) (m : Fin 64) (status : BitVec 16)
    (result : W64) : State :=
  match s.cmd q seq with
  | none => s
  | some c =>
    let own := coordIx s.fab.coord
    let c := { c with
      results := c.results ++ [{ member := m, status := status, result := result }]
      away := c.away.filter (· ≠ m)
      local_ := c.local_ && decide (m.val ≠ own) }
    let s := s.setCmd q c
    if c.away.isEmpty && !c.local_ then
      let r := mergeRes own c.results
      s.complete q seq r.1 r.2
    else s

/-- The work of a command at this package ends (R411, R424). -/
def State.finish (s : State) (q : QueueId) (seq : W32) (status result : Nat) : State :=
  match s.cmd q seq with
  | none => s
  | some c =>
    if c.all && c.via.isNone then
      s.memberDone q seq (Fin.ofNat 64 (coordIx s.fab.coord)) (BitVec.ofNat 16 status)
        (BitVec.ofNat 64 result)
    else s.complete q seq status result

/-- The commands of every queue, with their queue numbers. -/
def State.allCmds (s : State) : List (QueueId × HCmd) :=
  s.host.queues.flatMap (fun e => e.2.cmds.map (fun c => (Fin.ofNat 4096 e.1, c)))

end Sys2Proof.Machine
end

