-- ==== Sys2Proof/Machine/Cells.lean ====
section
/-! DEFINITION. Sync cells at their homes: waits registered and satisfied (R140, R187, R414). -/

namespace Sys2Proof.Machine

/-- The reply to a request (R314, R315, Tables 9-6 to 9-8): OP + 0x80, the request's RTAG, CTX, GEN and
SLICE, from the addressed endpoint to the requester. -/
def replyTo (p : Packet) (status : Nat) (opa : W64) : Packet :=
  { dst := p.src, src := p.dst, slice := p.slice, ctx := p.ctx, gen := p.gen, kind := 1,
    op := p.op + 0x80, rtag := p.rtag, status := BitVec.ofNat 8 status, opa := opa }

/-- A reply is injected by the endpoint that the request addressed. -/
def State.reply (s : State) (p : Packet) (status : Nat) (opa : W64) : State :=
  s.inject (epOf p.dst) (replyTo p status opa)

/-- A data reply (R314): LEN bytes of payload. -/
def State.replyData (s : State) (p : Packet) (bytes : List Byte) : State :=
  s.inject (epOf p.dst) { replyTo p 0 0 with data := true, payload := bytes }

/-- The 64-bit value at a package-local address. -/
def State.word (s : State) (a : Nat) : W64 := BitVec.ofNat 64 (ofLE (s.read a 8))

/-- A satisfied wait ends (R140, R414): its request is answered, or its queue's WAIT completes with the
value seen. -/
def State.endWait (s : State) (w : CellWait) : State :=
  match w.who with
  | .packet p => s.reply p 0 0
  | .queue q seq => s.finish q seq 0 (s.word w.addr).toNat

/-- Waits whose cell lies in changed bytes and has reached their threshold, compared unsigned, end
(R140). -/
def State.wakeCells (s : State) (a n : Nat) : State :=
  let hit := fun (w : CellWait) =>
    decide (w.addr < a + n) && decide (a < w.addr + 8) && decide (w.threshold ≤ s.word w.addr)
  let done := s.mem.waits.filter hit
  let s := { s with mem := { s.mem with waits := s.mem.waits.filter (fun w => !hit w) } }
  done.foldl (fun s w => s.endWait w) s

/-- A wait is registered at a cell, or ends at once when its condition holds (R140). -/
def State.registerWait (s : State) (w : CellWait) : State :=
  if w.threshold ≤ s.word w.addr then s.endWait w
  else { s with mem := { s.mem with waits := s.mem.waits ++ [w] } }

end Sys2Proof.Machine
end

