-- ==== Sys2Proof/Machine/Formats.lean ====
section
/-! DEFINITION. Number formats, exact values and rounding (R83 to R86, R104, R105). -/

namespace Sys2Proof.Machine

/-- The element formats of Table 3-1. -/
inductive Fmt where
  | fp32 | bf16 | fp16 | e4m3 | e5m2 | int8 | int4
  | mx8e4m3 | mx8e5m2 | mx6e2m3 | mx6e3m2 | mx4e2m1 | mxint8
deriving DecidableEq, Repr

/-- The format of a code of Table 3-1; a reserved code has none (R83). -/
def Fmt.ofCode (c : BitVec 5) : Option Fmt :=
  match c.toNat with
  | 0 => some .fp32 | 1 => some .bf16 | 2 => some .fp16 | 3 => some .e4m3 | 4 => some .e5m2
  | 5 => some .int8 | 6 => some .int4 | 8 => some .mx8e4m3 | 9 => some .mx8e5m2
  | 10 => some .mx6e2m3 | 11 => some .mx6e3m2 | 12 => some .mx4e2m1 | 13 => some .mxint8
  | _ => none

/-- The formats whose elements share an E8M0 block scale. -/
def Fmt.isMx : Fmt → Bool
  | .mx8e4m3 | .mx8e5m2 | .mx6e2m3 | .mx6e3m2 | .mx4e2m1 | .mxint8 => true
  | _ => false

/-- The integer formats. -/
def Fmt.isInt : Fmt → Bool
  | .int8 | .int4 | .mxint8 => true
  | _ => false

/-- Width of an element in bits (Table 3-1). -/
def Fmt.width : Fmt → Nat
  | .fp32 => 32 | .bf16 | .fp16 => 16
  | .mx6e2m3 | .mx6e3m2 => 6
  | .mx4e2m1 | .int4 => 4
  | _ => 8

/-- Bytes that an element takes in memory, 6-bit and 4-bit elements one byte each (R107). -/
def Fmt.bytes : Fmt → Nat
  | .fp32 => 4 | .bf16 | .fp16 => 2 | _ => 1

/-- Exponent width, mantissa width and bias of a floating-point format (Table 3-1). -/
def Fmt.layout : Fmt → Nat × Nat × Int
  | .fp32 => (8, 23, 127) | .bf16 => (8, 7, 127) | .fp16 => (5, 10, 15)
  | .e4m3 | .mx8e4m3 => (4, 3, 7) | .e5m2 | .mx8e5m2 => (5, 2, 15)
  | .mx6e2m3 => (2, 3, 1) | .mx6e3m2 => (3, 2, 3) | .mx4e2m1 => (2, 1, 1)
  | .int8 | .int4 | .mxint8 => (0, 0, 0)

/-- How a format uses its top exponent: infinities and NaNs as in IEEE formats, a single NaN per
sign (E4M3), or ordinary values only. -/
inductive TopExp where
  | ieee | nanOnly | finite
deriving DecidableEq, Repr

/-- The use of the top exponent (Table 3-1). -/
def Fmt.top : Fmt → TopExp
  | .fp32 | .bf16 | .fp16 | .e5m2 | .mx8e5m2 => .ieee
  | .e4m3 | .mx8e4m3 => .nanOnly
  | _ => .finite

/-- An exact value: `fin neg m e` is (−1)^neg × m × 2^e; zeros keep their sign. -/
inductive FVal where
  | nan
  | inf (neg : Bool)
  | fin (neg : Bool) (m : Nat) (e : Int)
deriving DecidableEq, Repr

/-- The value of a two's complement element of `w` bits, times 2^sh. -/
def intVal (w x : Nat) (sh : Int) : FVal :=
  let y := x % 2 ^ w
  if y < 2 ^ (w - 1) then .fin false y sh else .fin true (2 ^ w - y) sh

/-- The value of an element (R84, Table 3-1). -/
def Fmt.decode (f : Fmt) (x : Nat) : FVal :=
  match f with
  | .int8 => intVal 8 x 0
  | .int4 => intVal 4 x 0
  | .mxint8 => intVal 8 x (-6)
  | f =>
    let (ew, mw, bias) := f.layout
    let neg := fieldOf x (ew + mw) (ew + mw) = 1
    let e := fieldOf x (ew + mw - 1) mw
    let m := x % 2 ^ mw
    let allOnes := e = 2 ^ ew - 1
    if f.top = .ieee ∧ allOnes then (if m = 0 then .inf neg else .nan)
    else if f.top = .nanOnly ∧ allOnes ∧ m = 2 ^ mw - 1 then .nan
    else if e = 0 then .fin neg m (1 - bias - mw)
    else .fin neg (2 ^ mw + m) (e - bias - mw)

/-- The canonical NaN of a format (Table 3-2); formats without one give 0. -/
def Fmt.nanBits : Fmt → Nat
  | .fp32 => 0x7FC00000 | .bf16 => 0x7FC0 | .fp16 => 0x7E00
  | .e4m3 | .mx8e4m3 => 0x7F | .e5m2 | .mx8e5m2 => 0x7E
  | _ => 0

/-- The magnitude bits of the largest finite value (Tables 3-1, 3-2). -/
def Fmt.largest : Fmt → Nat
  | .fp32 => 0x7F7FFFFF | .bf16 => 0x7F7F | .fp16 => 0x7BFF
  | .e4m3 | .mx8e4m3 => 0x7E | .e5m2 | .mx8e5m2 => 0x7B
  | .mx6e2m3 | .mx6e3m2 => 0x1F | .mx4e2m1 => 0x7
  | .int8 | .mxint8 => 0x7F | .int4 => 7

/-- The sign bit put on magnitude bits. -/
def Fmt.signed (f : Fmt) (neg : Bool) (mag : Nat) : Nat :=
  if neg then mag + 2 ^ (f.width - 1) else mag

/-- The infinity of a format that has one. -/
def Fmt.infBits (f : Fmt) (neg : Bool) : Nat :=
  let (ew, mw, _) := f.layout
  f.signed neg ((2 ^ ew - 1) * 2 ^ mw)

/-- Rounding modes (Table 3-7); `stochastic` carries the LFSR value r. -/
inductive Rnd where
  | nearest | zero
  | stochastic (r : Nat)
deriving DecidableEq, Repr

/-- m × 2^e as a whole number of steps of 2^q, rounded (R104). -/
def roundSteps (rnd : Rnd) (m : Nat) (e q : Int) : Nat :=
  if q ≤ e then m * 2 ^ (e - q).toNat
  else
    let sh := (q - e).toNat
    let l := m / 2 ^ sh
    let rem := m % 2 ^ sh
    let up := match rnd with
      | .nearest => decide (2 * rem > 2 ^ sh) || (decide (2 * rem = 2 ^ sh) && decide (l % 2 = 1))
      | .zero => false
      | .stochastic r => decide (rem * 2 ^ 32 / 2 ^ sh + r ≥ 2 ^ 32)
    if up then l + 1 else l

/-- Magnitude bits of m × 2^e rounded into a floating-point format as if the exponent were
unbounded (R104, R105). The bits run on past the largest finite value when it overflows. -/
def roundMag (f : Fmt) (rnd : Rnd) (m : Nat) (e : Int) : Nat :=
  if m = 0 then 0
  else
    let (_, mw, bias) := f.layout
    let q0 : Int := 1 - bias - mw
    let q : Int := max (e + m.log2 - mw) q0
    roundSteps rnd m e q + (q - q0).toNat * 2 ^ mw

/-- Rounded once to FP32, nearest even, overflow to infinity (R92, Table 3-4). -/
def FVal.toFp32 : FVal → W32
  | .nan => BitVec.ofNat 32 (Fmt.nanBits .fp32)
  | .inf neg => BitVec.ofNat 32 (Fmt.infBits .fp32 neg)
  | .fin neg m e =>
    let mag := roundMag .fp32 .nearest m e
    if mag > Fmt.largest .fp32 then BitVec.ofNat 32 (Fmt.infBits .fp32 neg)
    else BitVec.ofNat 32 (Fmt.signed .fp32 neg mag)

/-- The value of FP32 bits. -/
def fp32Val (x : W32) : FVal := Fmt.decode .fp32 x.toNat

/-- Exact sum (Table 3-4): a zero sum is +0 unless both addends are −0. -/
def FVal.add : FVal → FVal → FVal
  | .nan, _ => .nan
  | _, .nan => .nan
  | .inf a, .inf b => if a = b then .inf a else .nan
  | .inf a, _ => .inf a
  | _, .inf b => .inf b
  | .fin n1 m1 e1, .fin n2 m2 e2 =>
    let e := min e1 e2
    let x : Int := m1 * 2 ^ (e1 - e).toNat
    let y : Int := m2 * 2 ^ (e2 - e).toNat
    let z : Int := (if n1 then -x else x) + (if n2 then -y else y)
    if z = 0 then .fin (n1 && n2 && decide (m1 = 0) && decide (m2 = 0)) 0 e
    else .fin (decide (z < 0)) z.natAbs e

/-- Whether a value is a zero. -/
def FVal.isZero : FVal → Bool
  | .fin _ m _ => decide (m = 0)
  | _ => false

/-- Whether a value is a NaN. -/
def FVal.isNan : FVal → Bool
  | .nan => true
  | _ => false

/-- Whether a value is an infinity. -/
def FVal.isInf : FVal → Bool
  | .inf _ => true
  | _ => false

/-- The sign of a value. -/
def FVal.neg : FVal → Bool
  | .nan => false
  | .inf n => n
  | .fin n _ _ => n

/-- Exact product (R91, Table 3-4): a zero times an infinity is NaN, a zero product takes the
exclusive-or of the signs. -/
def FVal.mul : FVal → FVal → FVal
  | .nan, _ => .nan
  | _, .nan => .nan
  | .inf a, .inf b => .inf (a != b)
  | .inf a, .fin n m _ => if m = 0 then .nan else .inf (a != n)
  | .fin n m _, .inf b => if m = 0 then .nan else .inf (n != b)
  | .fin n1 m1 e1, .fin n2 m2 e2 => .fin (n1 != n2) (m1 * m2) (e1 + e2)

/-- The value of an E8M0 scale byte (R85). -/
def scaleVal (b : Byte) : FVal :=
  if b = 0xFF#8 then .nan else .fin false 1 ((b.toNat : Int) - 127)

/-- FP32 sum of two words, nearest even (R75, R92, R96). -/
def addFp32 (a b : W32) : W32 := (FVal.add (fp32Val a) (fp32Val b)).toFp32

/-- Fields of the conversion control byte (Table 3-7). -/
structure CvtCtl where
  hr  : Nat
  sat : Bool
  rnd : Nat
deriving DecidableEq, Repr

/-- The control byte's fields; none where R103 refuses it. -/
def CvtCtl.ofByte (b : Byte) : Option CvtCtl :=
  if fld b 7 5 ≠ 0 ∨ fld b 1 0 = 3 then none
  else some { hr := fld b 4 3, sat := b.getLsbD 2, rnd := fld b 1 0 }

/-- The rounding mode of a control byte, with the LFSR value for stochastic rounding. -/
def CvtCtl.mode (c : CvtCtl) (r : Nat) : Rnd :=
  if c.rnd = 0 then .nearest else if c.rnd = 1 then .zero else .stochastic r

/-- One converted element: its bits, whether it counts as SAT and whether as NAN (R108). -/
structure Elem where
  bits : Nat
  sat  : Bool
  nan  : Bool
deriving DecidableEq, Repr

/-- A rounded integer with its sign restored, saturated to `w` bits (R105); the flag says it
overflowed. -/
def satInt (w : Nat) (neg : Bool) (n : Nat) : Nat × Bool :=
  if neg then
    if n > 2 ^ (w - 1) then (2 ^ (w - 1), true)
    else ((2 ^ w - n) % 2 ^ w, false)
  else if n > 2 ^ (w - 1) - 1 then (2 ^ (w - 1) - 1, true) else (n, false)

/-- One FP32 value converted to a non-MX target (R104, R105, Table 3-8, R108). -/
def cvtElem (f : Fmt) (c : CvtCtl) (r : Nat) (x : W32) : Elem :=
  match f, fp32Val x with
  | .int8, .nan => { bits := 0, sat := false, nan := true }
  | .int8, .inf neg => { bits := if neg then 0x80 else 0x7F, sat := true, nan := false }
  | .int8, .fin neg m e =>
    let (b, o) := satInt 8 neg (roundSteps (c.mode r) m e 0)
    { bits := b, sat := o, nan := false }
  | f, .nan => { bits := f.nanBits, sat := false, nan := true }
  | f, .inf neg =>
    if f.top = .ieee then { bits := f.infBits neg, sat := false, nan := false }
    else { bits := if c.sat then f.signed neg f.largest else f.nanBits, sat := true, nan := false }
  | f, .fin neg m e =>
    let mag := roundMag f (c.mode r) m e
    if mag ≤ f.largest then { bits := f.signed neg mag, sat := false, nan := false }
    else if c.sat || decide (c.rnd = 1) then
      { bits := f.signed neg f.largest, sat := true, nan := false }
    else if f.top = .ieee then { bits := f.infBits neg, sat := true, nan := false }
    else { bits := f.nanBits, sat := true, nan := false }

/-- emax of the scale finder (R114). -/
def Fmt.emax : Fmt → Int
  | .mx8e4m3 => 8 | .mx8e5m2 => 15 | .mx6e2m3 => 2 | .mx6e3m2 => 4 | .mx4e2m1 => 2 | _ => 0

/-- ⌊log₂⌋ of the largest finite nonzero magnitude of a block, if any (R114). -/
def blockLog : List FVal → Option Int
  | [] => none
  | .fin _ m e :: t =>
    if m = 0 then blockLog t
    else match blockLog t with
      | none => some (e + m.log2)
      | some b => some (max (e + m.log2) b)
  | _ :: t => blockLog t

/-- The scale byte of a block and the scale exponent X, or none for the NaN scale (R114, R116,
R117). -/
def blockScale (f : Fmt) (c : CvtCtl) (vs : List FVal) : Byte × Option Int :=
  if vs.any FVal.isNan || (vs.any FVal.isInf && decide (f ≠ .mx8e5m2)) then (0xFF#8, none)
  else match blockLog vs with
    | none => (0x00#8, some (-127))
    | some l =>
      let x : Int := max (-127) (min 127 (l - f.emax + c.hr))
      (BitVec.ofNat 8 (x + 127).toNat, some x)

/-- One element of an MX block with scale exponent X (R115 to R117). -/
def mxElem (f : Fmt) (c : CvtCtl) (r : Nat) (x : Int) (v : FVal) : Elem :=
  match f, v with
  | _, .nan => { bits := 0, sat := false, nan := true }
  | f, .inf neg => { bits := f.infBits neg, sat := false, nan := false }
  | .mxint8, .fin neg m e =>
    let (b, o) := satInt 8 neg (roundSteps (c.mode r) m (e - x + 6) 0)
    { bits := b, sat := o, nan := false }
  | f, .fin neg m e =>
    let mag := roundMag f (c.mode r) m (e - x)
    if mag ≤ f.largest then { bits := f.signed neg mag, sat := false, nan := false }
    else { bits := f.signed neg f.largest, sat := true, nan := false }

/-- A block of FP32 values converted by the scale finder, with the LFSR value of each element
(R114 to R117, R110): the scale byte and the elements. -/
def mxBlock (f : Fmt) (c : CvtCtl) (rs : List Nat) (xs : List W32) : Byte × List Elem :=
  let vs := xs.map fp32Val
  match blockScale f c vs with
  | (b, some x) => (b, (vs.zip rs).map (fun p => mxElem f c p.2 x p.1))
  | (b, none) => (b, vs.map (fun v => { bits := 0, sat := v.isInf && decide (f ≠ .mx8e5m2), nan := v.isNan }))

/-- One step of the Galois LFSR (R109). -/
def lfsrStep (x : W32) : W32 :=
  if x.getLsbD 0 then (x >>> 1) ^^^ 0x80200003#32 else x >>> 1

/-- The LFSR values that `n` stochastic elements use, in order, and the state after them (R109,
R110); conversions in another mode use none. -/
def lfsrDraw (c : CvtCtl) : Nat → W32 → List Nat × W32
  | 0, x => ([], x)
  | n + 1, x =>
    if c.rnd = 2 then
      let (rs, y) := lfsrDraw c n (lfsrStep x)
      (x.toNat :: rs, y)
    else
      let (rs, y) := lfsrDraw c n x
      (0 :: rs, y)

/-- The LFSR state loaded at a step start (R111). -/
def lfsrSeed (seed ec : W64) (n : W32) : W32 :=
  let z := seed ^^^ (ec * 0x9E3779B97F4A7C15#64) ^^^ ((n.setWidth 64) <<< 32)
  let z := (z ^^^ (z >>> 30)) * 0xBF58476D1CE4E5B9#64
  let z := (z ^^^ (z >>> 27)) * 0x94D049BB133111EB#64
  let z := z ^^^ (z >>> 31)
  let st := z.setWidth 32 ^^^ (z >>> 32).setWidth 32
  if st = 0#32 then 1#32 else st

/-- Two elements widened to FP32, exactly (R160). -/
def upElem (f : Fmt) (x : Nat) : W32 := (f.decode x).toFp32

end Sys2Proof.Machine
end

