-- ==== Sys2Proof/Machine/Flags.lean ====
section
/-! DEFINITION. Condition bits: the comparisons of Table 4-6, and the completion bits NAN, INF and
SAT that LAT_STAT collects (R97, R108, R154). -/

namespace Sys2Proof.Machine

/-- Signed less than, as `cmp.lt` takes it. -/
def ltS (a b : W64) : Bool := a.slt b

/-- NAN and INF of a band's elements (R97). -/
def bandBits (xs : List W32) : Bool × Bool :=
  (xs.any (fun x => (fp32Val x).isNan), xs.any (fun x => (fp32Val x).isInf))

/-- SAT and NAN of converted elements (R108). -/
def cvtBits (es : List Elem) : Bool × Bool := (es.any Elem.sat, es.any Elem.nan)

/-- Bits ORed into LAT_STAT: lattice NAN and INF, conversion SAT and NAN (R154, Table 4-14). -/
def orStat (st : BitVec 4) (lnan linf csat cnan : Bool) : BitVec 4 :=
  st ||| bitMask 4 ((if lnan then [0] else []) ++ (if linf then [1] else []) ++
    (if csat then [2] else []) ++ (if cnan then [3] else []))

end Sys2Proof.Machine
end

