-- ==== Sys2Proof/Machine/Operands.lean ====
section
/-! DEFINITION. Operand forms of floret instructions: registers, predicates, guards, reserved
fields (R31, R122, R124), and the issue of an instruction (R33 to R38, R121 to R124, R166). -/

namespace Sys2Proof.Machine

/-! ### Registers -/

/-- A scalar register; s0 reads as zero (Table 2-1). -/
def Floret.rd (fl : Floret) (r : BitVec 5) : W64 :=
  if r = 0 then 0 else Tab.get 0 fl.sregs r.toNat

/-- Write a scalar register; s0 ignores writes (Table 2-1). -/
def Floret.wr (fl : Floret) (r : BitVec 5) (v : W64) : Floret :=
  if r = 0 then fl else { fl with sregs := Tab.set 0 fl.sregs r.toNat v }

/-- Predicate p of a predicate field. -/
def Floret.pred (fl : Floret) (p : BitVec 5) : Bool := fl.preds.getLsbD (p.toNat % 8)

/-- Write a predicate. -/
def Floret.setPred (fl : Floret) (p : BitVec 5) (b : Bool) : Floret :=
  { fl with preds := putBit fl.preds (p.toNat % 8) b }

/-- Mark a register as having a pending write (R37); s0 never has one. -/
def Floret.mark (fl : Floret) (r : BitVec 5) : Floret :=
  if r = 0 then fl else { fl with pend := putBit fl.pend r.toNat true }

/-- A pending write completes with value `v`. -/
def Floret.land (fl : Floret) (r : BitVec 5) (v : W64) : Floret :=
  let fl := fl.wr r v
  if r = 0 then fl else { fl with pend := putBit fl.pend r.toNat false }

/-- A pending write ends without a value (R138). -/
def Floret.unmark (fl : Floret) (r : BitVec 5) : Floret :=
  if r = 0 then fl else { fl with pend := putBit fl.pend r.toNat false }

/-- The guard's value (R122). -/
def Floret.guard (fl : Floret) (g : BitVec 4) : Bool :=
  if g = 0 then true
  else if g.getLsbD 3 then fl.preds.getLsbD (g.toNat % 8)
  else !fl.preds.getLsbD (g.toNat % 8)

/-- Whether a predicate field has a nonzero bit in [4:3] (R124). -/
def badPred (p : BitVec 5) : Bool := decide (p.toNat ≥ 8)

/-! ### Issue -/

/-- What an instruction does at issue: its effect with the PC moving on, its effect with a new PC,
a hold for a resource (BLOCKED), an operand hazard, a synchronous fault with its detail, or such a fault after a read
that its memory has counted (R42, R611). -/
inductive Issued where
  | ok (s : State)
  | jump (s : State) (pc : BitVec 20)
  | wait (s : State) (w : WaitWhy)
  | park (s : State)
  | halt (s : State)
  | hold (s : State) (w : BlockWhy)
  | hazard
  | fault (code : Nat) (detail : Option W64)
  | trap (s : State) (code : Nat) (detail : Option W64)
deriving DecidableEq, Repr

/-- A synchronous fault at the instruction at `pc`. -/
def State.syncFault (s : State) (x : Nat) (code : Nat) (pc : BitVec 20) (detail : Option W64) :
    State :=
  match detail with
  | some d => s.raise (spkOfFloret x) (floretNo x) .sync code pc d
  | none => s.raiseOpen (spkOfFloret x) (floretNo x) .sync code pc

/-- The spikelet's floret that issued last (R35). -/
def State.issuedBy (s : State) (x : Nat) : State :=
  s.setSpk (spkOfFloret x) { s.spk (spkOfFloret x) with lastIssue := floretNo x }

/-- The PC of a floret. -/
def State.setPc (s : State) (x : Nat) (pc : BitVec 20) : State :=
  s.setFloret x { s.floret x with pc := pc }

/-- The state of a floret. -/
def State.setStatus (s : State) (x : Nat) (st : FStatus) : State :=
  s.setFloret x { s.floret x with status := st }

/-- What an issue leaves behind. -/
def State.after (s : State) (x : Nat) (pc : BitVec 20) : Issued → State
  | .ok s' => (s'.setPc x (pc + 4)).issuedBy x
  | .jump s' t => (s'.setPc x t).issuedBy x
  | .wait s' w => ((s'.setPc x (pc + 4)).setStatus x (.waiting w)).issuedBy x
  | .park s' => ((s'.setPc x (pc + 4)).setStatus x .parked).issuedBy x
  | .halt s' => ((s'.setPc x (pc + 4)).setStatus x .halting).issuedBy x
  | .hold s' w => s'.setStatus x (.blocked w)
  | .hazard => s
  | .fault code d => s.syncFault x code pc d
  | .trap s' code d => s'.syncFault x code pc d

/-- The instruction-buffer line of a PC (R38). -/
def lineOf (pc : BitVec 20) : Nat := pc.toNat / 64

/-! ### Eligibility (R34, R35, R37, R123) -/

/-- Whether a tile is busy with a queued operation (R65). -/
def Spikelet.busy (sp : Spikelet) (tile : Nat) : Bool := sp.latQ.any (fun o => decide (fld o.sa 51 50 = tile))

/-- Whether a floret has a drain of a tile whose writes are not complete (R151, R37). -/
def Spikelet.draining (sp : Spikelet) (f : Fin 16) (tile : Nat) : Bool :=
  sp.drains.any (fun d => decide (d.floret = f) && decide (d.tile.val = tile))

/-- Whether a floret has a lattice operation or a drain that is not complete (R153). -/
def Spikelet.latPending (sp : Spikelet) (f : Fin 16) : Bool :=
  sp.latQ.any (fun o => o.floret = f) || sp.drains.any (fun d => d.floret = f)

/-- The word at a floret's PC in its panicle store (R121). -/
def State.fetchWord (s : State) (x : Nat) : W32 :=
  BitVec.ofNat 32 (ofLE (s.storeRead (panOfSpk (spkOfFloret x)) ((s.floret x).pc.toNat / 4 * 4) 4))

/-- Whether the word at a floret's PC has a reserved major or minor code (R124). -/
def State.badWord (s : State) (f : FloretId) : Bool := (decodeFloretWord f (s.fetchWord f.val)).isNone

/-- The scalar registers that an instruction word names (Tables 4-1, 4-3, 4-5 and 4-6). -/
def wordRegs (w : W32) : List (BitVec 5) :=
  let d : BitVec 5 := w.extractLsb' 17 5
  let a : BitVec 5 := w.extractLsb' 12 5
  let b : BitVec 5 := w.extractLsb' 7 5
  let minor := fld w 6 0
  match fld w 31 26 with
  | 0 => if 16 ≤ minor then [d, a] else [d, a, b]
  | 6 | 12 | 41 => [d]
  | 8 => if minor < 6 then [a, b] else if minor = 16 then [d] else if minor = 17 then [a] else []
  | 32 => if minor = 0 then [d, a] else if minor = 1 then [a, b] else if minor < 16 then [d, a, b] else []
  | 33 => [a, b]
  | 34 => if minor = 0 then [a] else []
  | 36 => if minor = 1 then [d, a, b] else if minor = 2 then [a, b] else if minor = 4 then [] else [d]
  | 40 => if minor < 32 then [a, b] else if minor = 32 then [d, a, b] else []
  | 42 => []
  | 44 => if minor = 2 then [a] else [a, b]
  | 48 => if minor = 96 then [a] else if minor / 32 = 1 then [d, a] else [d, a, b]
  | 56 => if minor = 0 then [d] else if minor = 2 then [a] else []
  | _ => [d, a]

/-- Whether a tile that an instruction word names has a pending write (R37): `lat.rd` and `lat.clr` name one, `lat.wait`
all of its floret's. -/
def Spikelet.wordTiles (sp : Spikelet) (f : Fin 16) (w : W32) : Bool :=
  match fld w 31 26 with
  | 41 | 42 => sp.busy (fld w 1 0) || sp.draining f (fld w 1 0)
  | 40 => decide (fld w 6 0 = 33) && sp.latPending f
  | _ => false

/-- Whether a floret is eligible (R34): RUNNABLE, its line in the instruction buffer, and no operand hazard of the word
at its PC. -/
def State.eligible (s : State) (x : Nat) : Bool :=
  let fl := s.floret x
  let sp := s.spk (spkOfFloret x)
  decide (fl.status = .runnable) && decide (fl.pc.toNat < 0x80000) && sp.ibuf.contains (lineOf fl.pc) &&
  !(wordRegs (s.fetchWord x)).any (fun r => fl.pend.getLsbD r.toNat) && !sp.wordTiles (floretNo x) (s.fetchWord x)

/-- Whether the search of R35 reaches floret `x` of its spikelet: no floret between the one that issued last and `x` is
eligible. -/
def State.turn (s : State) (x : Nat) : Bool :=
  let i := spkOfFloret x
  let last := (s.spk i).lastIssue.val
  (((List.range 16).map (fun k => (last + 1 + k) % 16)).takeWhile (fun n => decide (n ≠ (floretNo x).val))).all
    (fun n => !s.eligible (i * 16 + n))

/-- The issue of one instruction by floret `f` (R33 to R38, R121 to R124): a floret that is not
RUNNABLE does nothing; a fetch past the store raises FETCH, with the low 19 bits of its PC in the record, a choice
of this model (Table 4-17 holds no more); a line that is not in the instruction
buffer blocks the floret; a floret whose turn it is not does nothing (R35); a reserved code or field raises ILLEGAL
before the guard is looked at; a pending
write of a named register, or of a named tile (`hz`), holds the instruction; a false guard leaves only the move of the
PC. -/
def State.issueOn (s : State) (f : FloretId) (regs : List (BitVec 5)) (hz ill : Bool) (g : BitVec 4)
    (body : Floret → Issued) : State :=
  let x := f.val
  let fl := s.floret x
  if fl.status ≠ .runnable then s
  else if fl.pc.toNat ≥ 0x80000 then s.syncFault x 0x02 fl.pc (some (fl.pc.setWidth 64))
  else if !(s.spk (spkOfFloret x)).ibuf.contains (lineOf fl.pc) then
    s.setStatus x (.blocked (.ibuf (lineOf fl.pc)))
  else if !s.turn x then s
  else if ill || s.badWord f then s.syncFault x 0x01 fl.pc none
  else if regs.any (fun r => fl.pend.getLsbD r.toNat) || hz then s
  else if fl.guard g then s.after x fl.pc (body fl)
  else s.after x fl.pc (.ok s)

/-- The issue of an instruction that names no tile. -/
def State.issue (s : State) (f : FloretId) (regs : List (BitVec 5)) (ill : Bool) (g : BitVec 4)
    (body : Floret → Issued) : State := s.issueOn f regs false ill g body

/-- A floret that waits for its bank may read TURN_HINT and park (R48): such an instruction issues as from RUNNABLE, and
the floret stays BLOCKED unless it leaves that state. -/
def State.whileBlocked (s : State) (f : FloretId) (go : State → State) : State :=
  if (s.floret f.val).status = .blocked .bank then
    let t := go (s.setStatus f.val .runnable)
    if (t.floret f.val).status = .runnable then t.setStatus f.val (.blocked .bank) else t
  else go s

/-- The lowest code among the synchronous faults that an instruction meets (R166). -/
def firstFault : List (Bool × Nat × Option W64) → Option (Nat × Option W64)
  | [] => none
  | (b, c, d) :: t =>
    match b, firstFault t with
    | true, some (c', d') => if c' < c then some (c', d') else some (c, d)
    | true, none => some (c, d)
    | false, r => r

/-- The instruction's effect unless a check fails (R165, R166). -/
def checked (cs : List (Bool × Nat × Option W64)) (r : Unit → Issued) : Issued :=
  match firstFault cs with
  | some (c, d) => .fault c d
  | none => r ()

/-- A result written to s_d in the issuing floret. -/
def State.wrReg (s : State) (f : FloretId) (d : BitVec 5) (v : W64) : State :=
  s.setFloret f.val ((s.floret f.val).wr d v)

/-- The shape of `op sd, sa, sb`. -/
def State.regOp (s : State) (f : FloretId) (g : BitVec 4) (d a b : BitVec 5)
    (op : W64 → W64 → W64) : State :=
  s.issue f [d, a, b] false g (fun fl => .ok (s.wrReg f d (op (fl.rd a) (fl.rd b))))

/-- The shape of `op sd, sa` with a b field that must be 0 (R124). -/
def State.regOp1 (s : State) (f : FloretId) (g : BitVec 4) (d a b : BitVec 5) (op : W64 → W64) :
    State :=
  s.issue f [d, a] (decide (b ≠ 0)) g (fun fl => .ok (s.wrReg f d (op (fl.rd a))))

/-- The shape of `op sd, sa, imm12`. -/
def State.immOp (s : State) (f : FloretId) (g : BitVec 4) (d a : BitVec 5) (ill : Bool)
    (op : W64 → W64) : State :=
  s.issue f [d, a] ill g (fun fl => .ok (s.wrReg f d (op (fl.rd a))))

/-- The shape of `cmp.c pd, sa, sb`. -/
def State.cmpOp (s : State) (f : FloretId) (g : BitVec 4) (d a b : BitVec 5)
    (op : W64 → W64 → Bool) : State :=
  s.issue f [a, b] (badPred d) g (fun fl =>
    .ok (s.setFloret f.val (fl.setPred d (op (fl.rd a) (fl.rd b)))))

/-- The shape of `op pd, pa, pb`. -/
def State.predOp (s : State) (f : FloretId) (g : BitVec 4) (d a b : BitVec 5)
    (op : Bool → Bool → Bool) : State :=
  s.issue f [] (badPred d || badPred a || badPred b) g (fun fl =>
    .ok (s.setFloret f.val (fl.setPred d (op (fl.pred a) (fl.pred b)))))

end Sys2Proof.Machine
end

