-- ==== Sys2Proof/Machine/Translate.lean ====
section
/-! DEFINITION. Page tables, the translation units and their TLBs (R172, R177 to R184). -/

namespace Sys2Proof.Machine

/-- First address past the granary (Table 5-1). -/
def granaryEnd : Nat := 0x18000000000

/-- A granary physical address as stack and stack-local address (R218). -/
def hashPa (pa : Nat) : Nat × Nat :=
  let g := pa / 4096
  let q := g / 24
  let h := ((q ^^^ (q >>> 5)) ^^^ ((q >>> 10) ^^^ ((q >>> 15) ^^^ (q >>> 20)))) % 32
  ((g % 24 + h) % 24, q * 4096 + pa % 4096)

/-- The granary physical address of a stack-local address, the inverse of R218. -/
def unhash (n la : Nat) : Nat :=
  let q := la / 4096
  let h := ((q ^^^ (q >>> 5)) ^^^ ((q >>> 10) ^^^ ((q >>> 15) ^^^ (q >>> 20)))) % 32
  (q * 24 + (n + 48 - h) % 24) * 4096 + la % 4096

/-- Stack of a granary physical address (R218). -/
def stackOfPa (pa : Nat) : Nat := (hashPa pa).1

/-- A line's entry in the run-ahead buffer is invalidated (R249). -/
def State.pfDrop (s : State) (n : Nat) (line : BitVec 30) : State :=
  let k := s.stack n
  s.setStack n { k with pfBuf := k.pfBuf.filter (· ≠ line) }

/-- Whether no run-ahead prefetcher holds a line. -/
def State.unbuffered (s : State) : Bool := s.grn.ctrls.all (fun e => e.2.pfBuf.isEmpty)

/-- Entries of the run-ahead buffers for lines that `n` bytes at a granary address touch are invalidated (R249). -/
def State.pfForget (s : State) (a n : Nat) : State :=
  if s.unbuffered then s
  else (List.range 24).foldl (fun s k =>
    let x := s.stack k
    s.setStack k { x with pfBuf := x.pfBuf.filter (fun l =>
      let b := unhash k (l.toNat * 64)
      !(decide (a < b + 64) && decide (b < a + n))) }) s

/-- Bytes written at a granary address by the package itself, as any write is performed there (R249). -/
def State.paPut (s : State) (a : Nat) (bs : List Byte) : State := (s.write a bs).pfForget a bs.length

/-- Kinds of a 44-bit context address (Table 5-2). -/
inductive CtxAddr where
  | virtual
  | bank (i : Nat) (off : Nat)
  | store (p : Nat) (off : Nat)
  | badPanicle
  | other
deriving DecidableEq, Repr

/-- Where a LOCAL address of a context leads (Tables 5-1 and 5-2, R170). -/
def ctxAddr (a : Nat) : CtxAddr :=
  if a < 0x80000000000 then .virtual
  else if a < 0x80200000000 then
    let p := fieldOf a 29 22
    if p ≥ 192 then .badPanicle
    else .bank (fieldOf a 32 30 * 12288 + p * 64 + fieldOf a 21 16) (a % 65536)
  else if 0x90000000000 ≤ a ∧ a < 0x90040000000 then
    let p := fieldOf a 26 19
    if p ≥ 192 then .badPanicle else .store (fieldOf a 29 27 * 192 + p) (a % 524288)
  else .other

/-- Whether some granary line of `n` bytes from `a` is uncorrectable (R239). -/
def State.lineUe (s : State) (a n : Nat) : Bool :=
  (List.range ((a + n + 63) / 64 - a / 64)).any (fun k =>
    Tab.get none s.mem.line (a / 64 + k) == some true)

/-- What a translation comes to. -/
inductive Xlat where
  | pa (a : Nat)
  | refuse (status : Nat)
  | far
  | miss
deriving DecidableEq, Repr

/-- A leaf that a walk has reached: its page size in address bits, its value and its address. -/
structure Leaf where
  size : Nat
  pte  : W64
  at_  : Nat
deriving DecidableEq, Repr

/-- What a walk finds. -/
inductive Walk where
  | leaf (l : Leaf)
  | refuse (status : Nat)
deriving DecidableEq, Repr

/-- ADDR of a page-table entry (Table 5-4). -/
def pteAddr (e : W64) : Nat := fld e 43 0

/-- A page-table entry at level 1, 2 or 3 read at `a`: an uncorrectable read is ECC_UE (R181), an
invalid or malformed entry TRANSLATION (R178, R179). The levels below are `next`. -/
def State.walkAt (s : State) (a size : Nat) (nextAlign : Option Nat) (next : Nat → Walk) : Walk :=
  if s.lineUe a 8 then .refuse 4
  else
    let e := BitVec.ofNat 64 (ofLE (s.read a 8))
    let far := e.getLsbD 59
    if !e.getLsbD 63 then .refuse 3
    else if e.getLsbD 62 then
      if far then
        if size = 16 ∧ pteAddr e % 2 ^ size = 0 then .leaf { size := 16, pte := e, at_ := a } else .refuse 3
      else if pteAddr e % 2 ^ size ≠ 0 ∨ pteAddr e ≥ granaryEnd then .refuse 3
      else .leaf { size := size, pte := e, at_ := a }
    else match nextAlign with
      | none => .refuse 3
      | some al =>
        if pteAddr e % al ≠ 0 ∨ pteAddr e ≥ granaryEnd then .refuse 3 else next (pteAddr e)

/-- A walk of a context's tables (R177); a context without tables is refused (R176). -/
def State.walk (s : State) (ctx : BitVec 12) (va : Nat) : Walk :=
  let c := s.ctx ctx.toNat
  if c.st = .free then .refuse 3
  else
    s.walkAt (c.l1 + 8 * fieldOf va 42 30) 30 (some 4096) (fun t2 =>
      s.walkAt (t2 + 8 * fieldOf va 29 21) 21 (some 256) (fun t3 =>
        s.walkAt (t3 + 8 * fieldOf va 20 16) 16 none (fun _ => .refuse 3)))

/-- The TLB entry that serves an address (R183). -/
def tlbFind (l : List TlbEntry) (ctx : BitVec 12) (gen : BitVec 8) (va : Nat) : Option TlbEntry :=
  l.find? (fun e => decide (e.ctx = ctx) && decide (e.gen = gen) && decide (e.vpn = va / 2 ^ e.size))

/-- An entry put first; beyond 64 entries the least recently used is dropped (R183). -/
def tlbPut (l : List TlbEntry) (e : TlbEntry) : List TlbEntry :=
  (e :: l.filter (fun x => !(decide (x.ctx = e.ctx) && decide (x.gen = e.gen) &&
    decide (x.size = e.size) && decide (x.vpn = e.vpn)))).take 64

/-- The access through a cached leaf: permissions (R180), then D for a write (R182). When the leaf
has changed since the walk, the entry is discarded and the walk is made again. -/
def State.useTlb (s : State) (p : Nat) (e : TlbEntry) (va : Nat) (write : Bool) : State × Xlat :=
  if !e.pte.getLsbD 61 || (write && !e.pte.getLsbD 60) then (s, .refuse 3)
  else
    let a := pteAddr e.pte + va % 2 ^ e.size
    if write && !e.pte.getLsbD 57 then
      if ofLE (s.read e.leafAt 8) = e.pte.toNat then
        let e' := { e with pte := putBit e.pte 57 true }
        let s := s.paPut e.leafAt (toLE 8 e'.pte.toNat)
        (s.setPan p { s.pan p with tlb := tlbPut (s.pan p).tlb e' }, .pa a)
      else (s.setPan p { s.pan p with tlb := (s.pan p).tlb.filter (· ≠ e) }, .miss)
    else (s.setPan p { s.pan p with tlb := tlbPut (s.pan p).tlb e }, .pa a)

/-- Add one to a counter of a panicle. -/
def State.count (s : State) (p : Nat) (g : PanCounters → PanCounters) : State :=
  s.setPan p { s.pan p with ctr := g (s.pan p).ctr }

/-- A lookup in a panicle's TLB (R184): a hit translates, a miss asks for a walk. -/
def State.tlbLookup (s : State) (p : Nat) (ctx : BitVec 12) (gen : BitVec 8) (va : Nat)
    (write : Bool) : State × Xlat :=
  match tlbFind (s.pan p).tlb ctx gen va with
  | some e =>
    let s := s.count p (fun c => { c with xlHit := satAdd c.xlHit 1 })
    s.useTlb p e va write
  | none => (s, .miss)

/-- The end of a walk for an access: the leaf is cached unless it is far (R183), then used. -/
def State.endWalk (s : State) (p : Nat) (ctx : BitVec 12) (gen : BitVec 8) (va : Nat)
    (write : Bool) : State × Xlat :=
  if (s.ctx ctx.toNat).gen ≠ gen then (s, .refuse 2)
  else match s.walk ctx va with
    | .refuse st => (s, .refuse st)
    | .leaf l =>
      if l.pte.getLsbD 59 then
        if !l.pte.getLsbD 61 || (write && !l.pte.getLsbD 60) then (s, .refuse 3)
        else (s.count p (fun c => { c with xlFar := satAdd c.xlFar 1 }),
          if (s.ctx ctx.toNat).farPool.isEmpty then .refuse 3 else .far)
      else s.useTlb p
        { ctx := ctx, gen := gen, size := l.size, vpn := va / 2 ^ l.size, pte := l.pte,
          leafAt := l.at_ } va write

/-- A far miss is posted to the steward; misses of one page are merged (R200). -/
def State.postFar (s : State) (ctx : BitVec 12) (va : Nat) : State :=
  let page := va / 65536 * 65536
  if s.host.farMisses.any (fun m => decide (m.ctx = ctx) && decide (m.va = page)) then s
  else { s with host := { s.host with farMisses := s.host.farMisses ++
    [{ ctx := ctx, va := page, at_ := s.refcnt }] } }

/-- An access reached a far page: it enters the panicle's far-wait list of 16, or waits behind it in
order (R200). -/
def State.holdFar (s : State) (p : Nat) (x : Xl) : State :=
  let pn := s.pan p
  if pn.farWait.any (fun y => y.who = x.who) || pn.farMore.any (fun y => y.who = x.who) then s
  else if pn.farWait.length < 16 then
    (s.setPan p { pn with farWait := pn.farWait ++ [x] }).postFar x.ctx x.va
  else s.setPan p { pn with farMore := pn.farMore ++ [x] }

/-- A miss asks for a walk: at most 4 run at once, the others wait in order (R184). -/
def State.askWalk (s : State) (p : Nat) (x : Xl) : State :=
  let pn := s.pan p
  if pn.walks.length < 4 then
    s.setPan p { pn with walks := pn.walks ++ [x], ctr := { pn.ctr with xlMiss := satAdd pn.ctr.xlMiss 1 } }
  else s.setPan p { pn with misses := pn.misses ++ [x] }

/-- The oldest miss that waits takes the place of a walk that ended (R184). -/
def State.nextWalk (s : State) (p : Nat) : State :=
  let pn := s.pan p
  match pn.misses with
  | [] => s
  | x :: rest =>
    if pn.walks.length < 4 then
      s.setPan p { pn with
        walks := pn.walks ++ [x], misses := rest
        ctr := { pn.ctr with xlMiss := satAdd pn.ctr.xlMiss 1 } }
    else s

/-- The misses that wait take the places of several walks that ended (R184). -/
def State.nextWalks (s : State) (p : Nat) : State := (List.range 4).foldl (fun s _ => s.nextWalk p) s

/-- Accesses that wait behind a far-wait list enter it as it has room (R200). -/
def State.refillFar (s : State) (p : Nat) : Nat → State
  | 0 => s
  | k + 1 =>
    let pn := s.pan p
    match pn.farMore with
    | [] => s
    | x :: rest =>
      if pn.farWait.length < 16 then
        ((s.setPan p { pn with farWait := pn.farWait ++ [x], farMore := rest }).postFar x.ctx x.va).refillFar p k
      else s

/-- The translations in progress of a panicle that `keep` does not keep are given up: the misses that wait take the
places of their walks (R184), and far accesses that wait their places in the far-wait list (R200). -/
def State.keepXl (s : State) (p : Nat) (keep : Xl → Bool) : State :=
  let pn := s.pan p
  ((s.setPan p { pn with
    walks := pn.walks.filter keep, misses := pn.misses.filter keep
    farWait := pn.farWait.filter keep, farMore := pn.farMore.filter keep }).nextWalks p).refillFar p 16

/-! ### Accesses that wait for their translation -/

/-- What a translation comes to for an access that can wait and try again. -/
inductive XlStep where
  | at_ (pa room : Nat)
  | no (status : Nat)
  | wait
deriving DecidableEq, Repr

/-- Bytes from a virtual address to the end of its page, as the TLB has it; a 64 KiB page where it does not. -/
def State.pageRoom (s : State) (p : Nat) (x : Xl) : Nat :=
  match tlbFind (s.pan p).tlb x.ctx x.gen x.va with
  | some e => 2 ^ e.size - x.va % 2 ^ e.size
  | none => 65536 - x.va % 65536

/-- The translation of an access that tries again once it can go on (R184, R200): `got` is what a translation that it
waited for came to; else a hit translates, and a miss asks for a walk, once. -/
def State.xlStep (s : State) (p : Nat) (x : Xl) (got : Option (Nat × XlGot)) : State × XlStep :=
  match got with
  | some (_, .at_ a r) => (s, .at_ a r)
  | some (_, .no st) => (s, .no st)
  | none =>
    let pn := s.pan p
    if (pn.walks ++ pn.misses ++ pn.farWait ++ pn.farMore).any (fun y => y.who = x.who) then (s, .wait)
    else match s.tlbLookup p x.ctx x.gen x.va x.write with
      | (s, .pa a) => (s, .at_ a (s.pageRoom p x))
      | (s, .refuse st) => (s, .no st)
      | (s, _) => (s.askWalk p x, .wait)

/-- What is kept of a translation for an access that tries again: only the result of its own address serves it. -/
def xlFor (got : Option (Nat × XlGot)) (va : Nat) : Option (Nat × XlGot) :=
  match got with
  | some (v, r) => if v = va then some (v, r) else none
  | none => none

/-- Whether the granary controller of a physical address answers DOMAIN_RESETTING (R224). -/
def State.paResetting (s : State) (pa : Nat) : Bool :=
  s.domResetting (16 + (hashPa pa).1) || (Tab.get {} s.grn.ctrls ((hashPa pa).1)).resetting

/-- Whether a prepared bundle holds a granary line that `n` bytes at a physical address touch (R386). -/
def State.paHeld (s : State) (pa n : Nat) : Bool := (linesOf pa n).any (fun l => s.lineHeld ((hashPa pa).1) l)

end Sys2Proof.Machine
end

