-- ==== Sys2Proof/Machine/BankAccess.lean ====
section
/-! DEFINITION. Bank and panicle-store accesses of florets, the grant of a bank access, and the spill
buffer (R131 to R133, R165, R192 to R198, R161). -/

namespace Sys2Proof.Machine

/-- The address s_a + imm12, sign-extended (R131, R132). -/
def Floret.ea (fl : Floret) (a : BitVec 5) (imm : BitVec 12) : W64 := fl.rd a + imm.signExtend 64

/-- The row of a bank offset relative to a floret's window when it lies in the spilled part
(R193). -/
def Floret.spilled (fl : Floret) (off : Nat) : Option Nat :=
  let row := off / 128
  let r := row - fl.lwBase.toNat
  if fl.lwBase.toNat ≤ row ∧ fl.lwRes.toNat ≤ r ∧ r < fl.lwRows.toNat then some r else none

/-- Context virtual address of a spill row (R194). -/
def State.spillVa (s : State) (i : Nat) (f : Fin 16) (row : Nat) : Nat :=
  (s.ctx (s.spk i).owner.1.toNat).spb.toNat + (i * 16 + f.val) * 8192 + row * 128

/-- The floret whose spill area holds a virtual address of a context (R194), or none. -/
def State.spillOwner (s : State) (ctx : BitVec 12) (va : Nat) : Option Nat :=
  let b := (s.ctx ctx.toNat).spb.toNat
  if va < b ∨ 1572864 ≤ (va - b) / 8192 then none else some ((va - b) / 8192)

/-- Whether a floret runs in a context: it is not IDLE (R198). -/
def State.runsIn (s : State) (ctx : BitVec 12) (f : Nat) : Bool :=
  decide ((s.floret f).status ≠ .idle) && decide ((s.spk (spkOfFloret f)).owner.1 = ctx)

/-- Whether an access of `n` bytes at a virtual address touches the spill area of a running floret
other than the one that makes it (R198). -/
def State.spillPrivate (s : State) (ctx : BitVec 12) (va n : Nat) (self : Option Nat) : Bool :=
  [s.spillOwner ctx va, s.spillOwner ctx (va + n - 1)].any (fun o => match o with
    | some f => s.runsIn ctx f && decide (o ≠ self)
    | none => false)

/-- Bytes that an access at a virtual address returns: those read, or open ones where the area is another
running floret's (R198). -/
def State.seenBytes (s : State) (hidden : Bool) (bs : List Byte) : State × List Byte :=
  if hidden then ((s.drawBytes bs.length).2, (s.drawBytes bs.length).1) else (s, bs)

/-- `bytes` bytes at `off` of a row, as a 64-bit value. -/
def rowWord (data : List Byte) (off bytes : Nat) : W64 := BitVec.ofNat 64 (leAt data off bytes)

/-- Bytes of a row replaced. -/
def rowPut (data : List Byte) (off : Nat) (bs : List Byte) : List Byte :=
  data.take off ++ bs ++ data.drop (off + bs.length)

/-- A spilled access that hits (R195): the entry becomes the most recently used; a load's value
lands, a store makes the entry dirty. -/
def State.spillHit (s : State) (x : Nat) (e : SpillEntry) (m : SpillMiss) : State :=
  let i := spkOfFloret x
  let e' := match m.store with
    | some v => { e with dirty := true, data := rowPut e.data m.off (toLE m.bytes v.toNat) }
    | none => e
  let sp := s.spk i
  let s := s.setSpk i { sp with
    spill := e' :: sp.spill.filter (fun y => !(decide (y.floret = e.floret) && decide (y.row = e.row))) }
  match m.store with
  | some _ => s
  | none => s.setFloret x ((s.floret x).wr m.dst (rowWord e.data m.off m.bytes))

/-- The entry of the spill buffer that holds a row. -/
def spillFind (l : List SpillEntry) (f : Fin 16) (row : Nat) : Option SpillEntry :=
  l.find? (fun e => decide (e.floret = f) && decide (e.row = row))

/-- Whether a fill must write a victim back (R195). -/
def spillDirtyVictim (l : List SpillEntry) : Bool :=
  decide (l.length ≥ 4) && (match l.getLast? with
    | some e => e.dirty
    | none => false)

/-- A spilled access (R193, R195): a hit completes; a miss takes a slot, and one more for a dirty
victim, and blocks the floret. -/
def State.spillAccess (s : State) (x : Nat) (pc : BitVec 20) (m : SpillMiss) : Issued :=
  let i := spkOfFloret x
  let f := floretNo x
  let p := panOfSpk i
  match spillFind (s.spk i).spill f m.row with
  | some e => .ok ((s.count p (fun c => { c with spHit := satAdd c.spHit 1 })).spillHit x e m)
  | none =>
    let need := if spillDirtyVictim (s.spk i).spill then 2 else 1
    if (s.spk i).out + need > 64 ∨ (s.spk i).outOf f + need > 4 then .hold s .slot
    else
      let s := (List.range need).foldl (fun s _ =>
        match (s.spk i).freeSlot with
        | some n => s.putSlot i n { floret := f, kind := .spill, pc := pc }
        | none => s) s
      let s := s.count p (fun c => { c with spMiss := satAdd c.spMiss 1 })
      .hold (s.setFloret x { s.floret x with miss := some m, xl := none }) .spill

/-- The spilled rows of a floret's window that `n` bytes at a bank offset touch (R193). -/
def Floret.spilledRows (fl : Floret) (off n : Nat) : List Nat :=
  (rowsOf off n).filterMap (fun r => fl.spilled (r * 128))

/-- An instruction that touches several rows brings the spilled ones among them into the spill buffer, one after the
other (R193, R195), and goes on once all are there; `rows` are the spilled rows and `go` what it then does. -/
def State.withSpill (s : State) (x : Nat) (pc : BitVec 20) (rows : List Nat) (go : Unit → Issued) : Issued :=
  match rows.find? (fun r => (spillFind (s.spk (spkOfFloret x)).spill (floretNo x) r).isNone) with
  | some r => s.spillAccess x pc { row := r, off := 0, bytes := 0, dst := 0, store := none, touch := true }
  | none => go ()

/-- The spilled accesses of such an instruction are counted as hits, but for rows that missed (R215). -/
def State.countSpill (s : State) (x : Nat) (rows : List Nat) : State :=
  let fl := s.floret x
  let hits := (rows.filter (fun r => !fl.filled.contains r)).length
  (s.setFloret x { fl with filled := [] }).count (panOfSpk (spkOfFloret x)) (fun c => { c with spHit := satAdd c.spHit hits })

/-- Bytes as a floret's own bank accesses see them: rows of the spilled part of its window from the spill buffer, the
others from the bank (R193). -/
def State.ownRead (s : State) (x off n : Nat) : List Byte :=
  let i := spkOfFloret x
  (List.range n).map (fun k => match (s.floret x).spilled (off + k) with
    | some r => match spillFind (s.spk i).spill (floretNo x) r with
      | some e => (slice e.data ((off + k) % 128) 1).headD 0
      | none => 0
    | none => s.bankByte i (off + k))

/-- Rows of the bank, not of the spilled part of a floret's window, that `n` bytes at an offset touch. -/
def Floret.bankRows (fl : Floret) (off n : Nat) : List Nat := (rowsOf off n).filter (fun r => (fl.spilled (r * 128)).isNone)

/-- The check of R42 on the rows of `l` that are no shadow rows, which fail otherwise (R52). -/
def State.checkList (s : State) (i : Nat) (l : List Nat) : State × Bool :=
  (l.filter (fun r => !(s.spk i).shadow.getLsbD r)).foldl
    (fun p r => let q := p.1.checkRow i r; (q.1, p.2 || q.2)) (s, false)

/-- A request enters the florets' class of the bank (R45), numbered in the spikelet's issue order. -/
def State.bankPush (s : State) (i : Nat) (r : BankReq) : State :=
  let sp := s.spk i
  s.setSpk i { sp with bankQ := sp.bankQ ++ [{ r with order := sp.order }], order := sp.order + 1 }

/-- A bank access of a load or store (R131, R133, R193): checked at issue, then spilled or queued for
the bank. -/
def State.bankAccess (s : State) (f : FloretId) (fl : Floret) (ea : W64) (bytes : Nat)
    (d : BitVec 5) (store : Option W64) : Issued :=
  checked [(decide (fld ea 63 16 ≠ 0), 0x04, some ea),
      (decide (ea.toNat % bytes ≠ 0), 0x03, some ea)] (fun _ =>
    match fl.spilled ea.toNat with
    | some r => s.spillAccess f.val fl.pc
        { row := r, off := ea.toNat % 128, bytes := bytes, dst := d, store := store }
    | none =>
      let i := spkOfFloret f.val
      match store with
      | some v => .ok (s.bankPush i
          { floret := floretNo f.val, pc := fl.pc, off := ea.toNat, op := .store v bytes })
      | none => .ok ((s.setFloret f.val (fl.mark d)).bankPush i
          { floret := floretNo f.val, pc := fl.pc, off := ea.toNat, op := .load d bytes }))

/-- The shape of `ld.uN sd, imm12(sa)`. -/
def State.ldOp (s : State) (f : FloretId) (g : BitVec 4) (d a : BitVec 5) (imm : BitVec 12)
    (bytes : Nat) : State :=
  s.issue f [d, a] false g (fun fl => s.bankAccess f fl (fl.ea a imm) bytes d none)

/-- The shape of `st.N sd, imm12(sa)`. -/
def State.stOp (s : State) (f : FloretId) (g : BitVec 4) (d a : BitVec 5) (imm : BitVec 12)
    (bytes : Nat) : State :=
  s.issue f [d, a] false g (fun fl => s.bankAccess f fl (fl.ea a imm) bytes d (some (fl.rd d)))

/-- `ld.u8` (R131). -/
def execLdU8 (f : FloretId) (g : BitVec 4) (d a : BitVec 5) (imm : BitVec 12) (s : State) : Out :=
  .next (s.ldOp f g d a imm 1)

/-- `ld.u16` (R131). -/
def execLdU16 (f : FloretId) (g : BitVec 4) (d a : BitVec 5) (imm : BitVec 12) (s : State) : Out :=
  .next (s.ldOp f g d a imm 2)

/-- `ld.u32` (R131). -/
def execLdU32 (f : FloretId) (g : BitVec 4) (d a : BitVec 5) (imm : BitVec 12) (s : State) : Out :=
  .next (s.ldOp f g d a imm 4)

/-- `ld.64` (R131). -/
def execLd64 (f : FloretId) (g : BitVec 4) (d a : BitVec 5) (imm : BitVec 12) (s : State) : Out :=
  .next (s.ldOp f g d a imm 8)

/-- `st.8` (R131). -/
def execSt8 (f : FloretId) (g : BitVec 4) (d a : BitVec 5) (imm : BitVec 12) (s : State) : Out :=
  .next (s.stOp f g d a imm 1)

/-- `st.16` (R131). -/
def execSt16 (f : FloretId) (g : BitVec 4) (d a : BitVec 5) (imm : BitVec 12) (s : State) : Out :=
  .next (s.stOp f g d a imm 2)

/-- `st.32` (R131). -/
def execSt32 (f : FloretId) (g : BitVec 4) (d a : BitVec 5) (imm : BitVec 12) (s : State) : Out :=
  .next (s.stOp f g d a imm 4)

/-- `st.64` (R131). -/
def execSt64 (f : FloretId) (g : BitVec 4) (d a : BitVec 5) (imm : BitVec 12) (s : State) : Out :=
  .next (s.stOp f g d a imm 8)

/-- A panicle-store load of the floret's own panicle (R132, R611). -/
def State.psLoad (s : State) (f : FloretId) (g : BitVec 4) (d a : BitVec 5) (imm : BitVec 12)
    (bytes : Nat) : State :=
  s.issue f [d, a] false g (fun fl =>
    let ea := fl.ea a imm
    let p := panOfSpk (spkOfFloret f.val)
    checked [(decide (fld ea 63 19 ≠ 0), 0x05, some ea),
        (decide (ea.toNat % bytes ≠ 0), 0x03, some ea)] (fun _ =>
      if s.storeHeld p ea.toNat bytes then .hazard else
      let (s, ue) := s.checkStore p ea.toNat bytes
      if ue then .trap s 0x07 (some ea)
      else .ok (s.wrReg f d (BitVec.ofNat 64 (ofLE (s.storeRead p ea.toNat bytes))))))

/-- A panicle-store store of the floret's own panicle (R132, R611): a word covered in part is read
first. -/
def State.psStore (s : State) (f : FloretId) (g : BitVec 4) (d a : BitVec 5) (imm : BitVec 12)
    (bytes : Nat) : State :=
  s.issue f [d, a] false g (fun fl =>
    let ea := fl.ea a imm
    let p := panOfSpk (spkOfFloret f.val)
    checked [(decide (fld ea 63 19 ≠ 0), 0x05, some ea),
        (decide (ea.toNat % bytes ≠ 0), 0x03, some ea)] (fun _ =>
      if s.storeHeld p ea.toNat bytes then .hazard else
      let (s, ue) := s.storeWrite p ea.toNat (toLE bytes (fl.rd d).toNat)
      if ue then .trap s 0x07 (some ea) else .ok (s.wakeCells (storeBase p + ea.toNat) bytes)))

/-- `ld.ps.32` (R132). -/
def execLdPs32 (f : FloretId) (g : BitVec 4) (d a : BitVec 5) (imm : BitVec 12) (s : State) : Out :=
  .next (s.psLoad f g d a imm 4)

/-- `ld.ps.64` (R132). -/
def execLdPs64 (f : FloretId) (g : BitVec 4) (d a : BitVec 5) (imm : BitVec 12) (s : State) : Out :=
  .next (s.psLoad f g d a imm 8)

/-- `st.ps.32` (R132). -/
def execStPs32 (f : FloretId) (g : BitVec 4) (d a : BitVec 5) (imm : BitVec 12) (s : State) : Out :=
  .next (s.psStore f g d a imm 4)

/-- `st.ps.64` (R132). -/
def execStPs64 (f : FloretId) (g : BitVec 4) (d a : BitVec 5) (imm : BitVec 12) (s : State) : Out :=
  .next (s.psStore f g d a imm 8)

/-! ### The grant -/

/-- FP32 words that bytes spell. -/
def fp32s : List Byte → List W32
  | a :: b :: c :: d :: t => BitVec.ofNat 32 (ofLE [a, b, c, d]) :: fp32s t
  | _ => []

/-- Elements packed at `w` bits each, little-endian (R159, R161). -/
def packBits (w : Nat) : List Nat → Nat
  | [] => 0
  | b :: bs => b % 2 ^ w + 2 ^ w * packBits w bs

/-- The output of `cvt.b` (R161): the bytes, each element in the bytes of R107, the scale byte of an MX target, and SAT
and NAN. -/
def cvtBlock (fmt : Fmt) (c : CvtCtl) (rs : List Nat) (xs : List W32) :
    List Byte × Option Byte × Bool × Bool :=
  if fmt.isMx then
    let (b, es) := mxBlock fmt c rs xs
    (es.flatMap (fun e => toLE fmt.bytes e.bits), some b, cvtBits es)
  else
    let es := (xs.zip rs).map (fun p => cvtElem fmt c p.2 p.1)
    (es.flatMap (fun e => toLE fmt.bytes e.bits), none, cvtBits es)

/-- The accesses that write `cvt.b`'s output of `n` bytes at a bank offset (R161): one for each row that it touches, and
the scale byte of an MX target. -/
def cvtOuts (off n : Nat) (scale : Option Nat) : List (Nat × Nat) :=
  (rowsOf off n).map (fun r => (Nat.max off (r * 128), Nat.min (off + n) (r * 128 + 128) - Nat.max off (r * 128))) ++
  scale.toList.map (fun a => (a, 1))

/-- The bytes of a conversion's output at one of its accesses: `at_` counts from the output's start, and the scale byte
stands behind the output. -/
def cvtFill (bs : List Byte) (sat nan : Bool) : Nat → List BankReq → List BankReq
  | _, [] => []
  | at_, r :: t => match r.op with
    | .out n _ last _ _ => { r with op := .out n (slice bs at_ n) last sat nan } :: cvtFill bs sat nan (at_ + n) t
    | _ => r :: cvtFill bs sat nan at_ t

/-- A write that may cover part of a word (R40): an uncorrectable word in a row read for it fails
the write; words it touches get new check bits. -/
def State.bankRmw (s : State) (i off : Nat) (bs : List Byte) : State × Bool :=
  if partialWord off bs.length then
    let (s, ue) := s.checkRows i off bs.length
    if ue then (s, true)
    else
      let s := s.bankWrite i off bs
      ((wordsOf off bs.length).foldl (fun s w => s.setEcc (bankBase i / 16 + w) none) s, false)
  else (s.bankWrite i off bs, false)

/-- The accesses of one instruction that still wait at the bank. -/
def Spikelet.rest (sp : Spikelet) (r : BankReq) : List BankReq :=
  sp.bankQ.filter (fun q => decide (q.floret = r.floret) && decide (q.order = r.order))

/-- The accesses of one instruction that still wait are not made. -/
def State.dropRest (s : State) (i : Nat) (r : BankReq) : State :=
  s.setSpk i { s.spk i with bankQ := (s.spk i).bankQ.filter (fun q =>
    !(decide (q.floret = r.floret) && decide (q.order = r.order))) }

/-- The served request of a floret: its effect, or a fault recorded with the access's own PC
(R52, R133, R165). The accesses of a `cvt.b` are served one by one, and after the one that faults it makes no other. -/
def State.serve (s : State) (i : Nat) (r : BankReq) : State :=
  let x := i * 16 + r.floret.val
  let fail := fun (s : State) (code addr : Nat) =>
    (s.dropRest i r).raise i r.floret .sync code r.pc (BitVec.ofNat 64 addr)
  match r.op with
  | .load d bytes =>
    if s.shadowHit i r.off bytes then fail s 0x08 r.off
    else
      let (s, ue) := s.checkRows i r.off bytes
      if ue then fail s 0x06 r.off
      else s.setFloret x ((s.floret x).land d (BitVec.ofNat 64 (ofLE (s.bankRead i r.off bytes))))
  | .store v bytes =>
    if s.shadowHit i r.off bytes then fail s 0x08 r.off
    else
      let (s, ue) := s.bankRmw i r.off (toLE bytes v.toNat)
      if ue then fail s 0x06 r.off else s.wakeCells (bankBase i + r.off) bytes
  | .cvt fc ctl rs =>
    match Fmt.ofCode fc, CvtCtl.ofByte ctl with
    | some fmt, some c =>
      if s.shadowHit i r.off 128 then fail s 0x08 r.off
      else
        let (s, ue) := s.checkRows i r.off 128
        if ue then fail s 0x06 r.off
        else
          let (bs, sc, sat, nan) := cvtBlock fmt c rs (fp32s (s.bankRead i r.off 128))
          let q := (s.spk i).bankQ
          let mine := fun (y : BankReq) => decide (y.floret = r.floret) && decide (y.order = r.order)
          s.setSpk i { s.spk i with
            bankQ := cvtFill (bs ++ sc.toList) sat nan 0 (q.filter mine) ++ q.filter (fun y => !mine y) }
    | _, _ => s
  | .out n bs last sat nan =>
    if s.shadowHit i r.off n then fail s 0x08 r.off
    else
      let (s, ue) := s.bankRmw i r.off bs
      if ue then fail s 0x06 r.off
      else
        let s := s.wakeCells (bankBase i + r.off) n
        let fl := s.floret x
        if last then s.setFloret x { fl with latStat := orStat fl.latStat false false sat nan } else s

/-- Whether an own-bank drain that the request's floret issued before it is not yet written
(R133). -/
def Spikelet.drainFirst (sp : Spikelet) (r : BankReq) : Bool :=
  sp.drains.any (fun d => decide (d.floret = r.floret) && decide (d.order < r.order) &&
    (match d.dst with
     | .bank _ => true
     | _ => false))

/-- Whether a floret has bank accesses or own-bank drains that are not done (R133). -/
def Spikelet.bankBusy (sp : Spikelet) (f : Fin 16) : Bool :=
  sp.bankQ.any (fun r => r.floret = f) || sp.drains.any (fun d => decide (d.floret = f) && (match d.dst with
    | .bank _ => true
    | _ => false))

/-- Whether a floret has bank stores that are not performed (R190). -/
def Spikelet.storesLeft (sp : Spikelet) (f : Fin 16) : Bool :=
  sp.bankQ.any (fun r => decide (r.floret = f) && (match r.op with
    | .load _ _ => false
    | _ => true))

/-- BANK_ACCESS_GRANT: the florets' class holds the grant of its bank, and the request at its head is served
(R45, R133, R165). A floret that was blocked for the bank goes on. -/
def execBankAccessGrant (i : SpkId) (hits : List EccHit) (s : State) : Out :=
  match (s.spk i.val).bankQ, (s.arb (.bank i)).holder with
  | r :: rest, some h =>
    if h.who ≠ 2 ∨ (s.spk i.val).drainFirst r = true then .next s else
    let s := s.setArb (.bank i) { s.arb (.bank i) with holder := none }
    let s := s.plant (bankBase i.val + r.off / 128 * 128) hits
    let s := s.setSpk i.val { s.spk i.val with bankQ := rest }
    let x := i.val * 16 + r.floret.val
    let s := if (s.floret x).status = .blocked .bank then s.setStatus x .runnable else s
    .next (s.serve i.val r)
  | _, _ => .next s

/-! ### Spill fills -/

/-- Free the spill slots of a floret. -/
def State.freeSpillSlots (s : State) (i : Nat) (f : Fin 16) : State :=
  ((s.spk i).slots.filter (fun e => match e.2 with
      | some x => decide (x.floret = f) && decide (x.kind = .spill)
      | none => false)).foldl (fun s e => s.freeSlotAt i e.1) s

/-- Where a spill fill or write-back leads: done at a physical address, failed with a reply status, or held. -/
inductive SpillEnd where
  | done (a : Nat)
  | fail (status : Nat)
  | wait
deriving DecidableEq, Repr

/-- The translation of a spill row for the access of floret `f`, and its home (R195, R197): a stack that is resetting
leaves the access to be made again (R137), a line of a prepared bundle holds it (R386). -/
def State.spillAt (s : State) (f : FloretId) (va : Nat) (write : Bool) : State × SpillEnd :=
  let i := spkOfFloret f.val
  let o := (s.spk i).owner
  let q := s.xlStep (panOfSpk i) { ctx := o.1, gen := o.2, va := va, write := write, who := .spill f }
    (xlFor (s.floret f.val).xl va)
  let keep := fun (x : Option (Nat × XlGot)) => q.1.setFloret f.val { q.1.floret f.val with xl := x }
  match q.2 with
  | .wait => (q.1, .wait)
  | .no st => (keep none, .fail st)
  | .at_ a r =>
    if q.1.paResetting a then
      let s := keep (some (va, .at_ a r))
      (s.setSpk i { s.spk i with slots := (s.spk i).slots.map (fun e => (e.1, e.2.map (fun y =>
        if y.floret = floretNo f.val ∧ y.kind = .spill then { y with drst := true } else y))) }, .wait)
    else if q.1.paHeld a 128 then (keep (some (va, .at_ a r)), .wait)
    else (keep none, .done a)

/-- One spill row written back to its area for the access of floret `f` (R195, R196). -/
def State.spillBack (s : State) (f : FloretId) (e : SpillEntry) : State × SpillEnd :=
  let i := spkOfFloret f.val
  match s.spillAt f (s.spillVa i e.floret e.row) true with
  | (s, .done a) =>
    let s := (s.count (panOfSpk i) (fun c => { c with spWb := satAdd c.spWb 1 })).paPut a e.data
    let s := s.setSpk i { s.spk i with spill := (s.spk i).spill.map (fun y =>
      if y.floret = e.floret ∧ y.row = e.row then { y with dirty := false } else y) }
    ({ s with mem := { s.mem with
      line := Tab.set none (Tab.set none s.mem.line (a / 64) none) (a / 64 + 1) none } }, .done a)
  | r => r

/-- A fill or write-back that did not succeed raises the remote fault of its failure, with the spill-area address
(R197). -/
def State.spillFail (s : State) (f : FloretId) (pc : BitVec 20) (st va : Nat) : State :=
  let i := spkOfFloret f.val
  (s.freeSpillSlots i (floretNo f.val)).raise i (floretNo f.val) .remote (statusFault st) pc (BitVec.ofNat 64 va)

/-- The missed row is read and the access completes (R195, R197); a row that was only to come lets the floret issue its
instruction again. -/
def State.spillFill (s : State) (f : FloretId) (pc : BitVec 20) (m : SpillMiss) : State :=
  let i := spkOfFloret f.val
  let n := floretNo f.val
  let va := s.spillVa i n m.row
  match s.spillAt f va false with
  | (s, .done a) =>
    if s.lineUe a 128 then s.spillFail f pc 4 va
    else
      let e : SpillEntry := { floret := n, row := m.row, dirty := false, data := s.read a 128 }
      let s := s.setSpk i { s.spk i with spill := (s.spk i).spill.take 3 }
      let s := (s.setFloret f.val { s.floret f.val with miss := none, status := .runnable }).freeSpillSlots i n
      if m.touch then
        let s := s.setSpk i { s.spk i with spill := e :: (s.spk i).spill }
        s.setFloret f.val { s.floret f.val with filled := m.row :: (s.floret f.val).filled }
      else State.after s f.val pc (.ok (s.spillHit f.val e m))
  | (s, .fail st) => s.spillFail f pc st va
  | (s, .wait) => s

/-- SPILL_FILL_DONE: the victim is written back if dirty, the row is read from the granary and the
access completes (R194, R195, R197). -/
def execSpillFillDone (f : FloretId) (s : State) : Out :=
  let i := spkOfFloret f.val
  let fl := s.floret f.val
  match fl.status, fl.miss with
  | .blocked .spill, some m =>
    let l := (s.spk i).spill
    match (if l.length ≥ 4 then l.getLast? else none) with
    | some e =>
      if e.dirty then
        match s.spillBack f e with
        | (s, .done _) => .next (s.spillFill f fl.pc m)
        | (s, .fail st) => .next (s.spillFail f fl.pc st (s.spillVa i e.floret e.row))
        | (s, .wait) => .next s
      else .next (s.spillFill f fl.pc m)
    | none => .next (s.spillFill f fl.pc m)
  | _, _ => .next s

end Sys2Proof.Machine
end

