-- ==== Sys2Proof/Machine/FloorMap.lean ====
section
/-! DEFINITION. The floor map: usable units and their count, its published bytes and its changes
(R20, R21, R450 to R454). -/

namespace Sys2Proof.Machine

/-- Whether a panicle is dead, itself or with its tiller (R452). -/
def Floor.panDead (m : Floor) (p : Nat) : Bool :=
  Tab.get false m.deadPan p || m.deadTil.getLsbD (tillerOfPan p)

/-- Whether a spikelet is dead, itself or with its panicle or tiller (R452). -/
def Floor.spkDead (m : Floor) (i : Nat) : Bool :=
  Tab.get false m.deadSpk i || m.panDead (panOfSpk i)

/-- Dead channels of a stack; a dead stack has all 32 dead (R452). -/
def Floor.channels (m : Floor) (n : Nat) : BitVec 32 :=
  if m.deadStack.getLsbD n then 0xFFFFFFFF else Tab.get 0 m.deadChan n

/-- Usable spikelets (R3, R452). -/
def Floor.usable (m : Floor) : Nat :=
  let tils := popc m.deadTil
  let pans := m.deadPan.countP (fun e => !m.deadTil.getLsbD (tillerOfPan e.1))
  let spks := m.deadSpk.countP (fun e => !m.panDead (panOfSpk e.1))
  98304 - (tils * 12288 + pans * 64 + spks)

/-- Usable granary capacity after dead channels and retired frames (Table 13-8). -/
def Floor.granaryBytes (m : Floor) : Nat :=
  1536 * 2 ^ 30 - (List.range 24).foldl (fun k n => k + popc (m.channels n)) 0 * 2 ^ 31
    - m.retired.length * 65536

/-- The usable-spikelet mask of a panicle (Table 13-8). -/
def Floor.mask (m : Floor) (p : Nat) : Nat :=
  (List.range 64).foldl (fun k i => if m.spkDead (p * 64 + i) then k else k + 2 ^ i) 0

/-- The cause byte of a panicle (Table 13-8): 4 with a dead tiller, bit 7 with a soft-dead
spikelet. -/
def Floor.causeOf (m : Floor) (p : Nat) : Byte :=
  let c := if m.deadTil.getLsbD (tillerOfPan p) then 4 else Tab.get 0 m.cause p
  if m.soft.any (fun e => decide (panOfSpk e.1 = p)) then c ||| 0x80 else c

/-- STATE code of a bridge plane (Table 7-13). -/
def PlaneState.code : PlaneState → Nat
  | .active => 0 | .standby => 1 | .faulted => 2 | .held => 3 | .retrain => 4

/-- Spares of a plane in use. -/
def BPlane.sparesUsed (p : BPlane) : Nat := p.spares.countP (fun e => e.2.used)

/-- One bridge lane status word (Table 13-8). -/
def laneWord (p : BPlane) : Nat := p.state.code * 2 ^ 28 + p.sparesUsed * 2 ^ 24

/-- The published floor map (Table 13-8). -/
def State.floorBytes (s : State) : List Byte :=
  let m := s.floor
  toLE 4 1 ++ toLE 4 m.version.toNat ++ toLE 4 m.usable ++ toLE 4 92160 ++
  toLE 4 ((if m.below then 2 ^ 31 else 0) + m.repairGen.toNat) ++ toLE 4 m.deadStraw.toNat ++
  toLE 8 m.granaryBytes ++
  (List.range 24).flatMap (fun n => toLE 4 (m.channels n).toNat) ++
  (List.range 24).flatMap (fun d => toLE 4 (laneWord (s.dir d).a) ++ toLE 4 (laneWord (s.dir d).b)) ++
  (List.range 1536).flatMap (fun p => toLE 8 (m.mask p)) ++
  (List.range 1536).map m.causeOf ++
  toLE 4 m.retired.length ++ m.retired.flatMap (fun f => toLE 4 f)

/-- The map is written in place (R453, R454). -/
def State.floorWrite (s : State) : State :=
  let s := s.write Config.floorAddr s.floorBytes
  { s with floor := { s.floor with published := true } }

/-- BELOW_GUARANTEE (R3, R452): set and logged once the usable count is below 92,160. -/
def State.floorGuarantee (s : State) : State :=
  if s.floor.usable < 92160 ∧ s.floor.below = false then
    ({ s with floor := { s.floor with below := true } }).log 0x0606 1 none (s.stewardEc 0) 0
      s.floor.usable
  else s

/-- A change of the map after READY (R454): FM_VERSION advances, the map is rewritten and
FLOOR_CHANGED is raised. -/
def State.floorChanged (s : State) : State :=
  let s := s.floorGuarantee
  let s := { s with floor := { s.floor with version := s.floor.version + 1 } }
  (s.floorWrite).log 0x0601 1 none (s.stewardEc 0) 0 s.floor.version.toNat

end Sys2Proof.Machine
end

