-- ==== Sys2Proof/Machine/Granary.lean ====
section
/-! DEFINITION. The granary controllers: the address hash, requests, the channel arbiter, ECC, patrol
scrub, row repair and the run-ahead prefetcher (chapter 6). -/

namespace Sys2Proof.Machine

/-- Pseudo-channel of a stack-local address (R219, R220). -/
def pcOf (la : Nat) : Nat := fieldOf la 13 8 ^^^ fieldOf la 19 14

/-- The package-local address of a controller's line. -/
def lineAddr (n : StackId) (line : BitVec 30) : Nat := unhash n.val (line.toNat * 64)

/-- Pseudo-channel of a controller's line. -/
def linePc (line : BitVec 30) : Fin 64 := Fin.ofNat 64 (pcOf (line.toNat * 64))

/-- Open writes of a pseudo-channel (R234). -/
def Stack.openWrites (k : Stack) (pc : Fin 64) : Nat :=
  k.openReqs.countP (fun o => decide (o.req.cls = 1) && decide (linePc o.req.line = pc))

/-- Open requests of a pseudo-channel (R221). -/
def Stack.openPc (k : Stack) (pc : Fin 64) : Nat :=
  k.openReqs.countP (fun o => decide (linePc o.req.line = pc))

/-- Write elevation (R234): set at 24 open writes, cleared at 8. -/
def Stack.elevate (k : Stack) (pc : Fin 64) : Stack :=
  if k.openWrites pc ≥ 24 then { k with elevated := putBit k.elevated pc.val true }
  else if k.openWrites pc ≤ 8 then { k with elevated := putBit k.elevated pc.val false }
  else k

/-- A reply leaves the controller; it names the request's context. -/
def Stack.reply (k : Stack) (id : Nat) (ctx : BitVec 12) (st : Nat) (data : List Byte) : Stack :=
  { k with replies := k.replies ++ [{ id := id, ctx := ctx, status := BitVec.ofNat 8 st, data := data }] }

/-- The key of a row's bank: pseudo-channel, bank group and bank (R246). -/
def bankKey (la : Nat) : Nat := pcOf la * 16 + fieldOf la 19 16

/-- The row of a stack-local address within its bank, as one number. -/
def rowKey (la : Nat) : Nat := bankKey la * 65536 + fieldOf la 35 20

/-- The row of a controller's line. -/
def lineRow (line : BitVec 30) : Nat := rowKey (line.toNat * 64)

/-- Bytes of a line with those that the mask names replaced (R221). -/
def maskLine (old new : List Byte) (mask : BitVec 64) : List Byte :=
  (List.range 64).map (fun i => if mask.getLsbD i then (slice new i 1).headD 0 else (slice old i 1).headD 0)

/-- Contents of a controller's line. -/
def State.lineRead (s : State) (n : StackId) (line : BitVec 30) : List Byte :=
  s.read (lineAddr n line) 64

/-- The error mark of a controller's line. -/
def State.lineMark (s : State) (n : StackId) (line : BitVec 30) : Option Bool :=
  Tab.get none s.mem.line (lineAddr n line / 64)

/-- Mark or clear the error of a controller's line. -/
def State.setLineMark (s : State) (n : StackId) (line : BitVec 30) (m : Option Bool) : State :=
  { s with mem := { s.mem with line := Tab.set none s.mem.line (lineAddr n line / 64) m } }

/-- A write performed at a line invalidates its prefetched copy (R249). -/
def State.lineWrite (s : State) (n : StackId) (line : BitVec 30) (bs : List Byte) : State :=
  (s.write (lineAddr n line) bs).pfDrop n.val line

/-- Whether a controller has an open request for a line. -/
def Stack.hasLine (k : Stack) (line : BitVec 30) : Bool := k.openReqs.any (fun o => o.req.line = line)

/-- Whether an open request is the oldest for its line, so that the conflict table lets it be performed
(R188, R223). -/
def Stack.turn (k : Stack) (o : GrnOpen) : Bool :=
  match k.openReqs.find? (fun x => x.req.line = o.req.line) with
  | some x => x.id = o.id
  | none => false

/-- A write of a whole line, which needs no read (R241). -/
def wholeLine (r : GrnReq) : Bool :=
  r.write && decide (r.mask = BitVec.allOnes 64) && decide (r.cls = 1)

/-- A request is accepted (R221); a demand read of a buffered line is answered from the buffer (R249),
unless an earlier request for the line is open (R223). -/
def State.grnAccept (s : State) (n : StackId) (r : GrnReq) : State :=
  let k := s.stack n.val
  if r.cls = 0 ∧ k.pfBuf.contains r.line ∧ k.hasLine r.line = false then
    let k := k.reply k.nextId r.ctx 0 (s.lineRead n r.line)
    s.setStack n.val { k with
      nextId := k.nextId + 1
      pfHit := satAdd k.pfHit 1
      pfBuf := r.line :: k.pfBuf.filter (· ≠ r.line) }
  else
    let o : GrnOpen := { id := k.nextId, req := r }
    let k := { k with openReqs := k.openReqs ++ [o], nextId := k.nextId + 1 }
    let k := { k with peak := satOf 11 (Nat.max k.peak.toNat k.openReqs.length) }
    s.setStack n.val (k.elevate (linePc r.line))

/-- Whether a request meets an open limit (R221). -/
def Stack.full (k : Stack) (r : GrnReq) : Bool :=
  decide (k.openReqs.length ≥ 1024) || decide (k.openPc (linePc r.line) ≥ 64)

/-- GRANARY_REQUEST (R221, R224, R235): refused while the stack's domain resets, else accepted within the
limits or left waiting by credit; a run-ahead read is not issued while the prefetcher pauses for its pseudo-channel. -/
def execGranaryRequest (n : StackId) (r : GrnReq) (s : State) : Out :=
  let k := s.stack n.val
  let r := { r with bytes := slice r.bytes 0 64 }
  if k.resetting then
    .next (s.setStack n.val { (k.reply k.nextId r.ctx 1 []) with nextId := k.nextId + 1 })
  else if r.cls = 3 ∧ k.paused.getLsbD (linePc r.line).val = true then .next s
  else if k.full r then .next (s.setStack n.val { k with credit := k.credit ++ [r] })
  else .next (s.grnAccept n r)

/-- Waiting requests are accepted in order while they fit (R221). -/
def State.grnRefill (n : StackId) : Nat → State → State
  | 0, s => s
  | m + 1, s =>
    let k := s.stack n.val
    match k.credit with
    | [] => s
    | r :: rest => if k.full r then s else State.grnRefill n m ((s.setStack n.val { k with credit := rest }).grnAccept n r)

/-- A request leaves the open set, and waiting requests that now fit are accepted. -/
def State.grnClose (s : State) (n : StackId) (id : Nat) : State :=
  let k := s.stack n.val
  let k := { k with openReqs := k.openReqs.filter (fun o => o.id ≠ id) }
  let k := (List.range 64).foldl (fun k pc =>
    if k.elevated.getLsbD pc then k.elevate (Fin.ofNat 64 pc) else k) k
  State.grnRefill n k.credit.length (s.setStack n.val k)

/-- Requests that reach a controller whose domain resets while they wait by credit are answered DOMAIN_RESETTING
(R224). -/
def Stack.refuseAll (k : Stack) : Stack :=
  k.credit.foldl (fun k r => { (k.reply k.nextId r.ctx 1 []) with nextId := k.nextId + 1 }) { k with credit := [] }

/-- An uncorrectable line is counted and recorded (R240), and logged as GRN_UE (R477); its row is due for repair
(R244). -/
def State.grnUe (s : State) (n : StackId) (line : BitVec 30) (cls : Nat) (ctx : BitVec 12)
    (named addrErr : Bool) : State :=
  let k := s.stack n.val
  let k := { k with ueCount := satAdd k.ueCount 1, rowBad := lineRow line :: k.rowBad.filter (· ≠ lineRow line) }
  let k := if k.ueValid then { k with ueOvf := true }
    else { k with
      ueValid := true, ueAddrErr := addrErr, ueClass := BitVec.ofNat 3 cls,
      ueCtx := if cls = 4 ∨ cls = 5 then 0 else ctx,
      ueAddr := BitVec.ofNat 36 (line.toNat * 64) }
  (s.setStack n.val k).log 0x0301 (if named then 2 else 0) (if named then some ctx else none)
    (s.stackEc n.val) 0 (n.val * 2 ^ 36 + line.toNat * 64)

/-- Ticks of the reference counter in 24 hours (R244). -/
def dayTicks : Nat := 24 * 3600 * 1000000000

/-- Words of a line that a read corrects: those that the read reports, and one where the line's stored mark says so. -/
def State.lineCe (s : State) (n : StackId) (line : BitVec 30) (e : LineEcc) : Nat :=
  if e.ce = 0 ∧ s.lineMark n line = some false then 1 else e.ce

/-- What the codes make of a line read (R239): corrected words are counted, and a corrected event of the row
(R244); the answer says whether the read is uncorrectable. -/
def State.grnCheck (s : State) (n : StackId) (line : BitVec 30) (e : LineEcc) : State × Bool :=
  let ue := e.ue || e.addrErr || (s.lineMark n line == some true)
  let ce := s.lineCe n line e
  let k := s.stack n.val
  let s := s.setStack n.val { k with
    ecCe := satAdd k.ecCe ce
    rowCe := if ce = 0 then k.rowCe else k.rowCe ++ [(lineRow line, s.refcnt)] }
  (if ue then s.setLineMark n line (some true) else s, ue)

/-- A corrected line's write-back is posted to the maintenance class (R239). -/
def State.postFix (s : State) (n : StackId) (line : BitVec 30) : State :=
  let k := s.stack n.val
  if k.fixes.contains line then s else s.setStack n.val { k with fixes := k.fixes ++ [line] }

/-- A corrected line is written back: its present contents, with new check bits (R239, R242, R243). -/
def State.writeBack (s : State) (n : StackId) (line : BitVec 30) : State :=
  let s := if s.lineMark n line = some true then s else s.setLineMark n line none
  let k := s.stack n.val
  (s.setStack n.val { k with fixes := k.fixes.filter (· ≠ line) }).pfDrop n.val line

/-- A whole line written with new check bits (R241), and its request answered. -/
def State.grnWhole (s : State) (n : StackId) (o : GrnOpen) : State :=
  let s := (s.lineWrite n o.req.line (maskLine [] o.req.bytes o.req.mask)).setLineMark n o.req.line none
  let k := s.stack n.val
  (s.setStack n.val (k.reply o.id o.req.ctx 0 [])).grnClose n o.id

/-- GRANARY_READ_RETURN (R223, R239 to R241): the read of a granted request returns, once no earlier
request for its line is open. Corrected data is written back through the maintenance class. A
read-modify-write whose read is uncorrectable leaves the line unchanged; a write that covers the whole
line clears its error. -/
def execGranaryReadReturn (n : StackId) (id : Nat) (ecc : LineEcc) (s : State) : Out :=
  match (s.stack n.val).openReqs.find? (fun o => o.id = id) with
  | none => .next s
  | some o =>
    let r := o.req
    if !o.granted || !(s.stack n.val).turn o then .next s
    else if wholeLine r then .next (s.grnWhole n o)
    else
      let ce := s.lineCe n r.line ecc
      let (s, ue) := s.grnCheck n r.line ecc
      if ue then
        let s := s.grnUe n r.line r.cls.val r.ctx (decide (r.cls.val < 4)) ecc.addrErr
        let k := s.stack n.val
        .next ((s.setStack n.val (k.reply id r.ctx 4 [])).grnClose n id)
      else
        let s := if ce = 0 then s else s.postFix n r.line
        let old := s.lineRead n r.line
        let s := if r.write then s.lineWrite n r.line (maskLine old r.bytes r.mask) else s
        let k := s.stack n.val
        .next ((s.setStack n.val (k.reply id r.ctx 0 (if r.write then [] else old))).grnClose n id)

/-- GRANARY_REQUEST_TIMEOUT (R222): the request completes with TIMEOUT and is recorded; a write may
or may not have been performed. -/
def execGranaryRequestTimeout (n : StackId) (id : Nat) (performed : Bool) (s : State) : Out :=
  match (s.stack n.val).openReqs.find? (fun o => o.id = id) with
  | none => .next s
  | some o =>
    let r := o.req
    let s := if performed && r.write then
      s.lineWrite n r.line (maskLine (s.lineRead n r.line) r.bytes r.mask) else s
    let k := s.stack n.val
    let k := if k.errValid then { k with errOvf := true }
      else { k with errValid := true, errKind := 0, errCtx := r.ctx,
                    errPc := BitVec.ofNat 6 (linePc r.line).val }
    let s := (s.setStack n.val (k.reply id r.ctx 7 [])).grnClose n id
    .next (s.log 0x0302 0 (some r.ctx) (s.stackEc n.val) 0
      (n.val * 2 ^ 36 + (linePc r.line).val))

/-! ### Requests of a pseudo-channel's classes (R232, R233) -/

/-- The open requests of a class that wait for a grant at a pseudo-channel, oldest first. -/
def Stack.queued (k : Stack) (pc : Fin 64) (cls : Nat) : List GrnOpen :=
  k.openReqs.filter (fun o => decide (o.req.cls.val = cls) && !o.granted && decide (linePc o.req.line = pc))

/-- Posted write-backs at a pseudo-channel (R239). -/
def Stack.fixesAt (k : Stack) (pc : Fin 64) : List (BitVec 30) := k.fixes.filter (fun l => linePc l = pc)

/-- Whether a line's row is open in its bank (R233). -/
def Stack.rowOpen (k : Stack) (line : BitVec 30) : Bool :=
  decide (Tab.get 0 k.openRow (bankKey (line.toNat * 64)) = lineRow line + 1)

/-- The demand read that is granted next (R233): the oldest, or one to an open row whose elders of its bank group,
all to closed rows, have each been passed fewer than 16 times. Passing where it may is the model's choice
(assumption 158). -/
def Stack.demand (k : Stack) (q : List GrnOpen) : Option GrnOpen :=
  match q.find? (fun x => k.rowOpen x.req.line &&
      (q.takeWhile (fun y => y.id ≠ x.id)).all (fun y => !k.rowOpen y.req.line && decide (y.passed < 16) &&
        decide (fieldOf (y.req.line.toNat * 64) 19 18 = fieldOf (x.req.line.toNat * 64) 19 18))) with
  | some x => some x
  | none => q.head?

/-- A burst of run-ahead reads (Table 6-3): at most `m` requests for consecutive lines of one row. -/
def burst : Nat → GrnOpen → List GrnOpen → List GrnOpen
  | 0, o, _ => [o]
  | m + 1, o, q =>
    match q.find? (fun x => x.req.line = o.req.line + 1 && lineRow x.req.line = lineRow o.req.line) with
    | some x => o :: burst m x q
    | none => [o]

/-- The requests that the next grant unit of a class serves (Table 6-3); a run-ahead unit takes at most `m` lines. -/
def Stack.served (k : Stack) (pc : Fin 64) (cls m : Nat) : List GrnOpen :=
  let q := k.queued pc cls
  if cls = 0 then (k.demand q).toList
  else match q with
    | [] => []
    | o :: _ => if cls = 3 then burst (Nat.min m 4 - 1) o q else [o]

/-- The grant unit of a class and its length in controller cycles (Table 6-3, R232): 2 for each line that moves. `len`
bounds a run-ahead burst, and is the length of a refresh, which no table gives. -/
def Stack.unit (k : Stack) (b : Arb) (pc : Fin 64) (len r : Nat) : Nat × Grant :=
  match b.rest.find? (fun g => g.who = r) with
  | some g => (g.bytes / 32, g)
  | none =>
    if r = 6 then (len, { who := 6, bytes := 64, whole := true })
    else if r = 4 then (2, { who := 4, bytes := 64, whole := true, aim := .scrub })
    else match r, k.fixesAt pc with
      | 5, l :: _ => (2, { who := 5, bytes := 64, whole := false, aim := .fix l })
      | _, _ =>
        let os := k.served pc r (len / 2)
        let n := if r = 2 then 2 else Nat.max os.length 1
        (2 * n, { who := r, bytes := 64 * n, whole := decide (r = 2), aim := .lines (os.map (fun o => o.id)) })

/-- How many requests of a class wait at a pseudo-channel. -/
def State.grnWaiting (s : State) (n : StackId) (pc : Fin 64) (r : Nat) : Nat :=
  Tab.get 0 (s.arb (.hbm n pc)).reqs r + ((s.stack n.val).queued pc r).length +
    (if r = 5 then ((s.stack n.val).fixesAt pc).length else 0)

/-- A granted request is served: a write of a whole line is performed in its grant (R241) unless an earlier request for
the line is open (R223); other requests read first. Its row is then the open one of its bank. -/
def State.grnServe (s : State) (n : StackId) (id : Nat) : State :=
  let k := s.stack n.val
  match k.openReqs.find? (fun o => o.id = id) with
  | none => s
  | some o =>
    let s := s.setStack n.val { k with
      openRow := Tab.set 0 k.openRow (bankKey (o.req.line.toNat * 64)) (lineRow o.req.line + 1)
      openReqs := k.openReqs.map (fun x => if x.id = id then { x with granted := true }
        else if o.req.cls = 0 ∧ x.id < id ∧ x.req.cls = 0 ∧ x.granted = false ∧ linePc x.req.line = linePc o.req.line then
          { x with passed := x.passed + 1 }
        else x) }
    if wholeLine o.req && k.turn o then s.grnWhole n o else s

/-- What a grant of a pseudo-channel does at once. -/
def State.grnGranted (s : State) (n : StackId) (x : Aim) : State :=
  match x with
  | .lines ids => ids.foldl (fun s id => s.grnServe n id) s
  | .fix l => s.writeBack n l
  | _ => s

/-- REFRESH_PENDING (R236): at 8 pending refreshes the next one is the emergency requester. -/
def execRefreshPending (n : StackId) (pc : Fin 64) (s : State) : Out :=
  let k := s.stack n.val
  let s := s.setStack n.val { k with refresh := Tab.upd 0 k.refresh pc.val (· + 1) }
  if Tab.get 0 k.refresh pc.val + 1 ≥ 8 then .next (s.ask (.hbm n pc) 6) else .next s

/-- The scrub of the next line (R242, R243): a corrected line is written back under the same hold of the line, and an
uncorrectable line is recorded and fails no requester. -/
def State.scrubLine (s : State) (n : StackId) (ecc : LineEcc) : State :=
  let line := (s.stack n.val).scrubPos
  let ce := s.lineCe n line ecc
  let (s, ue) := s.grnCheck n line ecc
  let s := if ue then s.grnUe n line 4 0 false ecc.addrErr else if ce = 0 then s else s.writeBack n line
  let k := s.stack n.val
  s.setStack n.val { k with scrubPos := k.scrubPos + 1 }

/-- PATROL_SCRUB (R242, R243): the next line is scrubbed in a grant of the scrub class (Table 6-3), which the class
holds or, where nothing of the pseudo-channel goes before it, is given here; else the class waits for a decision. A line
with an open request is scrubbed after it (R223). -/
def execPatrolScrub (n : StackId) (ecc : LineEcc) (s : State) : Out :=
  let k := s.stack n.val
  let pc := linePc k.scrubPos
  let a : ArbId := .hbm n pc
  let len := if s.lineCe n k.scrubPos ecc = 0 then 2 else 4
  let ws := (List.range 6).flatMap (fun r => List.replicate (s.grnWaiting n pc r) r)
  if !k.scrubEn || k.hasLine k.scrubPos then .next s
  else if (s.arb a).holder.map (·.who) = some 4 then
    .next ((s.setArb a { s.arb a with holder := none }).scrubLine n ecc)
  else if (s.arb a).holder.isNone && decide (s.winner a (4 :: ws) = some 4) then
    let s := s.grantTo a (4 :: ws) len { who := 4, bytes := 64, whole := true, aim := .scrub }
    .next ((s.setArb a { s.arb a with holder := none }).scrubLine n ecc)
  else .next (s.setArb a { s.arb a with reqs := Tab.set 0 (s.arb a).reqs 4 1 })

/-- Frames PA[40:16] that have a line in the row of a stack-local address (R247): one granule for
each 256-byte column block. -/
def rowFrames (n la : Nat) : List Nat :=
  (List.range 4).map (fun cb =>
    let top := fieldOf la 35 16 * 4 + cb
    let pcx := pcOf la ^^^ (top % 64)
    unhash n (top * 2 ^ 14 + pcx * 256) / 65536)

/-- Retire frames (R247): each is listed once and logged. -/
def State.retire (s : State) (src : Ec) (fs : List Nat) : State :=
  fs.foldl (fun s f =>
    if s.floor.retired.contains f then s
    else ({ s with floor := { s.floor with retired := s.floor.retired ++ [f] } }).log 0x0304 1 none
      src 0 f) s

/-- Repair rows of a bank that hard repairs have consumed or that soft repairs will (R245, R246). -/
def Stack.rowsTaken (k : Stack) (bank : Nat) : Nat :=
  Tab.get 0 k.hardUsed bank + k.soft.countP (fun r => decide (r / 65536 = bank))

/-- Whether a row is due for repair (R244): it has returned an uncorrectable error, or 16 corrected events in the last
24 hours. -/
def Stack.repairDue (k : Stack) (row : Nat) (now : W64) : Bool :=
  k.rowBad.contains row ||
  decide (k.rowCe.countP (fun e => decide (e.1 = row) && decide (now.toNat - e.2.toNat < dayTicks)) ≥ 16)

/-- The lines of the row of a stack-local address: 4 in each of its 4 column blocks (Table 6-1, R220). -/
def rowLines (la : Nat) : List (BitVec 30) :=
  (List.range 4).flatMap (fun cb =>
    let top := fieldOf la 35 16 * 4 + cb
    (List.range 4).map (fun l => BitVec.ofNat 30 ((top * 2 ^ 14 + (pcOf la ^^^ (top % 64)) * 256) / 64 + l)))

/-- ROW_REPAIR (R244 to R247) of a row that is due: a soft repair while the bank has a repair row left, the copy
corrected where it can be; else the steward retires the frames of the row. -/
def execRowRepair (n : StackId) (la : BitVec 36) (s : State) : Out :=
  let k := s.stack n.val
  let a := la.toNat
  let row := rowKey a
  if !k.repairDue row s.refcnt then .next s
  else
  let s := s.setStack n.val { k with
    rowBad := k.rowBad.filter (· ≠ row), rowCe := k.rowCe.filter (fun e => e.1 ≠ row) }
  let k := s.stack n.val
  if k.rowsTaken (bankKey a) < 2 then
    let s := s.setStack n.val { k with soft := k.soft ++ [rowKey a] }
    let s := (rowLines a).foldl (fun s l => if s.lineMark n l = some false then s.setLineMark n l none else s) s
    .next (s.log 0x0303 0 none (s.stackEc n.val) 0 (n.val * 2 ^ 36 + a))
  else
    let fs := (rowFrames n.val a).filter (fun f => !s.floor.retired.contains f)
    if fs.isEmpty then .next s else .next ((s.retire (s.stackEc n.val) fs).floorChanged)

/-- The granary granule that the sequencer streams for a virtual address (R207, R248): none from a far page or from a leaf
with NSPEC. -/
def State.streamGranule (s : State) (ctx : CtxId) (va : Nat) : Option Nat :=
  match s.walk (BitVec.ofNat 12 ctx.val) va with
  | .leaf l =>
    if !l.pte.getLsbD 61 || l.pte.getLsbD 59 || l.pte.getLsbD 58 then none
    else some ((pteAddr l.pte + va % 2 ^ l.size) / 4096)
  | .refuse _ => none

/-- Granules joined into ranges: first granule and count. -/
def joinGranules : List Nat → List (Nat × Nat)
  | [] => []
  | g :: t => match joinGranules t with
    | (h, n) :: r => if h = g + 1 then (g, n + 1) :: r else (g, 1) :: (h, n) :: r
    | [] => [(g, 1)]

/-- The streams that the sequencer translates from ranges of a context's virtual granules (R248): up to 16. -/
def State.streamsOf (s : State) (ctx : CtxId) (ranges : List (W64 × Nat)) : List (BitVec 29 × Nat) :=
  let gs := ranges.flatMap (fun r =>
    (List.range r.2).filterMap (fun k => s.streamGranule ctx (r.1.toNat + 4096 * k)))
  ((joinGranules gs).take 16).map (fun q => (BitVec.ofNat 29 q.1, q.2))

/-- PREFETCH_PRIME (R248): the stream sequencer of a tiller translates ranges and primes every controller with the streams. -/
def execPrefetchPrime (t : TillerId) (req : PrimeReq) (s : State) : Out :=
  let ss := (s.streamsOf req.ctx req.ranges).map (fun p => (t, p.1, p.2))
  .next ((List.range 24).foldl (fun s n =>
    let k := s.stack n
    if k.pfEn then s.setStack n { k with streams := k.streams.filter (fun x => x.1 ≠ t) ++ ss } else s) s)

/-- PREFETCH_FILL (R249): a prefetched line enters the buffer of 8,192, least recently used first
out; an uncorrectable one is dropped and counted (R240, R249); a corrected one is written back (R239). The context that
R240 records for a prefetch read is not stated: an open value. -/
def execPrefetchFill (n : StackId) (line : BitVec 30) (ue : Bool) (s : State) : Out :=
  let k := s.stack n.val
  let granule := lineAddr n line / 4096
  if !k.pfEn || s.lineHeld n.val (lineAddr n line / 64) ||
      !k.streams.any (fun x => decide (x.2.1.toNat ≤ granule) && decide (granule < x.2.1.toNat + x.2.2)) then
    .next s
  else
    let ce := s.lineCe n line {}
    match s.grnCheck n line { ue := ue } with
    | (s, true) =>
      let (v, s) := s.draw
      let s := s.grnUe n line 3 (BitVec.ofNat 12 v.toNat) false false
      let k := s.stack n.val
      .next (s.setStack n.val { k with pfDrop := satAdd k.pfDrop 1 })
    | (s, false) =>
      let s := if ce = 0 then s else s.postFix n line
      let k := s.stack n.val
      .next (s.setStack n.val { k with pfBuf := (line :: k.pfBuf.filter (· ≠ line)).take 8192 })

/-- GRN_PF_CTRL written (Table 6-15): clearing EN stops the streams and invalidates the buffer. -/
def Stack.pfCtrl (k : Stack) (v : W32) : Stack :=
  let k := { k with pfEn := v.getLsbD 31, backoff := v.setWidth 16 }
  if v.getLsbD 31 then k else { k with streams := [], pfBuf := [] }

/-- GRN_PF_CTRL (Table 6-15). -/
def execGrnPfCtrl (n : StackId) (v : W32) (s : State) : Out := .next (s.setStack n.val ((s.stack n.val).pfCtrl v))

end Sys2Proof.Machine
end

