-- ==== Sys2Proof/Machine/Floret.lean ====
section
/-! DEFINITION. The life of a floret: unblocking, waking, parking, halting, faults cleared, fetch
fills, panicle barriers and the system instructions (R33, R35, R38, R141, R163, R164, R168). -/

namespace Sys2Proof.Machine

/-- A floret's bundle slot is given up (R145). -/
def State.dropBundle (s : State) (x : Nat) : State :=
  match (s.floret x).bundle with
  | none => s
  | some b =>
    let p := panOfSpk (spkOfFloret x)
    let s := s.setPan p { s.pan p with slots := Tab.set none (s.pan p).slots b.val none }
    s.setFloret x { s.floret x with bundle := none }

/-- The state of a floret is discarded (Table 2-2): its results land nowhere, its spill entries and
its open bundle go. The sequence counter of its bundles is kept. -/
def State.discardFloret (s : State) (x : Nat) : State :=
  let i := spkOfFloret x
  let f := floretNo x
  let s := s.dropBundle x
  let s := s.setFloret x { bndSeq := (s.floret x).bndSeq, run := (s.floret x).run }
  let sp := s.spk i
  s.setSpk i { sp with
    spill := dropSpill f sp.spill
    bankQ := sp.bankQ.filter (fun r => !(decide (r.floret = f) && (match r.op with
      | .load _ _ => true
      | _ => false)))
    slots := sp.slots.map (fun e => (e.1, e.2.map (fun y =>
      if y.floret = f then { y with dst := 0 } else y))) }

/-- FLORET_UNBLOCK (R33): the held instruction may issue once its resource is there. -/
def execFloretUnblock (f : FloretId) (s : State) : Out :=
  let i := spkOfFloret f.val
  let sp := s.spk i
  let free := match (s.floret f.val).status with
    | .blocked (.ibuf line) => sp.ibuf.contains line
    | .blocked .slot => sp.mayTake (floretNo f.val)
    | .blocked .latQueue => decide (sp.latQ.length < 4)
    | .blocked .bank => !sp.bankBusy (floretNo f.val)
    | _ => false
  .next (if free then s.setStatus f.val .runnable else s)

/-- Outstanding remote operations of a floret, remote drains that wait for a slot among them
(R136). -/
def Spikelet.outstanding (sp : Spikelet) (f : Fin 16) : Nat :=
  sp.outOf f + sp.drains.foldl (fun n d => if d.floret = f then n + d.pieces.length else n) 0

/-- FLORET_WAKE (R33): the condition of a WAITING floret is met. A barrier releases its florets in
the step of the last arrival. -/
def execFloretWake (f : FloretId) (s : State) : Out :=
  let i := spkOfFloret f.val
  let sp := s.spk i
  match (s.floret f.val).status with
  | .waiting (.sync n cell) =>
    let held : Bool := match sp.slot n with
      | some x => decide (x.floret = floretNo f.val) && decide (x.kind = .wait)
      | none => false
    if held then .next s
    else .next ((s.setStatus f.val .runnable).dropWait i cell)
  | .waiting (.rops n) =>
    if sp.outstanding (floretNo f.val) ≤ n then .next (s.setStatus f.val .runnable) else .next s
  | _ => .next s

/-- PARK_EXPIRE (R33). -/
def execParkExpire (f : FloretId) (s : State) : Out :=
  if (s.floret f.val).status = .parked then
    .next (s.setFloret f.val { s.floret f.val with status := .runnable, park := 0 })
  else .next s

/-- Dirty spill entries of a halting floret are written back one by one (R196); one that must wait leaves the rest to be
written back later, and a failure raises the fault of R197 and ends the halt. -/
def State.haltBack (s : State) (f : FloretId) (pc : BitVec 20) : List SpillEntry → State
  | [] =>
    let i := spkOfFloret f.val
    let s := s.setSpk i { s.spk i with spill := dropSpill (floretNo f.val) (s.spk i).spill }
    s.setStatus f.val .idle
  | e :: t =>
    let i := spkOfFloret f.val
    if e.dirty then
      match s.spillBack f e with
      | (s, .done _) => s.haltBack f pc t
      | (s, .fail st) => s.spillFail f pc st (s.spillVa i e.floret e.row)
      | (s, .wait) => s
    else s.haltBack f pc t

/-- FLORET_HALT_DONE (R33, R196): the outstanding remote operations are complete, dirty spilled rows
are written back and the floret is IDLE. -/
def execFloretHaltDone (f : FloretId) (s : State) : Out :=
  let i := spkOfFloret f.val
  let fl := s.floret f.val
  if fl.status = .halting ∧ (s.spk i).outstanding (floretNo f.val) = 0 then
    .next (s.haltBack f (fl.pc - 4) ((s.spk i).spill.filter (fun e => e.floret = floretNo f.val)))
  else .next s

/-- The fault record of a spikelet is cleared and its FAULTED florets become IDLE (R168). A write of 1 to VALID clears
OVF and every other field of the record with it, whatever it writes to OVF: a choice of this model (R168 clears the
record, Table 4-16 gives OVF its own W1C bit). -/
def State.clearRecord (s : State) (i : Nat) : State :=
  let s := s.setSpk i { s.spk i with frec := {} }
  (List.range 16).foldl (fun s f =>
    let x := i * 16 + f
    if (s.floret x).status = .faulted then s.discardFloret x else s) s

/-- FAULT_RECORD_CLEAR (R168): a steward's write of 1 to VALID. -/
def execFaultRecordClear (i : SpkId) (s : State) : Out := .next (s.clearRecord i.val)

/-- IBUF_FILL (R38, R121, R611): the missing line arrives and the floret goes on, or the fetch meets
an uncorrectable word. -/
def execIbufFill (f : FloretId) (hits : List EccHit) (s : State) : Out :=
  let i := spkOfFloret f.val
  let p := panOfSpk i
  let fl := s.floret f.val
  match fl.status with
  | .blocked (.ibuf line) =>
    if s.storeHeld p (line * 64) 64 then .next s else
    let s := s.plant (storeBase p + line * 64) hits
    let (s, ue) := s.checkStore p (line * 64) 64
    if ue then .next (s.syncFault f.val 0x07 fl.pc (some (fl.pc.setWidth 64)))
    else
      let sp := s.spk i
      let s := s.setSpk i { sp with ibuf := (line :: sp.ibuf.filter (· ≠ line)).take 32 }
      .next (s.setStatus f.val .runnable)
  | _ => .next s

/-- ISSUE_BUBBLE (R35): a cycle in which no floret is eligible is counted. -/
def execIssueBubble (i : SpkId) (s : State) : Out :=
  if (List.range 16).any (fun n => s.eligible (i.val * 16 + n)) then .next s
  else .next (s.setSpk i.val { s.spk i.val with bubbles := (s.spk i.val).bubbles + 1 })

/-! ### Panicle barriers -/

/-- `pbar.set #n, sa` (R141, R124). -/
def execPbarSet (f : FloretId) (g : BitVec 4) (d a b : BitVec 5) (s : State) : Out :=
  .next (s.issue f [a] (decide (d ≠ 0) || decide (b.toNat ≥ 8)) g (fun fl =>
    let p := panOfSpk (spkOfFloret f.val)
    let n := b.toNat
    let c := (fl.rd a).toNat
    let bar := Tab.get {} (s.pan p).barriers n
    checked [(decide (bar.arrivals ≠ 0) || decide (c < 1) || decide (c > 1024), 0x3A, none)] (fun _ =>
      .ok (s.setPan p { s.pan p with
        barriers := Tab.set {} (s.pan p).barriers n { bar with count := c } }))))

/-- Every floret of panicle `p` that waits at barrier `n` becomes RUNNABLE. -/
def State.openBarrier (s : State) (p n : Nat) : State :=
  (s.cores.florets.filter (fun e =>
    decide (e.1 / 1024 = p) && decide ((s.floret e.1).status = .waiting (.barrier n)))).foldl
    (fun s e => s.setStatus e.1 .runnable) s

/-- `pbar.wait #n` (R141, R124): held until the floret's earlier bank stores are performed (R190). -/
def execPbarWait (f : FloretId) (g : BitVec 4) (d a b : BitVec 5) (s : State) : Out :=
  .next (s.issue f [] (decide (d ≠ 0) || decide (a ≠ 0) || decide (b.toNat ≥ 8)) g (fun _ =>
    let p := panOfSpk (spkOfFloret f.val)
    let n := b.toNat
    let bar := Tab.get {} (s.pan p).barriers n
    checked [(decide (bar.count = 0), 0x3A, none)] (fun _ =>
      if (s.spk (spkOfFloret f.val)).storesLeft (floretNo f.val) then .hold s .bank else
      let put := fun (s : State) (k : Nat) => s.setPan p { s.pan p with
        barriers := Tab.set {} (s.pan p).barriers n { bar with arrivals := k } }
      if bar.arrivals + 1 ≥ bar.count then .ok ((put s 0).openBarrier p n)
      else .wait (put s (bar.arrivals + 1)) (.barrier n))))

/-! ### System instructions -/

/-- The value of a system register (Table 4-14). -/
def State.sysReg (s : State) (x : Nat) (fl : Floret) (n : Nat) : W64 :=
  let sp := s.spk (spkOfFloret x)
  match n with
  | 0 => (s.floretEc x).setWidth 64
  | 1 => BitVec.ofNat 64 (sp.owner.2.toNat * 4096 + sp.owner.1.toNat)
  | 2 => fl.hint
  | 3 => s.refcnt
  | 4 => sp.step.setWidth 64
  | 5 => BitVec.ofNat 64 (sp.out * 256 + sp.outOf (floretNo x))
  | 6 => fl.latStat.setWidth 64
  | _ => sp.lfsr.setWidth 64

/-- What reading a system register clears (Table 4-14). -/
def Floret.sysRead (fl : Floret) (n : Nat) : Floret :=
  if n = 2 then { fl with hint := putBit fl.hint 63 false }
  else if n = 6 then { fl with latStat := 0 }
  else fl

/-- `sys.rd sd, #n`, n in the b field (R164, R124); TURN_HINT may be read by a floret that waits for its bank (R48). -/
def execSysRd (f : FloretId) (g : BitVec 4) (d a b : BitVec 5) (s : State) : Out :=
  let at_ := fun (go : State → State) => if b = 2 then s.whileBlocked f go else go s
  .next (at_ fun s => s.issue f [d] (decide (a ≠ 0) || decide (b.toNat ≥ 8)) g (fun fl =>
    let v := s.sysReg f.val fl b.toNat
    .ok ((s.setFloret f.val (fl.sysRead b.toNat)).wrReg f d v)))

/-- `flt.park sa` (R163): a count of 0 does nothing. A floret that waits for its bank may park (R48). -/
def execFltPark (f : FloretId) (g : BitVec 4) (d a b : BitVec 5) (s : State) : Out :=
  .next (s.whileBlocked f fun s => s.issue f [a] (decide (d ≠ 0) || decide (b ≠ 0)) g (fun fl =>
    let n : BitVec 24 := (fl.rd a).setWidth 24
    if n = 0 then .ok s else .park (s.setFloret f.val { fl with park := n })))

/-- `flt.halt` (R163, R145): issue stops, and an open bundle is discarded. -/
def execFltHalt (f : FloretId) (g : BitVec 4) (d a b : BitVec 5) (s : State) : Out :=
  .next (s.issue f [] (decide (d ≠ 0) || decide (a ≠ 0) || decide (b ≠ 0)) g (fun _ =>
    .halt (s.dropBundle f.val)))

end Sys2Proof.Machine
end

