-- ==== Sys2Proof/Machine/RemoteOps.lean ====
section
/-! DEFINITION. Remote operations and sync-cell operations of florets, their replies, timeouts and
reissues (R79, R80, R134 to R140, R173 to R176, R335). -/

namespace Sys2Proof.Machine

/-- A global address operand (Table 4-7): the package it names and its LOCAL address. -/
structure GAddr where
  own : Bool
  pkg : BitVec 24
  loc : Nat
deriving DecidableEq, Repr

/-- Decode a global address; none where it breaks the layout or names a malformed target (R134,
R170). -/
def State.gaddr (s : State) (a : W64) : Option GAddr :=
  let loc := fld a 43 0
  if ctxAddr loc = .badPanicle then none
  else if a.getLsbD 63 then
    if a.getLsbD 62 then none
    else
      let pkg : BitVec 24 := BitVec.ofNat 24
        (fld a 61 50 * 4096 + fld a 49 48 * 256 + fld a 47 46 * 16 + fld a 45 44)
      some { own := decide (pkg = s.fab.coord), pkg := pkg, loc := loc }
  else if fld a 62 44 ≠ 0 then none
  else some { own := true, pkg := s.fab.coord, loc := loc }

/-- OP of a slot's request (Table 9-8). -/
def SlotKind.op : SlotKind → BitVec 8
  | .get => 1 | .put => 2 | .add => 3 | .swap => 4 | .or => 5 | .cas => 6
  | .signal => 8 | .wait => 9 | .drain _ _ => 0x11
  | .commit | .post | .spill => 0

/-- Whether a slot's operation needs W (R180). -/
def SlotKind.writes : SlotKind → Bool
  | .get => false
  | _ => true

/-- The request of a slot toward an endpoint (R313, R316, Tables 9-4 to 9-8). -/
def State.slotPkt (s : State) (i n : Nat) (x : Slot) (dst : Ec) (addr : Nat) : Packet :=
  let sp := s.spk i
  let o := sp.owner
  let base : Packet :=
    { dst := dst, src := s.spkEc i x.floret.val, slice := (s.ctx o.1.toNat).slice, ctx := o.1,
      gen := o.2, kind := 0, op := x.kind.op, opa := x.opa, opb := x.opb,
      rtag := BitVec.ofNat 9 ((if sp.parity.getLsbD n then 256 else 0) + n),
      addr := BitVec.ofNat 44 addr }
  match x.kind with
  | .drain _ bytes => { base with data := true, payload := bytes }
  | _ => base

/-- Translations in progress for a slot are given up, and others take their places (R184, R200). -/
def State.dropXl (s : State) (p : Nat) (who : XlFor) : State := s.keepXl p (fun x => decide (x.who ≠ who))

/-- The rest of a failed remote drain is not sent. -/
def State.cutDrain (s : State) (i : Nat) (x : Slot) : State :=
  match x.kind with
  | .drain tile _ =>
    let sp := s.spk i
    s.setSpk i { sp with drains := sp.drains.map (fun d =>
      if d.tile = tile ∧ d.floret = x.floret then { d with pieces := [] } else d) }
  | _ => s

/-- A slot's operation completes with a fault (R138): its slot is freed and its result register is
not written. -/
def State.failRop (s : State) (i n : Nat) (x : Slot) (code : Nat) : State :=
  let f := i * 16 + x.floret.val
  let s := (s.dropXl (panOfSpk i) (.slot (Fin.ofNat 98304 i) n)).cutDrain i x
  let s := s.freeSlotAt i n
  let s := s.setFloret f ((s.floret f).unmark x.dst)
  if code = 0 then s else s.raise i x.floret .remote code x.pc x.addr

/-- The result of a slot's translation: the request goes to its granary controller, or fails, or
waits (R173, R176, R184, R200). -/
def State.slotXlat (s : State) (i n : Nat) (x : Slot) (va : Nat) (r : Xlat) : State :=
  let p := panOfSpk i
  let o := (s.spk i).owner
  let w : Xl := { ctx := o.1, gen := o.2, va := va, write := x.kind.writes,
                  who := .slot (Fin.ofNat 98304 i) n }
  match r with
  | .pa a =>
    let s := s.setSlot i n { x with stage := .sent }
    s.inject p (s.slotPkt i n { x with stage := .sent } (s.stackEc (stackOfPa a)) a)
  | .refuse st => s.failRop i n x (statusFault st)
  | .far => (s.setSlot i n { x with stage := .translating }).holdFar p w
  | .miss => (s.setSlot i n { x with stage := .translating }).askWalk p w

/-- A slot's operation is sent to where its address leads (R173 to R176, Table 5-2). -/
def State.sendSlot (s : State) (i n : Nat) (x : Slot) : State :=
  let p := panOfSpk i
  let go := fun (dst : Ec) (addr : Nat) =>
    let x := { x with stage := .sent }
    let s := s.setSlot i n x
    s.inject p (s.slotPkt i n x dst addr)
  match s.gaddr x.addr with
  | none => s.failRop i n x 0x24
  | some ga =>
    match ctxAddr ga.loc with
    | .virtual =>
      if ga.own then
        let o := (s.spk i).owner
        let (s, r) := s.tlbLookup p o.1 o.2 ga.loc x.kind.writes
        s.slotXlat i n x ga.loc r
      else go (ecOf ga.pkg (tillerOfPan p) (p % 192) 0 0x41) ga.loc
    | .bank j _ =>
      if ga.own then go (s.spkEc j 0x10) ga.loc
      else go (ecOf ga.pkg (tillerOfSpk j) (panOfSpk j % 192) 0 0x41) ga.loc
    | .store q _ =>
      if ga.own then go (s.panEc q 0x40) ga.loc
      else go (ecOf ga.pkg (tillerOfPan q) (q % 192) 0 0x41) ga.loc
    | .badPanicle | .other => s.failRop i n x 0x24

/-- One piece of a remote drain takes a slot and is sent (R68, R79). -/
def State.pumpOne (s : State) (i : Nat) : Option State :=
  let sp := s.spk i
  match sp.drains.find? (fun d => !d.pieces.isEmpty && sp.mayTake d.floret) with
  | none => none
  | some d =>
    match d.pieces, sp.freeSlot with
    | (a, bs) :: rest, some n =>
      let s := s.setSpk i { sp with drains := sp.drains.map (fun e =>
        if e.tile = d.tile ∧ e.floret = d.floret ∧ e.order = d.order then { e with pieces := rest } else e) }
      let x : Slot := { floret := d.floret, kind := .drain d.tile bs, pc := d.pc, addr := a }
      let s := s.putSlot i n x
      let x := { x with order := d.order }
      some ((s.setSlot i n x).sendSlot i n x)
    | _, _ => none

/-- Remote drains that wait for slots go on as far as the limits let them (R79). -/
def State.pumpDrains (s : State) (i : Nat) : Nat → State
  | 0 => s
  | k + 1 =>
    match s.pumpOne i with
    | none => s
    | some s' => s'.pumpDrains i k

/-- Whether a slot must wait for an earlier operation of its floret on the same address (R190): one that is still held or
in translation, or answered DOMAIN_RESETTING. -/
def State.behind (s : State) (i : Nat) (x : Slot) : Bool :=
  (s.spk i).slots.any (fun e => match e.2 with
    | some y => decide (y.floret = x.floret) && decide (y.order < x.order) && decide (s.gaddr y.addr = s.gaddr x.addr) &&
      decide (y.stage ≠ .sent) && decide (y.kind ≠ .post) && decide (y.kind ≠ .commit) && decide (y.kind ≠ .spill)
    | none => false)

/-- Held operations whose earlier ones on the same address are sent go on (R190); an add is held for SYNC_SIG_SEND. -/
def State.pumpHeld (s : State) (i : Nat) : Nat → State
  | 0 => s
  | k + 1 =>
    let sp := s.spk i
    match sp.slots.find? (fun e => match e.2 with
      | some x => decide (x.stage = .held) && decide (x.kind ≠ .signal) && !s.behind i x
      | none => false) with
    | some (n, some x) => (s.sendSlot i n x).pumpHeld i k
    | _ => s

/-- Slots of a spikelet have come free or operations have been sent: drains and held operations go on (R79, R190). -/
def State.pump (s : State) (i : Nat) : State := (s.pumpDrains i 64).pumpHeld i 64

/-- A slot's operation is sent, or held behind an earlier one on the same address (R190). -/
def State.sendOrHold (s : State) (i n : Nat) (x : Slot) : State :=
  if s.behind i x then s.setSlot i n { x with stage := .held } else (s.sendSlot i n x).pump i

/-- A remote operation at issue (R79, R134, R166): checked, and held where no slot is free. -/
def State.ropIssue (s : State) (f : FloretId) (fl : Floret) (kind : SlotKind) (d : BitVec 5)
    (addr opa opb : W64) : Issued :=
  let i := spkOfFloret f.val
  let sp := s.spk i
  checked [(decide (addr.toNat % 8 ≠ 0), 0x03, some addr),
      ((s.gaddr addr).isNone, 0x22, some addr)] (fun _ =>
    match sp.mayTake (floretNo f.val), sp.freeSlot with
    | true, some n =>
      let x : Slot := { floret := floretNo f.val, kind := kind, pc := fl.pc, addr := addr,
                        opa := opa, opb := opb, dst := d }
      let s := (s.setFloret f.val (fl.mark d)).putSlot i n x
      let x := { x with order := sp.order }
      match kind with
      | .signal => .ok (s.setSlot i n { x with stage := .held })
      | _ => .ok (s.sendOrHold i n x)
    | _, _ => .hold s .slot)

/-- `rop.get.64 sd, sa` (R135, R124). -/
def execRopGet64 (f : FloretId) (g : BitVec 4) (d a b : BitVec 5) (s : State) : Out :=
  .next (s.issue f [d, a] (decide (b ≠ 0)) g (fun fl => s.ropIssue f fl .get d (fl.rd a) 0 0))

/-- `rop.put.64 sa, sb` (R135, R124). -/
def execRopPut64 (f : FloretId) (g : BitVec 4) (d a b : BitVec 5) (s : State) : Out :=
  .next (s.issue f [a, b] (decide (d ≠ 0)) g (fun fl =>
    s.ropIssue f fl .put 0 (fl.rd a) (fl.rd b) 0))

/-- `rop.add.64 sd, sa, sb` (R135). -/
def execRopAdd64 (f : FloretId) (g : BitVec 4) (d a b : BitVec 5) (s : State) : Out :=
  .next (s.issue f [d, a, b] false g (fun fl => s.ropIssue f fl .add d (fl.rd a) (fl.rd b) 0))

/-- `rop.swap.64 sd, sa, sb` (R135). -/
def execRopSwap64 (f : FloretId) (g : BitVec 4) (d a b : BitVec 5) (s : State) : Out :=
  .next (s.issue f [d, a, b] false g (fun fl => s.ropIssue f fl .swap d (fl.rd a) (fl.rd b) 0))

/-- `rop.or.64 sd, sa, sb` (R135). -/
def execRopOr64 (f : FloretId) (g : BitVec 4) (d a b : BitVec 5) (s : State) : Out :=
  .next (s.issue f [d, a, b] false g (fun fl => s.ropIssue f fl .or d (fl.rd a) (fl.rd b) 0))

/-- `rop.cas.64 sd, sa, sb` (R135): s_d is compared, s_b is the new value. -/
def execRopCas64 (f : FloretId) (g : BitVec 4) (d a b : BitVec 5) (s : State) : Out :=
  .next (s.issue f [d, a, b] false g (fun fl =>
    s.ropIssue f fl .cas d (fl.rd a) (fl.rd d) (fl.rd b)))

/-- `rop.wait #n`, n in b[1:0] (R136, R124). -/
def execRopWait (f : FloretId) (g : BitVec 4) (d a b : BitVec 5) (s : State) : Out :=
  .next (s.issue f [] (decide (d ≠ 0) || decide (a ≠ 0) || decide (b.toNat ≥ 4)) g (fun _ =>
    if (s.spk (spkOfFloret f.val)).outstanding (floretNo f.val) ≤ b.toNat then .ok s
    else .wait s (.rops b.toNat)))

/-- `sync.sig sa, sb` (R139, R124): the add is held until SYNC_SIG_SEND. -/
def execSyncSig (f : FloretId) (g : BitVec 4) (d a b : BitVec 5) (s : State) : Out :=
  .next (s.issue f [a, b] (decide (d ≠ 0)) g (fun fl =>
    s.ropIssue f fl .signal 0 (fl.rd a) (fl.rd b) 0))

/-- `sync.wait sa, sb` (R140, R33, R124): the floret waits, the edge is posted, and the wait goes to
the cell's home. -/
def execSyncWait (f : FloretId) (g : BitVec 4) (d a b : BitVec 5) (s : State) : Out :=
  .next (s.issue f [a, b] (decide (d ≠ 0)) g (fun fl =>
    let addr := fl.rd a
    let i := spkOfFloret f.val
    let sp := s.spk i
    checked [(decide (addr.toNat % 8 ≠ 0), 0x03, some addr),
        ((s.gaddr addr).isNone, 0x22, some addr)] (fun _ =>
      match sp.mayTake (floretNo f.val), sp.freeSlot, s.gaddr addr with
      | true, some n, some _ =>
        let cell := s.cellAt sp.owner.1 addr
        let x : Slot := { floret := floretNo f.val, kind := .wait, pc := fl.pc, addr := addr,
                          opa := fl.rd b }
        let s := s.setFloret f.val { fl with status := .waiting (.sync n cell) }
        let s := s.postEdge (s.stepEdge i cell)
        let s := s.putSlot i n x
        .ok (s.sendOrHold i n { x with order := sp.order })
      | _, _, _ => .hold s .slot)))

/-- Whether some earlier remote operation or remote drain of a slot's floret is not yet performed
(R139, Table 5-5). Posts do not count. -/
def Spikelet.earlier (sp : Spikelet) (x : Slot) : Bool :=
  sp.slots.any (fun e => match e.2 with
    | some y => decide (y.floret = x.floret) && decide (y.order < x.order) && decide (y.kind ≠ .post)
    | none => false) ||
  sp.drains.any (fun d => decide (d.floret = x.floret) && decide (d.order < x.order) &&
    !d.pieces.isEmpty)

/-- SYNC_SIG_SEND (R139). -/
def execSyncSigSend (i : SpkId) (slot : Fin 64) (s : State) : Out :=
  match (s.spk i.val).slot slot.val with
  | some x =>
    if x.kind = .signal ∧ x.stage = .held ∧ (s.spk i.val).earlier x = false then
      .next ((s.sendSlot i.val slot.val x).pump i.val)
    else .next s
  | none => .next s

/-- REMOTE_OP_TIMEOUT (R80, R137): no reply for 64 µs. Waits, commits and posts have no such limit,
and a held operation has not been sent. -/
def execRemoteOpTimeout (i : SpkId) (slot : Fin 64) (s : State) : Out :=
  match (s.spk i.val).slot slot.val with
  | none => .next s
  | some x =>
    match x.kind, x.stage with
    | .wait, _ | .commit, _ | .post, _ | _, .held => .next s
    | .spill, _ =>
      let s := s.dropXl (panOfSpk i.val) (.spill (Fin.ofNat 1572864 (i.val * 16 + x.floret.val)))
      let fl := s.floret (i.val * 16 + x.floret.val)
      let va := match fl.miss with
        | some m => s.spillVa i.val x.floret m.row
        | none => 0
      .next (((s.freeSpillSlots i.val x.floret).raise i.val x.floret .remote (if x.drst then 0x21 else 0x20) x.pc
        (BitVec.ofNat 64 va)).pump i.val)
    | _, _ =>
      .next ((s.failRop i.val slot.val x (if x.drst then 0x21 else 0x20)).pump i.val)

/-- ROP_REISSUE (R137): 8 µs after a DOMAIN_RESETTING reply the operation is sent again, or, past its
64 µs, completes with ROP_DOMAIN_RESETTING. -/
def execRopReissue (i : SpkId) (slot : Fin 64) (expired : Bool) (s : State) : Out :=
  match (s.spk i.val).slot slot.val with
  | none => .next s
  | some x =>
    if x.stage = .resetting then
      if expired then .next ((s.failRop i.val slot.val x 0x21).pump i.val)
      else .next ((s.sendSlot i.val slot.val x).pump i.val)
    else .next s

/-- Whether a slot's operation reads what R198 keeps private to another running floret. -/
def State.slotHides (s : State) (i : Nat) (x : Slot) : Bool :=
  match s.gaddr x.addr with
  | some g => g.own && decide (ctxAddr g.loc = .virtual) &&
    s.spillPrivate (s.spk i).owner.1 g.loc 8 (some (i * 16 + x.floret.val))
  | none => false

/-- A reply to a floret's slot (R315, R335): status OK completes the operation, DOMAIN_RESETTING
leaves it to be reissued, any other status raises its fault. -/
def State.slotReply (s : State) (i n : Nat) (x : Slot) (pkt : Packet) : State :=
  if pkt.status = 1 then s.setSlot i n { x with stage := .resetting, drst := true }
  else if pkt.status ≠ 0 then (s.failRop i n x (statusFault pkt.status.toNat)).pump i
  else
    let f := i * 16 + x.floret.val
    let s := s.freeSlotAt i n
    let land := fun (s : State) (v : W64) => s.setFloret f ((s.floret f).land x.dst v)
    let s := match x.kind with
      | .get | .add | .swap | .or | .cas => if s.slotHides i x then land s.draw.2 s.draw.1 else land s pkt.opa
      | _ => s
    s.pump i

/-- A reply dropped for a stale generation is counted where the requester sits (R335, R483). -/
def State.chaffCtx (s : State) (d : Nat) : State :=
  s.setDom d { s.dom d with ctxStale := satAdd (s.dom d).ctxStale 1 }

/-- Whether a reply's generation is no longer that of its context (R335, R483). -/
def State.ctxStale (s : State) (pkt : Packet) : Bool := decide (pkt.gen ≠ (s.ctx pkt.ctx.toNat).gen)

/-- A reply to a request that a domain made for itself: it carries the domain's generation, and a stale one is counted
(R483). -/
def State.unitReply (s : State) (d : Nat) (pkt : Packet) : State :=
  if pkt.gen = (s.dom d).gen then s else s.setDom d { s.dom d with domStale := satAdd (s.dom d).domStale 1 }

/-- A reply to a floret: matched by RTAG and generation (R335); one of another generation is counted whatever its slot
holds by now. -/
def State.floretReply (s : State) (pkt : Packet) : State :=
  if s.ctxStale pkt then s.chaffCtx (8 + tillerOfSpk (ecSpkIx pkt.dst)) else
  let i := ecSpkIx pkt.dst
  let n := fld pkt.rtag 7 0
  let sp := s.spk i
  match sp.slot n with
  | some x =>
    if x.floret.val = ecFn pkt.dst ∧ x.stage = .sent ∧ pkt.rtag.getLsbD 8 = sp.parity.getLsbD n then
      s.slotReply i n x pkt
    else s
  | none => s

end Sys2Proof.Machine
end

