-- ==== Sys2Proof/Machine/Target.lean ====
section
/-! DEFINITION. Requests at their targets: banks, panicle stores, the granary and proxies (R81, R171 to
R176, R187, R188, R314, R337, R386, R617). -/

namespace Sys2Proof.Machine

/-- What a request touches: a bank, a panicle store, or granary memory by physical address. -/
inductive Home where
  | bank (i off : Nat)
  | store (p off : Nat)
  | grn (pa : Nat)
deriving DecidableEq, Repr

/-- The package-local address of a home's byte. -/
def Home.addr : Home → Nat
  | .bank i off => bankBase i + off
  | .store p off => storeBase p + off
  | .grn pa => pa

/-- Whether a request is a steward's or the gleaner's own: it travels on VC6 (R337, R617, Table 9-12). What a steward
sends for a command of a queue carries that queue's context and is checked as such (R81, R316). -/
def pktSteward (p : Packet) : Bool := decide (p.vc = 6)

/-- Bytes that a request covers (Table 9-8). -/
def pktLen (p : Packet) : Nat :=
  if p.op = 0x10 then p.opa.toNat else if p.op = 0x11 then p.payload.length else 8

/-- Whether a request writes (R180). -/
def pktWrites (p : Packet) : Bool := decide (p.op ≠ 1) && decide (p.op ≠ 0x10)

/-! ### Granary bytes -/

/-- The controller and line of a granary line number (address / 64). -/
def lineOfPa (l : Nat) : StackId × BitVec 30 :=
  let h := hashPa (l * 64)
  (Fin.ofNat 24 h.1, BitVec.ofNat 30 (h.2 / 64))

/-- Lines, as address / 64, that `n` bytes at `a` cover only in part. -/
def partLines (a n : Nat) : List Nat :=
  (linesOf a n).filter (fun l => decide (l * 64 < a) || decide (a + n < l * 64 + 64))

/-- One granary line read for a request (R239, R240, R249): a demand read of a buffered line is answered from the
buffer; else corrected words are counted and written back, and an uncorrectable line is counted and recorded. -/
def State.paLine (s : State) (l cls : Nat) (ctx : BitVec 12) (named : Bool) : State × Bool :=
  let x := lineOfPa l
  let k := s.stack x.1.val
  if cls = 0 ∧ k.pfBuf.contains x.2 = true then
    (s.setStack x.1.val { k with pfHit := satAdd k.pfHit 1, pfBuf := x.2 :: k.pfBuf.filter (· ≠ x.2) }, false)
  else if Tab.get none s.mem.line l = none then (s, false)
  else
    let ce := s.lineCe x.1 x.2 {}
    match s.grnCheck x.1 x.2 {} with
    | (s, true) => (s.grnUe x.1 x.2 cls ctx named false, true)
    | (s, false) => (if ce = 0 then s else s.postFix x.1 x.2, false)

/-- The granary lines that a request reads, each by `paLine`; the flag says that one was uncorrectable. -/
def State.paUe (s : State) (ls : List Nat) (cls : Nat) (ctx : BitVec 12) : State × Bool :=
  ls.foldl (fun r l => let q := r.1.paLine l cls ctx true; (q.1, r.2 || q.2)) (s, false)

/-- Bytes stored in the granary (R241, R249): its lines get new check bits, and prefetched copies go. -/
def State.paStore (s : State) (pa : Nat) (bs : List Byte) : State :=
  (linesOf pa bs.length).foldl (fun s l =>
    let s := s.pfDrop (lineOfPa l).1.val (lineOfPa l).2
    { s with mem := { s.mem with line := Tab.set none s.mem.line l none } }) (s.write pa bs)

/-- Bytes written to the granary (R223, R241, R249): a write fails, storing nothing, where a line
that it covers in part is uncorrectable. -/
def State.paWrite (s : State) (pa : Nat) (bs : List Byte) (ctx : BitVec 12) : State × Bool :=
  match s.paUe (partLines pa bs.length) 2 ctx with
  | (s, true) => (s, true)
  | (s, false) => (s.paStore pa bs, false)

/-! ### Reading and writing homes -/

/-- Bytes read at a home, or none where a word is uncorrectable (R42, R239, R611). -/
def State.homeRead (s : State) (h : Home) (n : Nat) (cls : Nat) (ctx : BitVec 12) : State × Option (List Byte) :=
  match h with
  | .bank i off =>
    match s.checkRows i off n with
    | (s, true) => (s, none)
    | (s, false) => (s, some (s.bankRead i off n))
  | .store p off =>
    match s.checkStore p off n with
    | (s, true) => (s, none)
    | (s, false) => (s, some (s.storeRead p off n))
  | .grn pa =>
    match s.paUe (linesOf pa n) cls ctx with
    | (s, true) => (s, none)
    | (s, false) => (s, some (s.read pa n))

/-- Bytes written at a home; the flag says that the write failed, changing nothing. Waiters on the
bytes wake (R140, R187). -/
def State.homeWrite (s : State) (h : Home) (bs : List Byte) (ctx : BitVec 12) : State × Bool :=
  let r := match h with
    | .bank i off => s.bankRmw i off bs
    | .store p off => s.storeWrite p off bs
    | .grn pa => s.paWrite pa bs ctx
  if r.2 then r else (r.1.wakeCells h.addr bs.length, false)

/-! ### Checks -/

/-- Whether a home's domain is resetting (R224, R481). -/
def State.homeResetting (s : State) : Home → Bool
  | .bank i _ => s.domResetting (8 + tillerOfSpk i)
  | .store p _ => s.domResetting (8 + tillerOfPan p)
  | .grn pa => s.domResetting (16 + (hashPa pa).1) || (s.stack (hashPa pa).1).resetting

/-- The context and generation that a home serves: those bound to a spikelet or panicle; in the granary
the request's context with the generation of its table entry. -/
def State.homeOwner (s : State) (h : Home) (ctx : BitVec 12) : Option (BitVec 12 × BitVec 8) :=
  match h with
  | .bank i _ => (s.spk i).bound
  | .store p _ => (s.pan p).bound
  | .grn _ =>
    let c := s.ctx ctx.toNat
    if c.st = .free then none else some (ctx, c.gen)

/-- Bytes from a home's first byte to the end of its bank, store or granary. -/
def Home.room : Home → Nat
  | .bank _ off => 65536 - off
  | .store _ off => 524288 - off
  | .grn pa => granaryEnd - pa

/-- STATUS of a request that names no place or runs past its target (R617). -/
def pastStatus (p : Packet) : Nat := if pktSteward p then 8 else 3

/-- The checks on a request at its target, in order: resetting domain, slice, context and generation,
bounds, shadow rows (R81, R224, R337, R617, R52); 0 if all pass. `room` is what the page leaves. -/
def State.homeCheck (s : State) (pkt : Packet) (h : Home) (room : Nat) : Nat :=
  let n := pktLen pkt
  let o := s.homeOwner h pkt.ctx
  let slice := match o with
    | some o => (s.ctx o.1.toNat).slice
    | none => pkt.slice
  if s.homeResetting h then 1
  else if !pktSteward pkt && decide (slice ≠ pkt.slice) then 5
  else if !pktSteward pkt && decide (o ≠ some (pkt.ctx, pkt.gen)) then 2
  else if n = 0 ∨ n > 2048 ∨ n > h.room ∨ n > room then pastStatus pkt
  else match h with
    | .bank i off => if s.shadowHit i off n then 6 else 0
    | _ => 0

/-- Whether a granary controller cannot take a request for `n` bytes now (R221, R223): an open limit is reached, or an
earlier request for one of the lines is open. The request then waits in the rachis by credit. -/
def State.grnBusy (s : State) (h : Home) (n : Nat) : Bool :=
  match h with
  | .grn pa => (linesOf pa n).any (fun l =>
      let x := lineOfPa l
      let k := s.stack x.1.val
      k.hasLine x.2 || decide (k.openReqs.length ≥ 1024) || decide (k.openPc (linePc x.2) ≥ 64))
  | _ => false

/-! ### Lines of prepared bundles (R386) -/

/-- The record in PREPARED that holds some line of `n` bytes at a home: at a panicle or at a
controller. -/
def State.holder (s : State) (h : Home) (n : Nat) : Option (HomeId × HomeRec) :=
  match h with
  | .bank _ _ => none
  | .store p off =>
    ((s.panBnd p).homes.find? (fun r => r.holds (linesOf (storeBase p + off) n))).map
      (fun r => (.store (Fin.ofNat 1536 p), r))
  | .grn pa =>
    (linesOf pa n).findSome? (fun l =>
      let k := (lineOfPa l).1
      ((s.stackBnd k.val).homes.find? (fun r => r.holds [l])).map (fun r => (.stack k, r)))

/-- A request waits at a record until its lines leave PREPARED (R386). -/
def State.waitAt (s : State) (h : HomeId) (id : BndId) (pkt : Packet) : State :=
  let add := fun (l : List HomeRec) =>
    l.map (fun r => if r.id = id then { r with waiters := r.waiters ++ [pkt] } else r)
  match h with
  | .store p | .agent p =>
    let b := s.panBnd p.val
    s.setPanBnd p.val { b with homes := add b.homes, readWait := satAdd b.readWait 1 }
  | .stack n =>
    let b := s.stackBnd n.val
    s.setStackBnd n.val { b with homes := add b.homes, readWait := satAdd b.readWait 1 }

/-! ### Performing a request (Table 9-8, R188) -/

/-- Whether a request that came through a proxy panicle reads what R198 keeps private to a running
floret. -/
def State.hides (s : State) (pkt : Packet) : Home → Bool
  | .grn _ =>
    let self := if ecFn pkt.src < 16 ∧ ecPkg pkt.src = s.fab.coord then some (ecSpkIx pkt.src * 16 + ecFn pkt.src) else none
    decide (ecFn pkt.dst = 0x41) && s.spillPrivate pkt.ctx pkt.addr.toNat (pktLen pkt) self
  | _ => false

/-- The answer to a request that returns a word: the word, or an open value (R198). -/
def State.replyWord (s : State) (pkt : Packet) (h : Home) (v : W64) : State :=
  if s.hides pkt h then s.draw.2.reply pkt 0 s.draw.1 else s.reply pkt 0 v

/-- The answer to a READ: the bytes, or open ones (R198). -/
def State.replyBytes (s : State) (pkt : Packet) (h : Home) (bs : List Byte) : State :=
  let r := s.seenBytes (s.hides pkt h) bs
  r.1.replyData pkt r.2

/-- A read-modify-write of one 64-bit word: the old value is read and a new one written, indivisibly
(R188). -/
def State.rmw (s : State) (pkt : Packet) (h : Home) (g : W64 → W64) (old : Bool) : State :=
  match s.homeRead h 8 2 pkt.ctx with
  | (s, none) => s.reply pkt 4 0
  | (s, some bs) =>
    let v : W64 := BitVec.ofNat 64 (ofLE bs)
    match s.homeWrite h (toLE 8 (g v).toNat) pkt.ctx with
    | (s, true) => s.reply pkt 4 0
    | (s, false) => if old then s.replyWord pkt h v else s.reply pkt 0 0

/-- Bytes written, and the reply. -/
def State.writeAt (s : State) (pkt : Packet) (h : Home) (bs : List Byte) : State :=
  match s.homeWrite h bs pkt.ctx with
  | (s, true) => s.reply pkt 4 0
  | (s, false) => s.reply pkt 0 0

/-- A request that has passed its checks is performed and answered. -/
def State.perform (s : State) (pkt : Packet) (h : Home) : State :=
  match pkt.op.toNat with
  | 0x01 => match s.homeRead h 8 0 pkt.ctx with
    | (s, none) => s.reply pkt 4 0
    | (s, some bs) => s.replyWord pkt h (BitVec.ofNat 64 (ofLE bs))
  | 0x02 => s.writeAt pkt h (toLE 8 pkt.opa.toNat)
  | 0x03 => s.rmw pkt h (fun v => v + pkt.opa) true
  | 0x04 => s.rmw pkt h (fun _ => pkt.opa) true
  | 0x05 => s.rmw pkt h (fun v => v ||| pkt.opa) true
  | 0x06 => s.rmw pkt h (fun v => if v = pkt.opa then pkt.opb else v) true
  | 0x08 => s.rmw pkt h (fun v => v + pkt.opa) false
  | 0x09 => match s.homeRead h 8 0 pkt.ctx with
    | (s, none) => s.reply pkt 4 0
    | (s, some _) =>
      let s := match h with
        | .bank i off => (rowsOf off 8).foldl (fun (t : State) r => t.unzero i r) s
        | _ => s
      s.registerWait { addr := h.addr, threshold := pkt.opa, who := .packet pkt }
  | 0x10 => match s.homeRead h pkt.opa.toNat 0 pkt.ctx with
    | (s, none) => s.reply pkt 4 0
    | (s, some bs) => s.replyBytes pkt h bs
  | _ => s.writeAt pkt h pkt.payload

/-- A request that its target does not take yet stays at its endpoint. -/
def State.keepPkt (s : State) (pkt : Packet) : State :=
  { s with fab := { s.fab with delivered := s.fab.delivered ++ [pkt] } }

/-- A request at a home: refused with a status, held at a prepared line, answered TIMEOUT where that line
has been prepared too long (R386), left waiting by credit (R221), or performed. -/
def State.atHome (s : State) (pkt : Packet) (h : Home) (room : Nat) : State :=
  match s.homeCheck pkt h room with
  | 0 => match s.holder h (pktLen pkt) with
    | some (k, r) => if r.late then s.reply pkt 7 0 else s.waitAt k r.id pkt
    | none => if s.grnBusy h (pktLen pkt) then s.keepPkt pkt else s.perform pkt h
  | st => s.reply pkt st 0

/-! ### Where a request leads -/

/-- A request that a proxy panicle has translated, or that it waits for (R175, R176, R184, R200). -/
def State.proxied (s : State) (p : Nat) (pkt : Packet) (r : Xlat) : State :=
  let va := pkt.addr.toNat
  let w : Xl := { ctx := pkt.ctx, gen := pkt.gen, va := va, write := pktWrites pkt, who := .packet pkt }
  match r with
  | .pa a =>
    let room := match tlbFind (s.pan p).tlb pkt.ctx pkt.gen va with
      | some e => 2 ^ e.size - va % 2 ^ e.size
      | none => 65536 - va % 65536
    s.atHome pkt (.grn a) room
  | .refuse st => s.reply pkt st 0
  | .far => s.holdFar p w
  | .miss => s.askWalk p w

/-- A virtual address at its proxy: the domain and the slice are checked before the translation. -/
def State.atProxy (s : State) (p : Nat) (pkt : Packet) : State :=
  let c := s.ctx pkt.ctx.toNat
  if s.domResetting (8 + tillerOfPan p) then s.reply pkt 1 0
  else if c.st = .free then s.reply pkt 3 0
  else if !pktSteward pkt && decide (c.slice ≠ pkt.slice) then s.reply pkt 5 0
  else if c.gen ≠ pkt.gen then s.reply pkt 2 0
  else
    let (s, r) := s.tlbLookup p pkt.ctx pkt.gen pkt.addr.toNat (pktWrites pkt)
    s.proxied p pkt r

/-- The proxy panicle of a package for a request that names panicle `p` (R175): that panicle, or the next usable one of
its tiller, or the first usable one from the next tiller on; none where the package has none. -/
def State.proxyOf (s : State) (p : Nat) : Option Nat :=
  let t := p / 192
  ((List.range 192).map (fun k => t * 192 + (p + k) % 192) ++
    (List.range 1536).map (fun k => ((t + 1) * 192 + k) % 1536)).find? (fun q => !s.floor.panDead q)

/-- A member's host access reaches the master (R427): its host engine issues it for the owning function. While HOSTFN
resets it is answered DOMAIN_RESETTING. -/
def State.hostServe (s : State) (pkt : Packet) : State :=
  if s.domResetting 2 then s.reply pkt 1 0
  else if pkt.op = 0x11 then
    (s.hostWrite (leAt pkt.payload 8 1 % 64) (leAt pkt.payload 0 8) (pkt.payload.drop 16)).reply pkt 0 0
  else s.replyData pkt (s.hostRead (fld pkt.opa 5 0) pkt.opb.toNat (fld pkt.opa 63 32))

/-- A request reaches the endpoint that its DST names (Table 9-2, Table 5-2). -/
def State.request (s : State) (pkt : Packet) : State :=
  let s := s.consume pkt
  let a := pkt.addr.toNat
  let d := pkt.dst
  match ecFn d with
  | 0x10 => s.atHome pkt (.bank (ecSpkIx d) (a % 65536)) 65536
  | 0x40 => s.atHome pkt (.store (ecPanIx d) (a % 524288)) 524288
  | 0x50 | 0x51 | 0x52 => s.atHome pkt (.grn a) (granaryEnd - a)
  | 0x41 =>
    match ctxAddr a with
    | .virtual => match s.proxyOf (ecPanIx d) with
      | some p => s.atProxy p pkt
      | none => s.reply pkt 3 0
    | .bank i off => s.atHome pkt (.bank i off) 65536
    | .store q off => s.atHome pkt (.store q off) 524288
    | .badPanicle | .other => s.reply pkt (pastStatus pkt) 0
  | 0x7F => if (pkt.op = 0x10 ∨ pkt.op = 0x11) ∧ s.isMaster = true ∧ s.isMember (ecPkg pkt.src) = true then
      s.hostServe pkt else s.reply pkt (pastStatus pkt) 0
  | _ => s.reply pkt (pastStatus pkt) 0

/-- GET_REQ (R314). -/
def execGetReq (pkt : Packet) (s : State) : Out := .next (s.request { pkt with op := 0x01 })

/-- PUT_REQ (R314). -/
def execPutReq (pkt : Packet) (s : State) : Out := .next (s.request { pkt with op := 0x02 })

/-- ADD_REQ (R314, R188). -/
def execAddReq (pkt : Packet) (s : State) : Out := .next (s.request { pkt with op := 0x03 })

/-- SWAP_REQ (R314, R188). -/
def execSwapReq (pkt : Packet) (s : State) : Out := .next (s.request { pkt with op := 0x04 })

/-- OR_REQ (R314, R188). -/
def execOrReq (pkt : Packet) (s : State) : Out := .next (s.request { pkt with op := 0x05 })

/-- CAS_REQ (R314, R188). -/
def execCasReq (pkt : Packet) (s : State) : Out := .next (s.request { pkt with op := 0x06 })

/-- SYNC_SIG_REQ (R139, R314). -/
def execSyncSigReq (pkt : Packet) (s : State) : Out := .next (s.request { pkt with op := 0x08 })

/-- SYNC_WAIT_REQ (R140, R314). -/
def execSyncWaitReq (pkt : Packet) (s : State) : Out := .next (s.request { pkt with op := 0x09 })

/-- READ_REQ (R314, R617). -/
def execReadReq (pkt : Packet) (s : State) : Out := .next (s.request { pkt with op := 0x10 })

/-- WRITE_REQ (R314, R617). -/
def execWriteReq (pkt : Packet) (s : State) : Out := .next (s.request { pkt with op := 0x11 })

end Sys2Proof.Machine
end

