-- ==== Sys2Proof/Machine/Bundles.lean ====
section
/-! DEFINITION. Bundles: building, coordinators, agents and homes (R142 to R145, chapter 11). -/

namespace Sys2Proof.Machine

/-! ### Identity and age (R367, R368) -/

/-- The bundle ID as a number. -/
def bndNum (b : BndId) : Nat := b.ec.toNat * 2 ^ 24 + b.seq.toNat

/-- Whether one bundle is older than another. -/
def bndOlder (a b : BndId) : Bool := decide (bndNum a < bndNum b)

/-! ### Messages (Tables 11-2 to 11-4) -/

/-- What the word of a bundle packet names: floret, spikelet, sequence number and target. -/
structure BndRef where
  floret : Nat
  spk    : Nat
  seq    : BitVec 24
  tidx   : Nat
deriving DecidableEq, Repr

/-- Names of a packet (Tables 11-2 and 11-3). -/
def bndRef (p : Packet) : BndRef :=
  if p.data then
    { floret := fld p.word 28 25, spk := fld p.word 15 10, seq := p.word.extractLsb' 29 24,
      tidx := fld p.word 24 21 }
  else
    { floret := fld p.word 39 36, spk := fld p.word 15 10, seq := p.word.extractLsb' 40 24,
      tidx := fld p.word 35 32 }

/-- The bundle that a packet names, given its coordinator's EC. -/
def bndIdOf (coord : Ec) (r : BndRef) : BndId :=
  { ec := setFld (setFld coord 12 7 r.spk) 6 0 r.floret, seq := r.seq }

/-- CODE of a control packet. -/
def bndCode (p : Packet) : Nat := fld p.word 31 24
/-- HGEN of a control packet. -/
def bndHgen (p : Packet) : BitVec 8 := p.word.extractLsb' 16 8
/-- LAST of a data packet. -/
def bndLast (p : Packet) : Bool := p.word.getLsbD 20
/-- PART of a data packet. -/
def bndPart (p : Packet) : Nat := fld p.word 19 16

/-- The reference of a bundle's target. -/
def refOf (b : BndId) (tidx : Nat) : BndRef :=
  { floret := fld b.ec 6 0, spk := fld b.ec 12 7, seq := b.seq, tidx := tidx }

/-- The data word (Table 11-2). -/
def bndDataWord (len : Nat) (r : BndRef) (last : Bool) (part : Nat) : W64 :=
  BitVec.ofNat 64 ((len - 1) * 2 ^ 53 + r.seq.toNat * 2 ^ 29 + r.floret * 2 ^ 25 + r.tidx * 2 ^ 21 +
    (if last then 2 ^ 20 else 0) + part * 2 ^ 16 + r.spk * 2 ^ 10)

/-- The control word (Table 11-3). -/
def bndCtlWord (r : BndRef) (code : Nat) (hgen : BitVec 8) : W64 :=
  BitVec.ofNat 64 (r.seq.toNat * 2 ^ 40 + r.floret * 2 ^ 36 + r.tidx * 2 ^ 32 + code * 2 ^ 24 +
    hgen.toNat * 2 ^ 16 + r.spk * 2 ^ 10)

/-- An action record's bytes (Table 11-4). -/
def ActRec.bytesOf (a : ActRec) : List Byte :=
  match a.addend with
  | some v => toLE 8 (2 ^ 62 + a.addr) ++ toLE 8 v.toNat
  | none =>
    toLE 8 ((a.bytes.length - 1) * 2 ^ 54 + a.addr) ++ toLE 8 0 ++
      slice a.bytes 0 (ceilDiv a.bytes.length 16 * 16)

/-- The action records of a payload (Table 11-4). -/
def parseActs : Nat → List Byte → List ActRec
  | 0, _ => []
  | k + 1, bs =>
    if bs.length < 16 then []
    else
      let w := leAt bs 0 8
      let addr := fieldOf w 43 0
      if fieldOf w 63 62 = 1 then
        { addr := addr, addend := some (BitVec.ofNat 64 (leAt bs 8 8)), bytes := [] } ::
          parseActs k (bs.drop 16)
      else
        let n := fieldOf w 61 54 + 1
        { addr := addr, addend := none, bytes := slice bs 16 n } ::
          parseActs k (bs.drop (16 + ceilDiv n 16 * 16))

/-- Records packed into packets of at most `lim` bytes, none split (R375). -/
def packActs (lim : Nat) : List (List Byte) → List (List Byte)
  | [] => []
  | r :: t =>
    match packActs lim t with
    | [] => [r]
    | p :: ps => if r.length + p.length ≤ lim then (r ++ p) :: ps else r :: p :: ps

/-- A bundle control request. -/
def State.bndCtl (s : State) (src dst coord : Ec) (ctx : BitVec 12) (gen : BitVec 8) (op : Nat)
    (r : BndRef) (hgen : BitVec 8) : State :=
  let p : Packet := { dst := dst, src := src, slice := (s.ctx ctx.toNat).slice, ctx := ctx, gen := gen, kind := 0, op := BitVec.ofNat 8 op, word := bndCtlWord r 0 hgen, opa := coord.setWidth 64 }
  s.inject (epOf src) p

/-- Bundle data packets, numbered by PART. -/
def State.bndData (s : State) (src dst : Ec) (ctx : BitVec 12) (gen : BitVec 8) (op : Nat) (r : BndRef)
    (parts : List (List Byte)) : State :=
  (parts.zipIdx).foldl (fun (s : State) (q : List Byte × Nat) =>
    let w := bndDataWord q.1.length r (decide (q.2 + 1 = parts.length)) q.2
    let p : Packet := { dst := dst, src := src, slice := (s.ctx ctx.toNat).slice, data := true, ctx := ctx, gen := gen, kind := 0, op := BitVec.ofNat 8 op, word := w, payload := q.1 }
    s.inject (epOf src) p) s

/-- The coordinator's EC that a request to a home or controller names: its sender, the first bytes of a
LOCK, or, from an agent, the OPA that this model gives it (assumption 5). -/
def bndCoord (p : Packet) : Ec :=
  if p.op = 0x21 then BitVec.ofNat 48 (leAt p.payload 0 6)
  else
    let fn := ecFn p.dst
    if 0x50 ≤ fn ∧ fn ≤ 0x52 then p.opa.setWidth 48 else p.src

/-- The reply to a bundle request (R374). -/
def State.bndReply (s : State) (p : Packet) (status code : Nat) (hgen : BitVec 8) : State :=
  let q := replyTo p status ((bndCoord p).setWidth 64)
  s.inject (epOf p.dst) { q with word := bndCtlWord (bndRef p) code hgen }

/-! ### Building a bundle (R142 to R145) -/

/-- The target of an action (R369): package, and panicle store or granary. -/
structure TargetKey where
  pkg   : BitVec 24
  store : Option Nat
deriving DecidableEq, Repr

/-- The target that a global address names, if an action may name it (R144, R369). -/
def State.targetOf (s : State) (a : W64) : Option TargetKey :=
  match s.gaddr a with
  | none => none
  | some g => match ctxAddr g.loc with
    | .virtual => some { pkg := g.pkg, store := none }
    | .store p _ => some { pkg := g.pkg, store := some p }
    | _ => none

/-- Address of an action. -/
def BndAct.addr : BndAct → W64
  | .put a _ => a
  | .add a _ => a

/-- Distinct targets of actions, in the order of the first action that names each (R369). -/
def State.targetsOf (s : State) (as : List BndAct) : List TargetKey :=
  as.foldl (fun l a => match s.targetOf a.addr with
    | some k => if l.contains k then l else l ++ [k]
    | none => l) []

/-- Whether a package belongs to the slice of a context. -/
def State.inSlice (s : State) (ctx : BitVec 12) (pkg : BitVec 24) : Bool :=
  decide (pkg = s.fab.coord) ||
  s.host.slices.any (fun x => decide (x.id = (s.ctx ctx.toNat).slice) && x.pkgs.contains pkg)

/-- BND_TARGET: a bank, a control-space address, or a package outside the slice (R144). An address of this package that
Table 5-2 gives to nothing, which R144 does not name, raises it too: a choice of this model. -/
def State.badTarget (s : State) (ctx : BitVec 12) (a : W64) : Bool :=
  match s.gaddr a, s.targetOf a with
  | some g, some _ => !s.inSlice ctx g.pkg
  | some _, none => true
  | none, _ => false

/-- The bundle that a floret has open. -/
def State.openBundle (s : State) (f : FloretId) : Option (Fin 4 × OpenBundle) :=
  match (s.floret f.val).bundle with
  | none => none
  | some b => (Tab.get none (s.pan (panOfSpk (spkOfFloret f.val))).slots b.val).map (fun o => (b, o))

/-- Write a bundle slot. -/
def State.setBundle (s : State) (p : Nat) (b : Fin 4) (o : Option OpenBundle) : State :=
  s.setPan p { s.pan p with slots := Tab.set none (s.pan p).slots b.val o }

/-- BND_LIMIT: a 65th action or a 17th target (R144). -/
def State.bndFull (s : State) (o : OpenBundle) (a : W64) : Bool :=
  decide (o.acts.length ≥ 64) ||
  (match s.targetOf a with
   | some k => !(s.targetsOf o.acts).contains k && decide ((s.targetsOf o.acts).length ≥ 16)
   | none => false)

/-- `bnd.open sd` (R142, R143, R124). -/
def execBndOpen (f : FloretId) (g : BitVec 4) (d a b : BitVec 5) (s : State) : Out :=
  .next (s.issue f [d] (decide (a ≠ 0) || decide (b ≠ 0)) g (fun fl =>
    let p := panOfSpk (spkOfFloret f.val)
    if fl.bundle.isSome then .fault 0x30 none
    else match (List.range 4).find? (fun n => (Tab.get none (s.pan p).slots n).isNone) with
      | none => .ok (s.wrReg f d (BitVec.ofNat 64 (2 ^ 63)))
      | some n =>
        let b : Fin 4 := Fin.ofNat 4 n
        let seq := fl.bndSeq + 1
        let s := s.setFloret f.val ({ fl with bundle := some b, bndSeq := seq }.wr d (seq.setWidth 64))
        .ok (s.setBundle p b (some { floret := f, seq := seq }))))

/-- `bnd.put sd, sa, sb` (R143, R144): the data is copied at issue, once the floret's earlier bank accesses and drains
are done (R133), from the bank or, of the spilled part of its window, from the spill buffer (R193). A length outside 1–256
raises BND_LIMIT (assumption 6). Of several faults the lowest is recorded (R166), with what the read has counted (R42). -/
def execBndPut (f : FloretId) (g : BitVec 4) (d a b : BitVec 5) (s : State) : Out :=
  .next (s.issue f [d, a, b] false g (fun fl =>
    let i := spkOfFloret f.val
    let addr := fl.rd a
    let off := (fl.rd d).toNat % 65536
    let n := (fl.rd b).toNat
    let fits := decide (1 ≤ n) && decide (n ≤ 256)
    let c := (s.spk i).owner.1
    let o := s.openBundle f
    let at_ : W64 := BitVec.ofNat 64 off
    let later := [((s.gaddr addr).isNone, 0x22, some addr), (o.isNone, 0x30, none),
      ((match o with
        | some q => s.bndFull q.2 addr || !fits
        | none => !fits), 0x31, none),
      (s.badTarget c addr, 0x32, some addr)]
    if fits && decide (off + n > 65536) then .fault 0x04 (some at_)
    else if fits && (s.spk i).bankBusy (floretNo f.val) then .hold s .bank
    else
      let rows := if fits && (firstFault later).isNone then fl.spilledRows off n else []
      s.withSpill f.val fl.pc rows (fun _ =>
        let bank := if fits then fl.bankRows off n else []
        let (s, ue) := (s.countSpill f.val rows).checkList i bank
        match firstFault ((ue, 0x06, some at_) ::
          (bank.any (fun r => (s.spk i).shadow.getLsbD r), 0x08, some at_) :: later), o with
        | some (code, x), _ => .trap s code x
        | none, some (slot, o) =>
          let act : BndAct := .put addr (s.ownRead f.val off n)
          .ok (s.setBundle (panOfSpk i) slot (some { o with acts := o.acts ++ [act] }))
        | none, none => .hazard)))

/-- `bnd.add sa, sb` (R143, R144, R124). -/
def execBndAdd (f : FloretId) (g : BitVec 4) (d a b : BitVec 5) (s : State) : Out :=
  .next (s.issue f [a, b] (decide (d ≠ 0)) g (fun fl =>
    let i := spkOfFloret f.val
    let addr := fl.rd a
    let c := (s.spk i).owner.1
    let base := [(decide (addr.toNat % 8 ≠ 0), 0x03, some addr), ((s.gaddr addr).isNone, 0x22, some addr)]
    match s.openBundle f with
    | none => checked (base ++ [(true, 0x30, none)]) (fun _ => .hazard)
    | some (slot, o) =>
      checked (base ++ [(s.bndFull o addr, 0x31, none), (s.badTarget c addr, 0x32, some addr)]) (fun _ =>
        let act : BndAct := .add addr (fl.rd b)
        .ok (s.setBundle (panOfSpk i) slot (some { o with acts := o.acts ++ [act] })))))

/-- `bnd.drop` (R143, R144). -/
def execBndDrop (f : FloretId) (g : BitVec 4) (d a b : BitVec 5) (s : State) : Out :=
  .next (s.issue f [] (decide (d ≠ 0) || decide (a ≠ 0) || decide (b ≠ 0)) g (fun _ =>
    match s.openBundle f with
    | none => .fault 0x30 none
    | some _ => .ok (s.dropBundle f.val)))

/-! ### Coordinators -/

/-- A bundle of a coordinator. -/
def State.coordRec (s : State) (p : Nat) (id : BndId) : Option CoordRec :=
  (s.panBnd p).coord.find? (fun r => r.id = id)

/-- Write a bundle of a coordinator. -/
def State.setCoord (s : State) (p : Nat) (r : CoordRec) : State :=
  let b := s.panBnd p
  s.setPanBnd p { b with coord := b.coord.map (fun x => if x.id = r.id then r else x) }

/-- The EC of a coordinator. -/
def State.coordEc (s : State) (p : Nat) : Ec := s.panEc p 0x41

/-- A control message from a coordinator to a target. -/
def State.toTarget (s : State) (p : Nat) (r : CoordRec) (op tidx : Nat) (t : BndTarget) : State :=
  s.bndCtl (s.coordEc p) t.dst (s.coordEc p) r.ctx r.gen op (refOf r.id tidx) t.hgen

/-- A control message from a coordinator to the targets that `pick` names. -/
def State.toTargets (s : State) (p : Nat) (r : CoordRec) (op : Nat) (pick : BndTarget → Bool) : State :=
  (r.targets.zipIdx).foldl (fun (s : State) (q : BndTarget × Nat) =>
    if pick q.1 then s.toTarget p r op q.2 q.1 else s) s

/-- The slot of a `bnd.commit` is freed and its result written (R145, R385). -/
def State.owePaid (s : State) (r : CoordRec) (result : Nat) : State :=
  match r.owed with
  | none => s
  | some (n, _) =>
    let i := spkOfFloret r.floret.val
    match (s.spk i).slot n with
    | some x =>
      if x.kind = .commit ∧ x.floret = floretNo r.floret.val then
        let s := s.freeSlotAt i n
        let s := s.setFloret r.floret.val
          ((s.floret r.floret.val).land x.dst (BitVec.ofNat 64 result))
        s.pump i
      else s
    | none => s

/-- Completed bundles are counted by their result (Table 11-9). -/
def State.countBnd (s : State) (p : Nat) (result : Nat) : State :=
  let b := s.panBnd p
  let code := result % 256
  if code = 0 then s.setPanBnd p { b with commits := satAdd b.commits 1 }
  else if code ≤ 0x0A then s.setPanBnd p { b with aborts := satAdd b.aborts 1 }
  else s

/-- A bundle leaves its coordinator. -/
def State.dropCoord (s : State) (p : Nat) (id : BndId) : State :=
  let b := s.panBnd p
  s.setPanBnd p { b with coord := b.coord.filter (fun x => x.id ≠ id) }

/-- PREPARE packets to every target, in TIDX order (R369). A bundle with no action has no target to
wait for and commits at once. -/
def State.sendPrepares (s : State) (p : Nat) (r : CoordRec) : State :=
  if r.targets.isEmpty then ((s.dropCoord p r.id).owePaid r 0).countBnd p 0
  else
    let s := s.setCoord p { r with sent := true }
    (r.targets.zipIdx).foldl (fun (s : State) (q : BndTarget × Nat) =>
      s.bndData (s.coordEc p) q.1.dst r.ctx r.gen 0x20 (refOf r.id q.2) q.1.parts) s

/-- Commits that wait for a decision-log entry go on while fewer than 16 are in use (R377). -/
def State.pumpCoord (s : State) (p : Nat) : Nat → State
  | 0 => s
  | k + 1 =>
    let l := (s.panBnd p).coord
    if l.countP (fun r => r.sent) ≥ 16 then s
    else match l.find? (fun r => !r.sent) with
      | none => s
      | some r => (s.sendPrepares p r).pumpCoord p k

/-- The decision ABORT (R378): ABORT to every target that received a PREPARE, the result, no record. -/
def State.decideAbort (s : State) (p : Nat) (r : CoordRec) (code tidx : Nat) : State :=
  let s := if r.sent then s.toTargets p r 0x23 (fun _ => true) else s
  let res := code + tidx * 256
  (((s.dropCoord p r.id).owePaid r res).countBnd p res).pumpCoord p 16

/-- Actions of a bundle as records of one target. -/
def State.actsOf (s : State) (as : List BndAct) (k : TargetKey) : List (List Byte) :=
  (as.filter (fun a => decide (s.targetOf a.addr = some k))).map (fun a =>
    let loc := fld a.addr 43 0
    match a with
    | .put _ bs => ActRec.bytesOf { addr := loc, addend := none, bytes := bs }
    | .add _ v => ActRec.bytesOf { addr := loc, addend := some v, bytes := [] })

/-- The EC that a target's PREPARE goes to (R174, R175, R370, R374). -/
def State.targetEc (s : State) (p : Nat) (k : TargetKey) : Ec :=
  match k.store with
  | some q => if k.pkg = s.fab.coord then s.panEc q 0x40 else ecOf k.pkg (tillerOfPan q) (q % 192) 0 0x41
  | none => ecOf k.pkg (tillerOfPan p) (p % 192) 0 0x41

/-- `bnd.commit sd` (R143, R145, R377): the slot goes to the coordinator, and one remote-operation slot
is held until the result. The bundle's own slot is free once the commit has issued, the data being the coordinator's
from then on: Table 4-9 does not say when, and this is a choice of this model. -/
def execBndCommit (f : FloretId) (g : BitVec 4) (d a b : BitVec 5) (s : State) : Out :=
  .next (s.issue f [d] (decide (a ≠ 0) || decide (b ≠ 0)) g (fun fl =>
    let i := spkOfFloret f.val
    let p := panOfSpk i
    match s.openBundle f with
    | none => .fault 0x30 none
    | some (_, o) =>
      match (s.spk i).mayTake (floretNo f.val), (s.spk i).freeSlot with
      | true, some n =>
        let ts : List BndTarget := (s.targetsOf o.acts).map (fun k =>
          { dst := s.targetEc p k, parts := packActs 2048 (s.actsOf o.acts k) })
        let own := (s.spk i).owner
        let r : CoordRec := { id := { ec := s.floretEc f.val, seq := o.seq }, floret := f, ctx := own.1, gen := own.2, targets := ts, owed := some (n, d) }
        let s := s.dropBundle f.val
        let s := s.setFloret f.val ((s.floret f.val).mark d)
        let s := s.putSlot i n { floret := floretNo f.val, kind := .commit, pc := fl.pc, dst := d }
        let b := s.panBnd p
        .ok ((s.setPanBnd p { b with coord := b.coord ++ [r] }).pumpCoord p 16)
      | _, _ => .hold s .slot))

/-! ### Records of homes and agents -/

/-- The records at a holder. -/
def State.recs (s : State) (h : HomeId) : List HomeRec :=
  match h with
  | .store p => (s.panBnd p.val).homes
  | .agent p => (s.panBnd p.val).agents
  | .stack n => (s.stackBnd n.val).homes

/-- Lock entries in use (R372). -/
def lockEntries (l : List HomeRec) : Nat := l.foldl (fun n r => n + r.lines.length) 0

/-- The vertex of the step that issued a bundle (Table 15-8). -/
def HomeRec.vertex (r : HomeRec) : Vertex :=
  .step (ecPkg r.id.ec) (Fin.ofNat 8 (ecTil r.id.ec)) (Fin.ofNat 4096 r.ctx.toNat)

/-- Lock waits among records, as edges from waiting to holding step (R383). -/
def bndEdges (l : List HomeRec) : List Edge :=
  let es := l.flatMap (fun r => r.lines.flatMap (fun x =>
    if x.2 then []
    else (l.filter (fun q => q.lines.contains (x.1, true))).map (fun q =>
      { src := r.vertex, dst := q.vertex, owner := Fin.ofNat 4096 r.ctx.toNat : Edge })))
  es.eraseDups

/-- Write the records at a holder: lock waits that begin or end are reported (R383), and the highest
lock count kept (Table 11-13). -/
def State.setRecs (s : State) (h : HomeId) (l : List HomeRec) : State :=
  let before := bndEdges (s.recs h)
  let after := bndEdges l
  let s := match h with
    | .store p => s.setPanBnd p.val { s.panBnd p.val with homes := l }
    | .agent p => s.setPanBnd p.val { s.panBnd p.val with agents := l }
    | .stack n =>
      let b := s.stackBnd n.val
      s.setStackBnd n.val { b with homes := l, peak := satOf 13 (Nat.max b.peak.toNat (lockEntries l)) }
  let s := (before.filter (fun e => !after.contains e)).foldl (fun s e => s.dropEdge e) s
  (after.filter (fun e => !before.contains e)).foldl (fun s e => s.postEdge e) s

/-- A record. -/
def State.homeRec (s : State) (h : HomeId) (id : BndId) : Option HomeRec :=
  (s.recs h).find? (fun r => r.id = id)

/-- Write a record. -/
def State.setRec (s : State) (h : HomeId) (r : HomeRec) : State :=
  s.setRecs h ((s.recs h).map (fun x => if x.id = r.id then r else x))

/-- Free lines pass to the oldest bundle that waits for each (R381). -/
def grantLines (l : List HomeRec) : List HomeRec :=
  l.map (fun r => { r with lines := r.lines.map (fun x =>
    if x.2 then x
    else
      let taken := l.any (fun q => q.lines.contains (x.1, true))
      let first := !l.any (fun q => q.lines.contains (x.1, false) && bndOlder q.id r.id)
      (x.1, !taken && first)) })

/-- A WOUND message is counted at its home (Tables 11-9 and 11-13). -/
def State.countWound (s : State) (h : HomeId) : State :=
  match h with
  | .store p | .agent p =>
    s.setPanBnd p.val { s.panBnd p.val with wounds := satAdd (s.panBnd p.val).wounds 1 }
  | .stack n => s.setStackBnd n.val { s.stackBnd n.val with wounds := satAdd (s.stackBnd n.val).wounds 1 }

/-- Holders that a record's lines wait for and that it must wound: younger, LOCKING or PREPARED, and
not wounded by it before (Table 11-6). -/
def toWound (l : List HomeRec) (r : HomeRec) : List HomeRec :=
  l.filter (fun q => decide (q.st ≠ .committed) && bndOlder r.id q.id && !r.wounded.contains q.id &&
    r.lines.any (fun x => !x.2 && q.lines.contains (x.1, true)))

/-- Lines that records at a holder have locked leave the run-ahead buffer (R249). -/
def State.unbuffer (s : State) (h : HomeId) (l : List HomeRec) : State :=
  match h with
  | .stack _ => (l.flatMap (fun r => (r.lines.filter (fun x => x.2)).map (fun x => x.1 * 64))).foldl (fun s a => s.pfForget a 64) s
  | _ => s

/-- Locks are granted and WOUND messages sent after a change at a home (R249, R381). -/
def State.settle (s : State) (h : HomeId) : State :=
  let l := grantLines (s.recs h)
  let s := (s.setRecs h l).unbuffer h l
  l.foldl (fun s r =>
    (toWound l r).foldl (fun s q =>
      match s.homeRec h r.id with
      | none => s
      | some cur =>
        let s := s.setRec h { cur with wounded := cur.wounded ++ [q.id] }
        (s.countWound h).bndCtl r.req.dst q.coord q.coord q.ctx q.gen 0x25 (refOf q.id q.tidx) 0) s) s

/-- Ordinary requests that waited at a record are served (R386). -/
def State.serveWaiters (s : State) (r : HomeRec) : State := r.waiters.foldl (fun s p => s.request p) s

/-- A record goes: its lines are free, its waiters are served, and others may lock (Table 11-7). -/
def State.freeRec (s : State) (h : HomeId) (r : HomeRec) : State :=
  let s := s.setRecs h ((s.recs h).filter (fun x => x.id ≠ r.id))
  (s.serveWaiters r).settle h

/-- The generation of a holder's reset domain (R372, R375). -/
def State.homeGen (s : State) (h : HomeId) : BitVec 8 :=
  match h with
  | .store p | .agent p => (s.dom (8 + tillerOfPan p.val)).gen
  | .stack n => (s.dom (16 + n.val)).gen

/-- Whether a holder's domain is resetting. -/
def State.homeDown (s : State) (h : HomeId) : Bool :=
  match h with
  | .store p | .agent p => s.domResetting (8 + tillerOfPan p.val)
  | .stack n => s.domResetting (16 + n.val) || (s.stack n.val).resetting

/-- A vote for a record, with the generation of the voting domain (Table 11-3). -/
def State.vote (s : State) (h : HomeId) (r : HomeRec) (code : Nat) : State :=
  s.bndReply r.req 0 code (s.homeGen h)

/-- Lock entries of a holder (R372). -/
def homeCap : HomeId → Nat
  | .store _ | .agent _ => 128
  | .stack _ => 4096

/-- Lines of actions, each once, ascending. -/
def actLines (as : List ActRec) : List Nat :=
  let ls := (as.flatMap (fun a => linesOf a.addr (if a.addend.isSome then 8 else a.bytes.length))).eraseDups
  ls.mergeSort (fun a b => decide (a ≤ b))

/-- The context and slice checks of a home (Table 11-5); 0 if both pass. -/
def State.bndCheck (s : State) (h : HomeId) (p : Packet) : Nat :=
  let o : Option (BitVec 12 × BitVec 8) := match h with
    | .store q => (s.pan q.val).bound
    | _ =>
      let c := s.ctx p.ctx.toNat
      if c.st = .free then none else some (p.ctx, c.gen)
  match o with
  | some o =>
    if (s.ctx o.1.toNat).slice ≠ p.slice then 0x0A
    else if o ≠ (p.ctx, p.gen) then 0x09
    else 0
  | none => 0x09

/-- Messages from an agent to its controllers. -/
def State.toStacks (s : State) (p : Nat) (r : HomeRec) (op : Nat) (pick : AgentStack → Bool) : State :=
  (r.ctrls.filter pick).foldl (fun s k =>
    s.bndCtl (s.panEc p 0x41) (s.stackEc k.stack.val) r.coord r.ctx r.gen op (refOf r.id r.tidx) k.hgen) s

/-- A record ends before PREPARED with a vote; an agent's controllers are told (Table 11-7). -/
def State.refuse (s : State) (h : HomeId) (r : HomeRec) (code : Nat) : State :=
  let s := match h with
    | .agent p => s.toStacks p.val r 0x23 (fun _ => true)
    | _ => s
  (s.vote h r code).freeRec h r

/-- Pieces of an action within single lines, with their addresses. -/
def ActRec.pieces (a : ActRec) : List ActRec :=
  match a.addend with
  | some _ => [a]
  | none => (linesOf a.addr a.bytes.length).map (fun l =>
      let lo := Nat.max (l * 64) a.addr
      let hi := Nat.min (l * 64 + 64) (a.addr + a.bytes.length)
      { addr := lo, addend := none, bytes := slice a.bytes (lo - a.addr) (hi - lo) })

/-- What an agent's translations come to. -/
inductive AgentXl where
  | done (as : List ActRec)
  | refused (code : Nat)
  | far (va : Nat) (got : List ActRec)
  | miss (va : Nat) (got : List ActRec)
deriving DecidableEq, Repr

/-- The result code of a refused translation (Table 11-5). -/
def xlCode (st : Nat) : Nat := if st = 4 then 0x08 else if st = 2 then 0x09 else 0x07

/-- Actions translated at the agent's package (R370): W is needed. `acc` are those that it has; `got` is what the
translation of the first came to, if it had to wait for it. -/
def State.agentXl (s : State) (p : Nat) (ctx : BitVec 12) (gen : BitVec 8) (acc : List ActRec) (got : Option Xlat) :
    List ActRec → State × AgentXl
  | [] => (s, .done acc)
  | a :: t =>
    match (match got with
      | some r => (s, r)
      | none => s.tlbLookup p ctx gen a.addr true) with
    | (s, .pa pa) => s.agentXl p ctx gen (acc ++ [{ a with addr := pa }]) none t
    | (s, .refuse st) => (s, .refused (xlCode st))
    | (s, .far) => (s, .far a.addr acc)
    | (s, .miss) => (s, .miss a.addr acc)

/-- Free the staging slots of a target's PREPARE (R380). -/
def State.unstage (s : State) (id : BndId) (tidx : Nat) : State :=
  { s with red := { s.red with slots := s.red.slots.map (fun (q : Nat × StrawSlots) =>
      (q.1, { q.2 with staged := q.2.staged.filter (fun x =>
        !(decide (bndIdOf x.pkt.src (bndRef x.pkt) = id) && decide ((bndRef x.pkt).tidx = tidx))) })) } }

/-- An agent has all its records: it translates them, waiting for walks and far pages (R184, R200), and sends LOCK
packets, or votes (R370). `got` is what a translation that it waited for came to. -/
def State.agentGo (s : State) (p : PanId) (id : BndId) (pkt : Packet) (got : Option Xlat) : State :=
  match s.homeRec (.agent p) id with
  | none => s
  | some r =>
    let w := fun (va : Nat) => ({ ctx := r.ctx, gen := r.gen, va := va, write := true, who := .packet pkt } : Xl)
    match s.agentXl p.val r.ctx r.gen r.xlated got ((r.actions.flatMap ActRec.pieces).drop r.xlated.length) with
    | (s, .far va as) => (s.setRec (.agent p) { r with xlated := as }).holdFar p.val (w va)
    | (s, .miss va as) => (s.setRec (.agent p) { r with xlated := as }).askWalk p.val (w va)
    | (s, .refused code) => (s.refuse (.agent p) r code).unstage id r.tidx
    | (s, .done as) =>
      let ns := (List.range 24).filter (fun n => as.any (fun a => decide ((hashPa a.addr).1 = n)))
      let s := s.setRec (.agent p) { r with ctrls := ns.map (fun n => { stack := Fin.ofNat 24 n }) }
      let s := ns.foldl (fun s n =>
        let rs := (as.filter (fun a => decide ((hashPa a.addr).1 = n))).map ActRec.bytesOf
        let parts := (packActs 2040 rs).map (fun x => toLE 8 r.coord.toNat ++ x)
        s.bndData (s.panEc p.val 0x41) (s.stackEc n) r.ctx r.gen 0x21 (refOf id r.tidx) parts) s
      s.unstage id r.tidx

/-- All records of a target have come to a home: locks are requested on its lines, or LOCK_FULL is
voted (R372, Table 11-7). -/
def State.homeGo (s : State) (h : HomeId) (r : HomeRec) : State :=
  let ls := actLines r.actions
  if lockEntries (s.recs h) + ls.length > homeCap h then s.refuse h r 0x03
  else (s.setRec h { r with lines := ls.map (fun l => (l, false)) }).settle h

/-- Whether an action of a PREPARE or LOCK runs past its home (R617): outside the store, or outside the
granary. -/
def badAct (h : HomeId) (a : ActRec) : Bool :=
  let n := if a.addend.isSome then 8 else a.bytes.length
  match h with
  | .store p => decide (a.addr < storeBase p.val) || decide (a.addr + n > storeBase p.val + 524288)
  | .agent _ => decide (a.addr + n > 0x80000000000)
  | .stack _ => decide (a.addr + n > granaryEnd)

/-- A PREPARE or LOCK packet is taken in (Table 11-7, FREE and LOCKING). -/
def State.takeIn (s : State) (h : HomeId) (pkt : Packet) : State :=
  let s := s.consume pkt
  let coord := bndCoord pkt
  let ref := bndRef pkt
  let id := bndIdOf coord ref
  let as := parseActs 256 (if pkt.op = 0x21 then pkt.payload.drop 8 else pkt.payload)
  let out := fun (s : State) => if pkt.op = 0x21 then s else s.unstage id ref.tidx
  if s.homeDown h then out (s.bndReply pkt 1 0x05 0)
  else
    let cur := s.homeRec h id
    let fresh : HomeRec := { id := id, tidx := ref.tidx, ctx := pkt.ctx, gen := pkt.gen, slice := pkt.slice, coord := coord, req := pkt, agent := (match h with | .agent _ => true | _ => false) }
    match cur, bndPart pkt with
    | none, 0 =>
      let bad := if as.any (badAct h) then 0x07 else s.bndCheck h pkt
      if bad ≠ 0 then out (s.bndReply pkt 0 bad (s.homeGen h))
      else if fresh.agent && decide ((s.recs h).length ≥ 32) then out (s.bndReply pkt 0 0x03 (s.homeGen h))
      else
        let r := { fresh with actions := as }
        let s := s.setRecs h (s.recs h ++ [r])
        if !bndLast pkt then s
        else match h with
          | .agent p => s.agentGo p id pkt none
          | _ => out (s.homeGo h r)
    | none, _ => out s
    | some r, _ =>
      if r.st ≠ .locking ∨ r.lines.isEmpty = false ∨ r.ctrls.isEmpty = false then s
      else if as.any (badAct h) then out (s.refuse h { r with req := pkt } 0x07)
      else
        let r := { r with actions := r.actions ++ as, req := pkt }
        let s := s.setRec h r
        if !bndLast pkt then s
        else match h with
          | .agent p => s.agentGo p id pkt none
          | _ => out (s.homeGo h r)

/-- PREPARE_STAGING (R380): a PREPARE that arrives by straw takes a staging slot of its slice, or the
straw port answers STAGE_FULL and discards it. -/
def execPrepareStaging (w : StrawId) (pkt : Packet) (s : State) : Out :=
  let k : StrawSlots := Tab.get {} s.red.slots w.val
  let cap := match k.parts.find? (fun x => x.slice = pkt.slice) with
    | some x => x.bnd
    | none => 0
  let put := fun (s : State) (k : StrawSlots) =>
    { s with red := { s.red with slots := Tab.set {} s.red.slots w.val k } }
  if k.staged.countP (fun x => x.slice = pkt.slice) < cap then
    let x : Staged := { slice := pkt.slice, pkt := pkt }
    .next (put s { k with staged := k.staged ++ [x], stagedCt := satAdd k.stagedCt 1 })
  else .next (((put s { k with fullCt := satAdd k.fullCt 1 }).takePkt pkt).bndReply pkt 0 0x04 (s.dom 1).gen)

/-- PREPARE (R370, R371, R393). -/
def execPrepare (h : HomeId) (pkt : Packet) (s : State) : Out := .next (s.takeIn h { pkt with op := 0x20 })

/-- LOCK (R370, R393). -/
def execLock (n : StackId) (pkt : Packet) (s : State) : Out :=
  .next (s.takeIn (.stack n) { pkt with op := 0x21 })

/-! ### Images (R373) -/

/-- Bytes of lines as a table. -/
def State.lineBytes (s : State) (ls : List Nat) : Tab Byte :=
  ls.foldl (fun t l => Tab.setMany 0 t (l * 64) (s.read (l * 64) 64)) []

/-- One action on bytes. -/
def ActRec.apply (t : Tab Byte) (a : ActRec) : Tab Byte :=
  match a.addend with
  | none => Tab.setMany 0 t a.addr a.bytes
  | some v => Tab.setMany 0 t a.addr (toLE 8 (BitVec.ofNat 64 (ofLE (Tab.getMany 0 t a.addr 8)) + v).toNat)

/-- The images of lines once actions have been applied in order. -/
def State.images (s : State) (ls : List Nat) (as : List ActRec) : List (Nat × List Byte) :=
  let t := as.foldl ActRec.apply (s.lineBytes ls)
  ls.map (fun l => (l, Tab.getMany 0 t (l * 64) 64))

/-- The lines of a record read with their codes; true where one is uncorrectable. -/
def State.readLines (s : State) (h : HomeId) (r : HomeRec) : State × Bool :=
  match h with
  | .stack _ => s.paUe (r.lines.map (fun l => l.1)) 2 r.ctx
  | .store p | .agent p =>
    r.lines.foldl (fun q l =>
      let x := q.1.checkStore p.val (l.1 * 64 - storeBase p.val) 64
      (x.1, q.2 || x.2)) (s, false)

/-- An uncorrectable word found while a record's first line is read. -/
def State.plantLine (s : State) (h : HomeId) (r : HomeRec) : State :=
  match h, r.lines with
  | _, [] => s
  | .stack _, l :: _ => { s with mem := { s.mem with line := Tab.set none s.mem.line l.1 (some true) } }
  | _, l :: _ => s.setEcc (l.1 * 4) (some true)

/-- LINES_LOCKED (R373, Table 11-7). -/
def execLinesLocked (h : HomeId) (id : BndId) (ue : Bool) (s : State) : Out :=
  match s.homeRec h id with
  | none => .next s
  | some r =>
    if r.agent || decide (r.st ≠ .locking) || r.lines.isEmpty || r.lines.any (fun l => !l.2) then .next s
    else
      let s := if ue then s.plantLine h r else s
      match s.readLines h r with
      | (s, true) => .next (s.refuse h r 0x08)
      | (s, false) =>
        let r := { r with st := .prepared, hgen := s.homeGen h, image := s.images (r.lines.map (fun l => l.1)) r.actions }
        .next ((s.setRec h r).vote h r 0)

/-- LOCKING_TIMEOUT (Table 11-7). -/
def execLockingTimeout (h : HomeId) (id : BndId) (s : State) : Out :=
  match s.homeRec h id with
  | none => .next s
  | some r => if r.st = .locking then .next ((s.refuse h r 0x02).unstage id r.tidx) else .next s

/-! ### Votes and decisions -/

/-- A vote at its coordinator (R378). -/
def State.coordVote (s : State) (p : Nat) (pkt : Packet) : State :=
  let ref := bndRef pkt
  match s.coordRec p (bndIdOf (s.coordEc p) ref) with
  | none => s
  | some r =>
    if r.committed then s
    else if pkt.status = 1 then s.decideAbort p r 0x05 ref.tidx
    else if bndCode pkt ≠ 0 then s.decideAbort p r (bndCode pkt) ref.tidx
    else match r.targets[ref.tidx]? with
      | none => s
      | some t =>
        let r := { r with targets := putAt r.targets ref.tidx { t with voted := true, hgen := bndHgen pkt } }
        if r.targets.all (fun t => t.voted) then
          let r := { r with committed := true }
          (s.setCoord p r).toTargets p r 0x22 (fun _ => true)
        else s.setCoord p r

/-- The controller that sent a packet to an agent. -/
def stackOfEc (e : Ec) : StackId := Fin.ofNat 24 (ecTil e * 3 + (ecFn e - 0x50))

/-- Whether a packet comes from a granary controller. -/
def fromStack (p : Packet) : Bool := decide (0x50 ≤ ecFn p.src) && decide (ecFn p.src ≤ 0x52)

/-- A controller's vote at its agent (R370, R393). -/
def State.agentVote (s : State) (p : PanId) (pkt : Packet) : State :=
  let id := bndIdOf (pkt.opa.setWidth 48) (bndRef pkt)
  match s.homeRec (.agent p) id with
  | none => s
  | some r =>
    if r.st ≠ .locking then s
    else if pkt.status = 1 then s.refuse (.agent p) r 0x05
    else if bndCode pkt ≠ 0 then s.refuse (.agent p) r (bndCode pkt)
    else
      let n := stackOfEc pkt.src
      let r := { r with ctrls := r.ctrls.map (fun (k : AgentStack) =>
        if k.stack = n then { k with voted := true, hgen := bndHgen pkt } else k) }
      if r.ctrls.all (fun k => k.voted) then
        let r := { r with st := .prepared, hgen := s.homeGen (.agent p) }
        (s.setRec (.agent p) r).vote (.agent p) r 0
      else s.setRec (.agent p) r

/-- VOTE (R378): at an agent when a controller sends it, else at the coordinator. -/
def execVote (p : PanId) (pkt : Packet) (s : State) : Out :=
  let s := s.consume pkt
  if fromStack pkt then .next (s.agentVote p pkt) else .next (s.coordVote p.val pkt)

/-- The answer to a COMMIT, at once or once an agent's controllers have answered. -/
def HomeRec.commitReq (r : HomeRec) : Packet := { r.req with data := false, op := 0x22, kind := 0, word := bndCtlWord (refOf r.id r.tidx) 0 r.hgen, opa := r.coord.setWidth 64, payload := [] }

/-- A home writes the images of a prepared record as whole lines, replies APPLIED, and serves the
requests that waited (R373, R386, Table 11-7). -/
def State.applyRec (s : State) (h : HomeId) (r : HomeRec) : State :=
  let s := s.setRec h { r with st := .committed, image := [], waiters := [] }
  let s := r.image.foldl (fun s x =>
    let s := match h with
      | .stack _ => (s.paWrite (x.1 * 64) x.2 r.ctx).1
      | .store p | .agent p => (s.storeWrite p.val (x.1 * 64 - storeBase p.val) x.2).1
    s.wakeCells (x.1 * 64) 64) s
  (s.bndReply r.commitReq 0 0 r.hgen).serveWaiters r

/-- The decision COMMIT at a holder: a home applies, an agent tells its controllers. A record that has
applied confirms again. -/
def State.doCommit (s : State) (h : HomeId) (r : HomeRec) : State :=
  match h, r.st with
  | .agent p, .prepared => s.toStacks p.val r 0x22 (fun k => !k.applied)
  | .agent _, .committed => if r.torn then s.bndReply r.commitReq 1 0x05 0 else s.bndReply r.commitReq 0 0 r.hgen
  | _, .prepared => s.applyRec h r
  | _, .committed => s.bndReply r.commitReq 0 0 r.hgen
  | _, .locking => s

/-- The decision ABORT at a holder (Table 11-7). -/
def State.doAbort (s : State) (h : HomeId) (r : HomeRec) : State :=
  if r.st = .committed then s
  else
    let s := match h with
      | .agent p => s.toStacks p.val r 0x23 (fun _ => true)
      | _ => s
    (s.freeRec h r).unstage r.id r.tidx

/-- COMMIT (R379): the generation of the vote must still be that of the domain. -/
def execCommit (h : HomeId) (pkt : Packet) (s : State) : Out :=
  let s := s.consume pkt
  if s.homeDown h || decide (bndHgen pkt ≠ s.homeGen h) then .next (s.bndReply pkt 1 0x05 0)
  else match s.homeRec h (bndIdOf (bndCoord pkt) (bndRef pkt)) with
    | none => .next s
    | some r => .next (s.doCommit h r)

/-- ABORT (R378, Table 11-7). -/
def execAbort (h : HomeId) (pkt : Packet) (s : State) : Out :=
  let s := s.consume pkt
  let s := match s.homeRec h (bndIdOf (bndCoord pkt) (bndRef pkt)) with
    | none => s
    | some r => s.doAbort h r
  .next (s.bndReply pkt 0 0 0)

/-- RELEASE (Table 11-7). -/
def execRelease (h : HomeId) (pkt : Packet) (s : State) : Out :=
  let s := s.consume pkt
  let s := match s.homeRec h (bndIdOf (bndCoord pkt) (bndRef pkt)) with
    | none => s
    | some r =>
      if r.st = RecSt.committed then
        let s := match h with
          | .agent p => s.toStacks p.val r 0x24 (fun _ => true)
          | _ => s
        s.freeRec h r
      else s
  .next (s.bndReply pkt 0 0 0)

/-- An event of a panicle's bundles is recorded and logged (R388, Tables 11-11 and 11-12); kinds 0
BND_TORN, 1 BND_ORPHAN, 2 BND_LATE. -/
def State.bndEvent (s : State) (p : Nat) (kind : Nat) (ctx : BitVec 12) (id : BndId) : State :=
  let b := s.panBnd p
  let b := if b.evtValid then { b with evtOvf := true }
    else { b with
      evtValid := true, evtKind := BitVec.ofNat 2 kind, evtCtx := ctx, evtSpk := id.ec.extractLsb' 7 6,
      evtFloret := id.ec.extractLsb' 0 4, evtSeq := id.seq }
  (s.setPanBnd p b).log (if kind = 0 then 0x0501 else if kind = 1 then 0x0502 else 0x0503)
    (if kind = 2 then 0 else 1) (some ctx) (s.panEc p 0x41) id.ec id.seq.toNat

/-- Every target has answered COMMIT: `bnd.commit` completes with 0 unless it has completed, and
RELEASE goes to every target (R377, R385). -/
def State.coordAll (s : State) (p : Nat) (r : CoordRec) : State :=
  if r.targets.all (fun t => t.applied || t.torn) then
    let s := if r.owed.isSome && r.targets.all (fun t => t.applied) then
        (s.owePaid r 0).countBnd p 0
      else s
    let r := { r with owed := none }
    (s.setCoord p r).toTargets p r 0x24 (fun _ => true)
  else s.setCoord p r

/-- A target answered COMMIT with DOMAIN_RESETTING: the bundle is torn (R388). -/
def State.coordTorn (s : State) (p : Nat) (r : CoordRec) (n : Nat) (t : BndTarget) : State :=
  let s := if t.torn then s else s.bndEvent p 0 r.ctx r.id
  let s := s.owePaid r 0x81
  s.coordAll p { r with owed := none, targets := putAt r.targets n { t with torn := true } }

/-- APPLIED (R385, R388): at an agent from a controller, else at the coordinator. -/
def execApplied (p : PanId) (pkt : Packet) (s : State) : Out :=
  let s := s.consume pkt
  let ref := bndRef pkt
  if fromStack pkt then
    let id := bndIdOf (pkt.opa.setWidth 48) ref
    match s.homeRec (.agent p) id with
    | none => .next s
    | some r =>
      if r.st ≠ .prepared then .next s
      else
        let n := stackOfEc pkt.src
        let r := { r with torn := r.torn || decide (pkt.status = 1), ctrls := r.ctrls.map (fun (k : AgentStack) => if k.stack = n then { k with applied := true } else k) }
        if r.ctrls.all (fun k => k.applied) then
          let r := { r with st := .committed }
          .next ((s.setRec (.agent p) r).doCommit (.agent p) r)
        else .next (s.setRec (.agent p) r)
  else match s.coordRec p.val (bndIdOf (s.coordEc p.val) ref) with
    | none => .next s
    | some r => match r.committed, r.targets[ref.tidx]? with
      | true, some t =>
        if pkt.status = 1 then .next (s.coordTorn p.val r ref.tidx t)
        else .next (s.coordAll p.val { r with targets := putAt r.targets ref.tidx { t with applied := true } })
      | _, _ => .next s

/-- RELEASE_ACK (R377): the log entry is freed once every target has acknowledged RELEASE. -/
def execReleaseAck (p : PanId) (pkt : Packet) (s : State) : Out :=
  let s := s.consume pkt
  let ref := bndRef pkt
  if fromStack pkt || decide (pkt.op ≠ 0xA4) then .next s
  else match s.coordRec p.val (bndIdOf (s.coordEc p.val) ref) with
    | none => .next s
    | some r => match r.committed, r.targets[ref.tidx]? with
      | true, some t =>
        let r := { r with targets := putAt r.targets ref.tidx { t with released := true } }
        if r.targets.all (fun t => t.released) then .next ((s.dropCoord p.val r.id).pumpCoord p.val 16)
        else .next (s.setCoord p.val r)
      | _, _ => .next s

/-- WOUND (R382). -/
def execWound (p : PanId) (pkt : Packet) (s : State) : Out :=
  let s := s.consume pkt
  let ref := bndRef pkt
  match s.coordRec p.val (bndIdOf (s.coordEc p.val) ref) with
  | none => .next (s.bndReply pkt 0 0x05 0)
  | some r =>
    if r.committed then .next (s.bndReply pkt 0 0 0)
    else .next ((s.decideAbort p.val r 0x01 ref.tidx).bndReply pkt 0 0x01 0)

/-- WOUND_REPLY (R382): a coordinator without a record makes the home free the holder's entries. -/
def execWoundReply (h : HomeId) (pkt : Packet) (s : State) : Out :=
  let s := s.consume pkt
  match s.homeRec h (bndIdOf pkt.src (bndRef pkt)) with
  | none => .next s
  | some r => if bndCode pkt = 0x05 then .next (s.doAbort h r) else .next s

/-- BND_QUERY (R382, R387): the decision, or ABORT without a record. A coordinator that has not decided
leaves the home to ask again. -/
def execBndQuery (p : PanId) (pkt : Packet) (s : State) : Out :=
  let s := s.consume pkt
  let ref := bndRef pkt
  match s.coordRec p.val (bndIdOf (s.coordEc p.val) ref) with
  | none => .next (s.bndReply pkt 0 0x05 0)
  | some r => if r.committed then .next (s.bndReply pkt 0 0 0) else .next s

/-- BND_DECISION (R387): the answer to a QUERY acts as COMMIT or ABORT. -/
def execBndDecision (h : HomeId) (pkt : Packet) (s : State) : Out :=
  let s := s.consume pkt
  match s.homeRec h (bndIdOf pkt.src (bndRef pkt)) with
  | none => .next s
  | some r => if bndCode pkt = 0 then .next (s.doCommit h r) else .next (s.doAbort h r)

/-! ### Deadlines -/

/-- PREPARE_DEADLINE (R384). -/
def execPrepareDeadline (p : PanId) (id : BndId) (s : State) : Out :=
  match s.coordRec p.val id with
  | none => .next s
  | some r => if r.committed then .next s else .next (s.decideAbort p.val r 0x02 0)

/-- COMMIT_LATE (R385). -/
def execCommitLate (p : PanId) (id : BndId) (s : State) : Out :=
  match s.coordRec p.val id with
  | none => .next s
  | some r =>
    if r.committed && r.owed.isSome then
      .next (((s.owePaid r 0x80).setCoord p.val { r with owed := none }).bndEvent p.val 2 r.ctx r.id)
    else .next s

/-- COMMIT_RESEND (R385). -/
def execCommitResend (p : PanId) (id : BndId) (s : State) : Out :=
  match s.coordRec p.val id with
  | none => .next s
  | some r =>
    if r.committed then .next (s.toTargets p.val r 0x22 (fun t => !t.applied && !t.torn)) else .next s

/-- DECISION_LOG_EXPIRE (R377, R388). -/
def execDecisionLogExpire (p : PanId) (id : BndId) (s : State) : Out :=
  match s.coordRec p.val id with
  | none => .next s
  | some r =>
    if !r.committed then .next s
    else
      let lost := r.targets.any (fun t => !t.applied && !t.torn)
      let s := if lost then (s.bndEvent p.val 0 r.ctx r.id).owePaid r 0x81 else s
      .next ((s.dropCoord p.val id).pumpCoord p.val 16)

/-- PREPARED_QUERY_TIMER (R386, R387): QUERY to the coordinator; waiting requests are answered
TIMEOUT. -/
def execPreparedQueryTimer (h : HomeId) (id : BndId) (s : State) : Out :=
  match s.homeRec h id with
  | none => .next s
  | some r =>
    if r.st ≠ .prepared then .next s
    else
      let s := s.setRec h { r with late := true, waiters := [] }
      let s := r.waiters.foldl (fun s p => s.reply p 7 0) s
      .next (s.bndCtl r.req.dst r.coord r.coord r.ctx r.gen 0x26 (refOf r.id r.tidx) 0)

/-- BND_ORPHAN (R387, R388). -/
def execBndOrphan (h : HomeId) (id : BndId) (s : State) : Out :=
  match s.homeRec h id with
  | none => .next s
  | some r =>
    if r.st ≠ .prepared then .next s
    else
      let s := match h with
        | .store p | .agent p => s.bndEvent p.val 1 r.ctx r.id
        | .stack n => s.log 0x0502 1 (some r.ctx) (s.stackEc n.val) r.id.ec r.id.seq.toNat
      .next (s.freeRec h r)

/-- COMMITTED_EXPIRE (Table 11-7). -/
def execCommittedExpire (h : HomeId) (id : BndId) (s : State) : Out :=
  match s.homeRec h id with
  | none => .next s
  | some r => if r.st = .committed then .next (s.freeRec h r) else .next s

/-! ### Failures, contexts and resets -/

/-- The target of a bundle request has not been reached, which the bundle learns as `code` (R334, R376,
R378). -/
def State.bndLost (s : State) (pkt : Packet) (code : Nat) : State :=
  let ref := bndRef pkt
  let p := ecPanIx pkt.src
  if pkt.op = 0x20 then
    match s.coordRec p (bndIdOf (s.coordEc p) ref) with
    | some r => if r.committed then s else s.decideAbort p r code ref.tidx
    | none => s
  else if pkt.op = 0x21 then
    match s.homeRec (.agent (Fin.ofNat 1536 p)) (bndIdOf (bndCoord pkt) ref) with
    | some r => if r.st = .locking then s.refuse (.agent (Fin.ofNat 1536 p)) r code else s
    | none => s
  else s

/-- Every holder that has records. -/
def State.holders (s : State) : List HomeId :=
  s.bnd.pans.flatMap (fun q => [.store (Fin.ofNat 1536 q.1), .agent (Fin.ofNat 1536 q.1)]) ++
  s.bnd.ctrls.map (fun q => .stack (Fin.ofNat 24 q.1))

/-- CTX_DESTROY aborts the context's bundles (R389). -/
def State.bndDestroy (s : State) (c : BitVec 12) : State :=
  let s := s.bnd.pans.foldl (fun (s : State) q =>
    let b := s.panBnd q.1
    (s.setPanBnd q.1 { b with coord := b.coord.filter (fun r => r.ctx ≠ c) }).pumpCoord q.1 16) s
  s.holders.foldl (fun s h =>
    ((s.recs h).filter (fun r => decide (r.ctx = c))).foldl (fun s r => s.freeRec h r) s) s

/-- The records of a holder are lost with its domain (Table 11-7): waiting edges go, requests that
wait are lost with it. -/
def State.bndLose (s : State) (h : HomeId) : State := s.setRecs h []

end Sys2Proof.Machine
end

