-- ==== Sys2Proof/Machine/LatticeMath.lean ====
section
/-! DEFINITION. Lattice arithmetic: descriptors, shapes, elements of rows, products and accumulation,
drains' conversions and the reduce tree's sum (R56 to R60, R75, R76, R87 to R108, R118). -/

namespace Sys2Proof.Machine

/-! ### The descriptor (Table 4-10) -/

/-- Broadcast ID. -/
def LatOp.bid (o : LatOp) : Nat := fld o.sa 62 55
/-- Row-scale flag. -/
def LatOp.rsf (o : LatOp) : Bool := o.sa.getLsbD 54
/-- 2:4 sparse weights. -/
def LatOp.sparse (o : LatOp) : Bool := o.sa.getLsbD 53
/-- Overwrite mode. -/
def LatOp.ovw (o : LatOp) : Bool := o.sa.getLsbD 52
/-- Target tile. -/
def LatOp.tile (o : LatOp) : Nat := fld o.sa 51 50
/-- Band offset. -/
def LatOp.band (o : LatOp) : Nat := fld o.sa 49 45
/-- Activation format. -/
def LatOp.afmt (o : LatOp) : Option Fmt := Fmt.ofCode (o.sa.extractLsb' 40 5)
/-- Weight format. -/
def LatOp.wfmt (o : LatOp) : Option Fmt := Fmt.ofCode o.fmt
/-- Reduction indices. -/
def LatOp.k (o : LatOp) : Nat := fld o.sa 39 27
/-- Panicle-store address of the row-scale vector. -/
def LatOp.rsv (o : LatOp) : Nat := fld o.sb 18 0

/-- First bank row of a stream. -/
def LatOp.first (o : LatOp) : RowStream → Nat
  | .scales => fld o.sa 26 18
  | .metadata => fld o.sa 17 9
  | .weights => fld o.sa 8 0

/-- Rows of the tile that a column covers (Table 2-5). -/
def Fmt.high : Fmt → Nat
  | .mx4e2m1 | .int4 => 32
  | .bf16 | .fp16 => 8
  | .fp32 => 2
  | _ => 16

/-- Columns of a bank row (Table 2-5); sparse data rows hold 8 (R57, R98). -/
def Fmt.cols (f : Fmt) (sparse : Bool) : Nat :=
  if sparse then 8
  else match f with
    | .mx6e2m3 | .mx6e3m2 => 10
    | .fp32 => 16
    | _ => 8

/-- Slots that a metadata row covers (R57). -/
def Fmt.metaSpan (f : Fmt) : Nat := if f.high = 32 then 16 else 32

/-- k-blocks that a scale row covers (R58). -/
def Fmt.scaleSpan (f : Fmt) : Nat := if f.high = 32 then 4 else 8

/-- Columns that an operation takes: one for each k, or two slots for each group of four (R57). -/
def LatOp.columns (o : LatOp) : Nat := if o.sparse then o.k / 2 else o.k

/-- Beats of an operation (R155). -/
def LatOp.total (o : LatOp) : Nat := if o.sparse then o.k / 2 else o.k

/-- Rows of a stream that an operation uses. -/
def LatOp.rows (o : LatOp) (f : Fmt) : RowStream → Nat
  | .weights => ceilDiv o.columns (f.cols o.sparse)
  | .metadata => if o.sparse then ceilDiv o.columns f.metaSpan else 0
  | .scales => if f.isMx then ceilDiv (ceilDiv o.k 32) f.scaleSpan else 0

/-- A stream of an operation. -/
def LatOp.stream (o : LatOp) : RowStream → StreamSt
  | .weights => o.weights
  | .metadata => o.metas
  | .scales => o.scales

/-- An operation with a stream replaced. -/
def LatOp.setStream (o : LatOp) (st : RowStream) (x : StreamSt) : LatOp :=
  match st with
  | .weights => { o with weights := x }
  | .metadata => { o with metas := x }
  | .scales => { o with scales := x }

/-- Permitted pairings (R87, Table 3-3). -/
def pairOk (w a : Fmt) : Bool :=
  match w with
  | .e4m3 | .e5m2 => decide (a = .e4m3) || decide (a = .e5m2)
  | .int8 => decide (a = .int8)
  | .int4 => decide (a = .int4)
  | .bf16 | .fp16 => decide (a = .bf16) || decide (a = .fp16)
  | .fp32 => decide (a = .fp32)
  | _ => a.isMx

/-- Band offsets that a format allows (R59). -/
def bandOk (f : Fmt) (b : Nat) : Bool :=
  match f.high with
  | 32 => decide (b = 0)
  | 16 => decide (b = 0) || decide (b = 16)
  | 8 => decide (b % 8 = 0) && decide (b < 32)
  | _ => decide (b % 2 = 0) && decide (b < 32)

/-- LAT_SHAPE at the head of the queue (R147). -/
def LatOp.shapeBad (o : LatOp) (f : Fmt) : Bool :=
  decide (o.k < 1) || decide (o.k > 4096) || (o.sparse && decide (o.k % 4 ≠ 0)) ||
  (f.isMx && decide (o.k % 32 ≠ 0)) ||
  (o.sparse && (decide (f = .bf16) || decide (f = .fp16) || decide (f = .fp32))) ||
  !bandOk f o.band || (o.rsf && f.isMx && decide (o.rsv % 32 ≠ 0)) ||
  decide (o.first .weights + o.rows f .weights > 512) ||
  decide (o.first .metadata + o.rows f .metadata > 512 ∧ o.rows f .metadata ≠ 0) ||
  decide (o.first .scales + o.rows f .scales > 512 ∧ o.rows f .scales ≠ 0)

/-! ### Elements -/

/-- Bits [lo + w − 1 : lo] of a row. -/
def rowBits (row : List Byte) (lo w : Nat) : Nat :=
  fieldOf (leAt row (lo / 8) ((lo % 8 + w + 7) / 8)) (lo % 8 + w - 1) (lo % 8)

/-- Weight i of column j of a bank row (Table 2-5). -/
def weightElem (f : Fmt) (row : List Byte) (j i : Nat) : Nat :=
  match f with
  | .mx6e2m3 | .mx6e3m2 => rowBits row (96 * j + 6 * i) 6
  | .mx4e2m1 | .int4 => rowBits row (128 * j + 4 * i) 4
  | .bf16 | .fp16 => rowBits row (128 * j + 16 * i) 16
  | .fp32 => rowBits row (64 * j + 32 * i) 32
  | _ => rowBits row (128 * j + 8 * i) 8

/-- Element c of an activation row (Table 3-3). -/
def actElem (f : Fmt) (row : List Byte) (c : Nat) : Nat := leAt row (c * f.bytes) f.bytes

/-- Index of output row i in cycle c of a metadata row (R99). -/
def metaIdx (f : Fmt) (row : List Byte) (c i : Nat) : Nat := rowBits row (2 * f.high * c + 2 * i) 2

/-- Scale byte of output row i in block b of a scale row (R58). -/
def scaleByte (f : Fmt) (row : List Byte) (b i : Nat) : Byte := (slice row (f.high * b + i) 1).headD 0

/-- The row-scale factor of output row i (R90): 1 without the flag or for non-MX weights. -/
def LatOp.factor (o : LatOp) (i : Nat) : FVal :=
  if o.factors.isEmpty then .fin false 1 0
  else Fmt.decode .e4m3 ((slice o.factors i 1).headD 0).toNat

/-- The exact product (R91). -/
def LatOp.product (o : LatOp) (w a : Fmt) (x y : Nat) (sw sa : Byte) (i : Nat) : FVal :=
  let p := (w.decode x).mul (a.decode y)
  if w.isMx then ((p.mul (scaleVal sw)).mul (scaleVal sa)).mul (o.factor i) else p

/-- Index of a tile element in the tile table. -/
def tileIx (tile row col : Nat) : Nat := tile * 128 + row * 4 + col

/-- One accumulation step into element (i, c) of the band (R60, R92). -/
def accStep (ovw : Bool) (tiles : Tab W32) (ix : Nat) (p : FVal) : Tab W32 :=
  let v := if ovw then p.toFp32 else (FVal.add (fp32Val (Tab.get 0 tiles ix)) p).toFp32
  Tab.set 0 tiles ix v

/-- One column of an operation multiplied into its band (R93): `j` is the column's number in the
operation, `act i` the activation row and its scale group for output row i. -/
def LatOp.column (o : LatOp) (w a : Fmt) (j : Nat) (first : Bool) (act : Nat → List Byte)
    (sa : List Byte) (block : Nat) (tiles : Tab W32) : Tab W32 :=
  let wrow := o.weights.rows.headD []
  let srow := o.scales.rows.headD []
  (List.range (w.high * 4)).foldl (fun t e =>
    let i := e / 4
    let c := e % 4
    let p := o.product w a (weightElem w wrow (j % w.cols o.sparse) i) (actElem a (act i) c)
      (scaleByte w srow (block % w.scaleSpan) i) ((slice sa c 1).headD 0) i
    accStep (o.ovw && first) t (tileIx o.tile (o.band + i) c) p) tiles

/-- The row in use is left behind. -/
def StreamSt.drop (x : StreamSt) : StreamSt := { x with rows := x.rows.drop 1 }

/-- Rows that are exhausted once column `j` is taken are left (R56, R612); `k` is the number of
reduction indices that are behind. -/
def LatOp.release (o : LatOp) (w : Fmt) (j k : Nat) : LatOp :=
  let last := decide (j + 1 = o.columns)
  let o := if (j + 1) % w.cols o.sparse = 0 || last then { o with weights := o.weights.drop } else o
  let o := if o.sparse && ((j + 1) % w.metaSpan = 0 || last) then { o with metas := o.metas.drop } else o
  if w.isMx && (k % (32 * w.scaleSpan) = 0 || last) then { o with scales := o.scales.drop } else o

/-- Whether the rows that the next beat needs are in their buffers. -/
def LatOp.ready (o : LatOp) (w : Fmt) : Bool :=
  !o.weights.rows.isEmpty && (!o.sparse || !o.metas.rows.isEmpty) && (!w.isMx || !o.scales.rows.isEmpty)

/-- Indices of a group in order (R100). -/
def LatOp.metaOk (o : LatOp) (w : Fmt) (j : Nat) : Bool :=
  let row := o.metas.rows.headD []
  (List.range w.high).all (fun i =>
    decide (metaIdx w row (j % w.metaSpan) i < metaIdx w row ((j + 1) % w.metaSpan) i))

/-- What a beat does to an operation. -/
inductive BeatRes where
  | ok (o : LatOp) (tiles : Tab W32)
  | badMeta
deriving DecidableEq, Repr

/-- A dense beat (R61): one activation row. -/
def LatOp.denseBeat (o : LatOp) (w a : Fmt) (row sa : List Byte) (tiles : Tab W32) : BeatRes :=
  let j := o.beats
  let t := o.column w a j (decide (j = 0)) (fun _ => row) sa (j / 32) tiles
  let o := o.release w j (j + 1)
  .ok { o with beats := j + 1, done := decide (j + 1 = o.total) } t

/-- A sparse beat (R62, R98 to R100): two activation rows; the second beat of a group multiplies both
of its slots. -/
def LatOp.sparseBeat (o : LatOp) (w a : Fmt) (rows : List (List Byte)) (sa : List Byte)
    (tiles : Tab W32) : BeatRes :=
  let n := o.beats
  if n % 2 = 0 then .ok { o with beats := n + 1, group := rows } tiles
  else
    let g := n / 2
    let acts := o.group ++ rows
    if !o.metaOk w (2 * g) then .badMeta
    else
      let mrow := o.metas.rows.headD []
      let slot := fun (o : LatOp) (j : Nat) (t : Tab W32) =>
        o.column w a j (decide (j = 0))
          (fun i => acts.getD (metaIdx w mrow (j % w.metaSpan) i) []) sa (4 * g / 32) t
      let t := slot o (2 * g) tiles
      let o1 := o.release w (2 * g) (4 * g + 2)
      let t := slot o1 (2 * g + 1) t
      let o2 := o1.release w (2 * g + 1) (4 * g + 4)
      .ok { o2 with beats := n + 1, group := [], done := decide (n + 1 = o.total) } t

/-! ### Drains -/

/-- Targets that a drain may name (R107, R118): raw FP32, BF16, FP16, FP8, INT8 and the MX
formats. -/
def drainFmt (c : BitVec 5) : Option Fmt :=
  match Fmt.ofCode c with
  | some .int4 => none
  | r => r

/-- A band in the order of R107: row by row, columns ascending. -/
def bandElems (tiles : Tab W32) (tile band h : Nat) : List W32 :=
  (List.range (h * 4)).map (fun e => Tab.get 0 tiles (tileIx tile (band + e / 4) (e % 4)))

/-- A converted band: its data bytes, its scale bytes, SAT and NAN. -/
structure Drained where
  data  : List Byte
  scale : List Byte
  sat   : Bool
  nan   : Bool
deriving DecidableEq, Repr

/-- Column c of a row-major band of four columns. -/
def columnOf {α : Type} (d : α) (xs : List α) (c : Nat) : List α :=
  (List.range (xs.length / 4)).map (fun i => xs.getD (4 * i + c) d)

/-- The conversion of a drain (R104 to R108, R110, R118). -/
def drainBand (f : Fmt) (c : CvtCtl) (rs : List Nat) (xs : List W32) : Drained :=
  if f = .fp32 then
    { data := xs.flatMap (fun x => toLE 4 x.toNat), scale := [], sat := false,
      nan := xs.any (fun x => (fp32Val x).isNan) }
  else if f.isMx then
    let bl := (List.range 4).map (fun k => mxBlock f c (columnOf 0 rs k) (columnOf 0 xs k))
    let es := (List.range xs.length).map (fun e =>
      ((bl.getD (e % 4) (0, [])).2.getD (e / 4) { bits := 0, sat := false, nan := false }))
    { data := es.flatMap (fun e => toLE f.bytes e.bits), scale := bl.map (fun b => b.1),
      sat := es.any Elem.sat, nan := es.any Elem.nan }
  else
    let es := (xs.zip rs).map (fun p => cvtElem f c p.2 p.1)
    { data := es.flatMap (fun e => toLE f.bytes e.bits), scale := [],
      sat := es.any Elem.sat, nan := es.any Elem.nan }

/-! ### The reduce tree -/

/-- A node of the tree (R75, R76): the lower-indexed operand is the left one; an absent operand lets
the other pass. -/
def nodeSum : Option W32 → Option W32 → Option W32
  | some a, some b => some (addFp32 a b)
  | some a, none => some a
  | none, b => b

/-- One level of the tree. -/
def treeLevel : List (Option W32) → List (Option W32)
  | a :: b :: t => nodeSum a b :: treeLevel t
  | l => l

/-- A lane's sum over its 64 inputs (R75, R76); +0 when every input is absent. -/
def laneSum (xs : List (Option W32)) : W32 :=
  let r := treeLevel (treeLevel (treeLevel (treeLevel (treeLevel (treeLevel xs)))))
  ((r.headD none).getD 0)

end Sys2Proof.Machine
end

