-- ==== Sys2Proof/Machine/Lattice.lean ====
section
/-! DEFINITION. The lattice, its broadcasts and drains, the reduce tree's members, conversions and
write-backs of corrected words (R42, R43, R56 to R73, R78, R146 to R155, R159 to R162, R611, R613). -/

namespace Sys2Proof.Machine

/-! ### Operations in the queue -/

/-- Invalid marks of rows of a tile set or cleared (R148). -/
def markRows (m : BitVec 128) (tile lo n : Nat) (b : Bool) : BitVec 128 :=
  (List.range n).foldl (fun m k => if lo + k < 32 then putBit m (tile * 32 + lo + k) b else m) m

/-- Whether a band holds an invalid row (R43). -/
def Spikelet.bandBad (sp : Spikelet) (tile lo n : Nat) : Bool :=
  (List.range n).any (fun k => decide (lo + k < 32) && sp.invalid.getLsbD (tile * 32 + lo + k))

/-- The height of an operation's band. For a weight code that no format has, the spec gives the band
no height: an open value (assumption 1). -/
def State.bandHigh (s : State) (o : LatOp) : Nat × State :=
  match o.wfmt with
  | some f => (f.high, s)
  | none => let (v, s) := s.draw; (v.toNat % 33, s)

/-- A lattice operation fails (R43, R148, R167): it leaves the queue, its band is invalid, and its
fault carries the descriptor's s_a word. -/
def State.failLat (s : State) (i n code : Nat) : State :=
  match (s.spk i).latQ[n]? with
  | none => s
  | some o =>
    let (h, s) := s.bandHigh o
    let sp := s.spk i
    (s.setSpk i { sp with
      latQ := dropAt sp.latQ n, invalid := markRows sp.invalid o.tile o.band h true }).raiseRun
      i o.floret o.run .lattice code o.pc o.sa

/-- `lat.mm.<fmt> sa, sb` (R146, R63, R124). -/
def execLatMm (f : FloretId) (g : BitVec 4) (fmt d a b : BitVec 5) (s : State) : Out :=
  .next (s.issue f [a, b] (decide (d ≠ 0)) g (fun fl =>
    let i := spkOfFloret f.val
    let sp := s.spk i
    if sp.latQ.length ≥ 4 then .hold s .latQueue
    else
      let o : LatOp := { floret := floretNo f.val, pc := fl.pc, fmt := fmt, sa := fl.rd a, sb := fl.rd b, run := fl.run }
      .ok (s.setSpk i { sp with latQ := sp.latQ ++ [o] })))

/-- The operation whose turn it is to be checked: the head, or the one next behind it (R63, R64). -/
def Spikelet.toHead (sp : Spikelet) : Option Nat :=
  (List.range 2).find? (fun n => match sp.latQ[n]? with
    | some o => !o.headed
    | none => false)

/-- The first failing check of R147, if any. Which code is recorded where several checks fail is a choice of this model
(the spec orders only synchronous faults): format, then shape, then an invalid tile row. -/
def LatOp.check (o : LatOp) (sp : Spikelet) : Option Nat :=
  match o.wfmt, o.afmt with
  | some w, some a =>
    if !pairOk w a then some 0x0B
    else if o.shapeBad w then some 0x11
    else if !o.ovw && sp.bandBad o.tile o.band w.high then some 0x0A
    else none
  | _, _ => some 0x0B

/-- Whether an operation has its first rows (R63, R64). -/
def LatOp.armable (o : LatOp) (w : Fmt) : Bool :=
  [RowStream.weights, .metadata, .scales].all (fun st =>
    decide (o.rows w st = 0) || decide (0 < (o.stream st).come))

/-- LAT_OP_HEAD (R147, R90, R64): the checks, then the row-scale vector. -/
def execLatOpHead (i : SpkId) (hits : List EccHit) (s : State) : Out :=
  let sp := s.spk i.val
  match sp.toHead with
  | none => .next s
  | some n =>
    match sp.latQ[n]? with
    | none => .next s
    | some o =>
      match o.check sp, o.wfmt with
      | some code, _ => .next (s.failLat i.val n code)
      | none, some w =>
        if o.rsf && w.isMx then
          let p := panOfSpk i.val
          if s.storeHeld p o.rsv 32 then .next s else
          let s := s.plant (storeBase p + o.rsv) hits
          let (s, ue) := s.checkStore p o.rsv 32
          if ue then .next (s.failLat i.val n 0x10)
          else
            let sp := s.spk i.val
            let o := { o with headed := true, factors := s.storeRead p o.rsv 32 }
            .next (s.setSpk i.val { sp with latQ := putAt sp.latQ n o })
        else
          let o := { o with headed := true }
          .next (s.setSpk i.val { sp with latQ := putAt sp.latQ n o })
      | none, none => .next s

/-- Whether an operation that has passed its checks still has a row of a stream to come. -/
def LatOp.wants (o : LatOp) (st : RowStream) : Bool :=
  o.headed && (match o.wfmt with
    | some w => decide ((o.stream st).come < o.rows w st)
    | none => false)

/-- Rows of a stream that an operation has still to take. -/
def LatOp.toTake (o : LatOp) (st : RowStream) : Nat :=
  match o.wfmt with
  | some w => o.rows w st - ((o.stream st).come - (o.stream st).rows.length)
  | none => 0

/-- Whether the operation next behind `o` may ask for its row number `k` of a stream (R64): a buffer holds no row that
`o` has still to take. Of the weights, its first row comes once `o` has switched to its last row, which an operation of
one row does with its first beat (a reading of this model, assumption 165), and its second once `o` has taken its last
column. -/
def LatOp.leaves (o : LatOp) (st : RowStream) (k : Nat) : Bool :=
  o.headed && (if k = 0 then decide (o.toTake st ≤ 1) else decide (o.toTake st = 0)) &&
  (decide (st ≠ .weights) || decide (0 < o.beats))

/-- The operation whose next row of a stream comes (R63, R64, R612): the two buffers of a stream serve
the running operation, and the next behind it as R64 gives. -/
def Spikelet.rowFor (sp : Spikelet) (st : RowStream) : Option Nat :=
  match sp.latQ with
  | [] => none
  | o :: t =>
    if o.wants st && decide ((o.stream st).rows.length < 2) then some 0
    else match t with
      | [] => none
      | q :: _ =>
        if q.wants st && o.leaves st (q.stream st).come && decide ((q.stream st).rows.length < 2) then some 1 else none

/-- LAT_ROW_ARRIVE (R43, R52, R63): a row read for the lattice lands in its buffer; the operation is
armed once it has its first rows. -/
def execLatRowArrive (i : SpkId) (st : RowStream) (hits : List EccHit) (s : State) : Out :=
  match (s.spk i.val).rowFor st with
  | none => .next s
  | some n =>
    match (s.spk i.val).latQ[n]? with
    | none => .next s
    | some o =>
      let row := o.first st + (o.stream st).come
      if (s.spk i.val).shadow.getLsbD row then .next (s.failLat i.val n 0x08)
      else
        let s := s.plant (bankBase i.val + row * 128) hits
        let (s, ue) := s.checkRow i.val row
        if ue then .next (s.failLat i.val n 0x10)
        else
          let x := o.stream st
          let o := o.setStream st { come := x.come + 1, rows := x.rows ++ [s.bankRead i.val (row * 128) 128] }
          let o := match o.wfmt with
            | some w => { o with armed := o.armed || o.armable w }
            | none => o
          let sp := s.spk i.val
          .next (s.setSpk i.val { sp with latQ := putAt sp.latQ n o })

/-- LAT_RETIRE (R66, R97, R148, R154): the finished operation at the head leaves the queue. -/
def execLatRetire (i : SpkId) (s : State) : Out :=
  let sp := s.spk i.val
  match sp.latQ with
  | [] => .next s
  | o :: rest =>
    if !o.done then .next s
    else match o.wfmt with
      | none => .next s
      | some w =>
        let (nan, inf) := bandBits (bandElems sp.tiles o.tile o.band w.high)
        let inv := if o.ovw then markRows sp.invalid o.tile o.band w.high false else sp.invalid
        let s := s.setSpk i.val { sp with latQ := rest, invalid := inv }
        let x := i.val * 16 + o.floret.val
        let fl := s.floret x
        .next (s.setFloret x { fl with latStat := orStat fl.latStat nan inf false false })

/-- BCAST_TIMEOUT (R67): the armed operation that waits for a beat fails. -/
def execBcastTimeout (i : SpkId) (s : State) : Out :=
  match (s.spk i.val).latQ.findIdx? (fun o => o.armed && !o.done) with
  | some n => .next (s.failLat i.val n 0x13)
  | none => .next s

/-! ### Broadcasts -/

/-- K of a broadcast control word (Table 4-12). -/
def bcK (c : W64) : Nat := fld c 20 8
/-- Broadcast ID. -/
def bcBid (c : W64) : Nat := fld c 7 0
/-- Two activation rows per beat. -/
def bcSparse (c : W64) : Bool := c.getLsbD 40
/-- The scale sideband is driven. -/
def bcMx (c : W64) : Bool := c.getLsbD 41
/-- Bytes of an activation element. -/
def bcElem (c : W64) : Nat := 2 ^ fld c 62 61
/-- Panicle-store address of activation row 0. -/
def bcAaddr (c : W64) : Nat := fld c 39 21
/-- Panicle-store address of the scale groups. -/
def bcSaddr (c : W64) : Nat := fld c 60 42
/-- Beats of a broadcast. -/
def bcTotal (c : W64) : Nat := if bcSparse c then bcK c / 2 else bcK c

/-- Whether a broadcast ID is in use in a panicle (R155). -/
def Panicle.bidUsed (pn : Panicle) (bid : Nat) : Bool :=
  (pn.running.toList ++ pn.waitList ++ pn.posts).any (fun b => bcBid b.ctl = bid)

/-- `bc.post sa, sb` (R155, R71, R124). With the reserved ESZ = 11 the alignment and the end of the data are checked as
for elements of 8 bytes, which can record ALIGN or PS_ADDR in place of LAT_SHAPE (R166): a choice of this model. -/
def execBcPost (f : FloretId) (g : BitVec 4) (d a b : BitVec 5) (s : State) : Out :=
  .next (s.issue f [a, b] (decide (d ≠ 0)) g (fun fl =>
    let i := spkOfFloret f.val
    let p := panOfSpk i
    let mask := fl.rd a
    let c := fl.rd b
    let dead := (bitsSet mask).any (fun m => s.floor.spkDead (p * 64 + m))
    let shape := decide (fld c 62 61 = 3) || c.getLsbD 63 || decide (bcK c < 1) ||
      decide (bcK c > 4096) || (bcSparse c && decide (bcK c % 4 ≠ 0))
    let past := decide (bcAaddr c + bcK c * 4 * bcElem c > 0x80000)
    let spast := bcMx c && decide (bcSaddr c + 4 * ceilDiv (bcK c) 32 > 0x80000)
    let amis := decide (bcAaddr c % (4 * bcElem c) ≠ 0)
    let smis := decide (bcSaddr c % 4 ≠ 0)
    let av : W64 := BitVec.ofNat 64 (bcAaddr c)
    let sv : W64 := BitVec.ofNat 64 (bcSaddr c)
    checked [(dead, 0x14, some mask), ((s.pan p).bidUsed (bcBid c), 0x15, some mask),
        (shape, 0x11, some mask), (past, 0x05, some av), (spast, 0x05, some sv),
        (amis, 0x03, some av), (smis, 0x03, some sv)] (fun _ =>
      match (s.spk i).mayTake (floretNo f.val), (s.spk i).freeSlot with
      | true, some n =>
        let s := s.putSlot i n { floret := floretNo f.val, kind := .post, pc := fl.pc }
        let pn := s.pan p
        .ok (s.setPan p { pn with posts := pn.posts ++
          [{ mask := mask, ctl := c, poster := f, slot := n }] })
      | _, _ => .hold s .slot)))

/-- A post's slot is freed when its floret still holds it. -/
def State.endPost (s : State) (f : FloretId) (n : Nat) : State :=
  let i := spkOfFloret f.val
  match (s.spk i).slot n with
  | some x =>
    if x.kind = .post ∧ x.floret = floretNo f.val then (s.freeSlotAt i n).pump i else s
  | none => s

/-- BROADCAST_ENQUEUE (R155): the oldest accepted post enters the wait list of 8 and frees its
slot. -/
def execBroadcastEnqueue (p : PanId) (s : State) : Out :=
  let pn := s.pan p.val
  match pn.posts with
  | [] => .next s
  | b :: rest =>
    if pn.waitList.length ≥ 8 then .next s
    else .next ((s.setPan p.val { pn with posts := rest, waitList := pn.waitList ++ [b] }).endPost
      b.poster b.slot)

/-- The armed operation of a member for a broadcast ID: operations run in queue order (R63, R65), so it is the first that
has not taken its last beat. -/
def Spikelet.armedFor (sp : Spikelet) (bid : Nat) : Option Nat :=
  match sp.latQ.findIdx? (fun o => !o.done) with
  | some n => match sp.latQ[n]? with
    | some o => if o.armed ∧ o.bid = bid then some n else none
    | none => none
  | none => none

/-- Whether a broadcast disagrees with an operation (R72). -/
def LatOp.disagrees (o : LatOp) (c : W64) : Bool :=
  decide (o.k ≠ bcK c) || (o.sparse != bcSparse c) ||
  (match o.afmt with
   | some a => a.isMx != bcMx c
   | none => true)

/-- BROADCAST_START (R70, R72, R73): the head of the wait list starts once every member is armed for
it; members that disagree fail with LAT_SHAPE. -/
def execBroadcastStart (p : PanId) (s : State) : Out :=
  let pn := s.pan p.val
  match pn.running, pn.waitList with
  | none, b :: rest =>
    let bid := bcBid b.ctl
    let ms := (bitsSet b.mask).map (fun m => p.val * 64 + m)
    if ms.all (fun i => ((s.spk i).armedFor bid).isSome) then
      let s := s.setPan p.val { pn with running := some b, waitList := rest }
      .next (ms.foldl (fun s i =>
        match (s.spk i).armedFor bid with
        | some n => match (s.spk i).latQ[n]? with
          | some o => if o.disagrees b.ctl then s.failLat i n 0x11 else s
          | none => s
        | none => s) s)
    else .next s
  | _, _ => .next s

/-- A row on the bus: bits that a narrower broadcast does not drive are open (assumption 1). -/
def State.busRow (s : State) (row : List Byte) (need : Nat) : List Byte × State :=
  if row.length ≥ need then (row, s)
  else
    let (v, s) := s.draw
    let (u, s) := s.draw
    (row ++ (toLE 8 v.toNat ++ toLE 8 u.toNat), s)

/-- A beat at one member (R61, R62, R100). An operation that is armed with the broadcast's ID while it already runs, the
one before it having failed, takes the beats that are left: a choice of this model. -/
def State.beatAt (s : State) (i bid : Nat) (rows : List (List Byte)) (sa : List Byte) : State :=
  match (s.spk i).armedFor bid with
  | none => s
  | some n =>
    match (s.spk i).latQ[n]? with
    | none => s
    | some o =>
      match o.wfmt, o.afmt with
      | some w, some a =>
        if o.beats = 0 ∧ o.ovw = false ∧ (s.spk i).bandBad o.tile o.band w.high then s.failLat i n 0x0A
        else
          let (rows, s) := rows.foldl (fun q r =>
            let (r, s) := q.2.busRow r (4 * a.bytes); (q.1 ++ [r], s)) ([], s)
          let sp := s.spk i
          let res := if o.sparse then o.sparseBeat w a rows sa sp.tiles
            else o.denseBeat w a (rows.headD []) sa sp.tiles
          match res with
          | .ok o t => s.setSpk i { sp with latQ := putAt sp.latQ n o, tiles := t }
          | .badMeta => s.failLat i n 0x12
      | _, _ => s

/-- Whether a member holds the rows that its next beat needs; a member without an operation needs
none. The spec has beats come without gaps and says nothing of a row that is late: that the beat waits for it is a choice
of this model (R73). -/
def Spikelet.beatReady (sp : Spikelet) (bid : Nat) : Bool :=
  match sp.armedFor bid with
  | none => true
  | some n => match sp.latQ[n]? with
    | some o => (match o.wfmt with
      | some w => o.ready w
      | none => true)
    | none => true

/-- Store offset and length of the activation rows of beat `n` (R88, R155). Both rows of a sparse beat go whole in one
beat, also where the element size makes them wider than the bus of R69: a choice of this model, the spec refuses no such
broadcast. -/
def bcBeat (c : W64) (n : Nat) : Nat × Nat :=
  let r := 4 * bcElem c
  if bcSparse c then (bcAaddr c + 2 * n * r, 2 * r) else (bcAaddr c + n * r, r)

/-- First reduction index of beat `n`. -/
def bcIndex (c : W64) (n : Nat) : Nat := if bcSparse c then 2 * n else n

/-- BROADCAST_BEAT (R61, R62, R69, R89, R613): the next beat is read from the panicle store and
reaches every member. An uncorrectable read ends the broadcast and fails every member's operation. -/
def execBroadcastBeat (p : PanId) (hits : List EccHit) (s : State) : Out :=
  match (s.pan p.val).running with
  | none => .next s
  | some b =>
    let bid := bcBid b.ctl
    let ms := (bitsSet b.mask).map (fun m => p.val * 64 + m)
    if !ms.all (fun i => (s.spk i).beatReady bid) then .next s
    else
      let (off, len) := bcBeat b.ctl b.next
      let soff := bcSaddr b.ctl + 4 * (bcIndex b.ctl b.next / 32)
      if s.storeHeld p.val off len || (bcMx b.ctl && s.storeHeld p.val soff 4) then .next s else
      let s := s.plant (storeBase p.val + off / 16 * 16) hits
      let (s, ue1) := s.checkStore p.val off len
      let (s, ue2) := if bcMx b.ctl then s.checkStore p.val soff 4 else (s, false)
      if ue1 || ue2 then
        let s := s.setPan p.val { s.pan p.val with running := none }
        .next (ms.foldl (fun s i =>
          match (s.spk i).armedFor bid with
          | some n => s.failLat i n 0x10
          | none => s) s)
      else
        let bytes := s.storeRead p.val off len
        let rows := if bcSparse b.ctl then [bytes.take (len / 2), bytes.drop (len / 2)] else [bytes]
        let sa := if bcMx b.ctl then s.storeRead p.val soff 4 else []
        let s := ms.foldl (fun s i => s.beatAt i bid rows sa) s
        let pn := s.pan p.val
        .next (s.setPan p.val { pn with
          running := if b.next + 1 ≥ bcTotal b.ctl then none else some { b with next := b.next + 1 } })

/-! ### Tile instructions -/

/-- `lat.rd sd, imm12` (R149, R124). -/
def execLatRd (f : FloretId) (g : BitVec 4) (d a : BitVec 5) (imm : BitVec 12) (s : State) : Out :=
  let sp := s.spk (spkOfFloret f.val)
  let tile := fld imm 1 0
  .next (s.issueOn f [d] (sp.busy tile || sp.draining (floretNo f.val) tile)
      (decide (a ≠ 0) || decide (fld imm 11 8 ≠ 0)) g (fun _ =>
    let row := fld imm 6 2
    let h := fld imm 7 7
    if sp.invalid.getLsbD (tile * 32 + row) then .fault 0x0A none
    else .ok (s.wrReg f d
      (Tab.get 0 sp.tiles (tileIx tile row (2 * h + 1)) ++ Tab.get 0 sp.tiles (tileIx tile row (2 * h))))))

/-- `lat.clr imm12` (R150, R148, R124). -/
def execLatClr (f : FloretId) (g : BitVec 4) (d a : BitVec 5) (imm : BitVec 12) (s : State) : Out :=
  let i := spkOfFloret f.val
  let sp := s.spk i
  let tile := fld imm 1 0
  .next (s.issueOn f [] (sp.busy tile || sp.draining (floretNo f.val) tile)
      (decide (d ≠ 0) || decide (a ≠ 0) || decide (fld imm 11 2 ≠ 0)) g (fun _ =>
    .ok (s.setSpk i { sp with
      tiles := sp.tiles.filter (fun e => decide (e.1 / 128 ≠ tile))
      invalid := markRows sp.invalid tile 0 32 false })))

/-- `lat.wait` (R153, R124). -/
def execLatWait (f : FloretId) (g : BitVec 4) (d a b : BitVec 5) (s : State) : Out :=
  .next (s.issueOn f [] ((s.spk (spkOfFloret f.val)).latPending (floretNo f.val))
    (decide (d ≠ 0) || decide (a ≠ 0) || decide (b ≠ 0)) g (fun _ => .ok s))

/-! ### Drains -/

/-- Bytes at a global address in pieces of at most 256, none across a 64 KiB boundary of its LOCAL
address (R68, R314). -/
def drainPieces : Nat → W64 → List Byte → List (W64 × List Byte)
  | 0, _, _ => []
  | k + 1, a, bs =>
    if bs.isEmpty then []
    else
      let n := Nat.min 256 (65536 - a.toNat % 65536)
      (a, bs.take n) :: drainPieces k (a + BitVec.ofNat 64 n) (bs.drop n)

/-- The destination of a drain. -/
def drainDest (sd sa : W64) : DrainTo :=
  match fld sd 27 26 with
  | 0 => .bank (fld sa 15 0)
  | 1 => .remote sa
  | _ => .tree (sa.setWidth 8)

/-- A posted panicle reduction. -/
def Panicle.red (pn : Panicle) (rid : BitVec 8) : Option PanRed :=
  (pn.reds.find? (fun r => r.1 = rid)).map (fun r => r.2)

/-- Write a posted panicle reduction. -/
def Panicle.setRed (pn : Panicle) (rid : BitVec 8) (r : PanRed) : Panicle :=
  { pn with reds := pn.reds.map (fun q => if q.1 = rid then (rid, r) else q) }

/-- Band height of a reduction's control word (R156). -/
def redH (c : W64) : Nat := fld c 13 8

/-- A drain to the tree that R152 refuses: a format, a posted descriptor that does not list this
spikelet with the same height, or a second band of this spikelet for the reduction. -/
def State.treeBad (s : State) (i : Nat) (fmt : Nat) (rid : BitVec 8) (h : Nat) : Bool :=
  let m := i % 64
  decide (fmt ≠ 0) ||
  (match (s.pan (panOfSpk i)).red rid with
   | some r => !r.mask.getLsbD m || decide (redH r.ctl ≠ h) || r.subs.any (fun t => t.member.val = m)
   | none => false) ||
  (s.spk i).drains.any (fun d => d.held && decide (d.dst = .tree rid))

/-- A tile row's four elements. -/
def tileRow (tiles : Tab W32) (tile row : Nat) : List W32 :=
  (List.range 4).map (fun c => Tab.get 0 tiles (tileIx tile row c))

/-- The drain of R151 and R152 as issued: elements converted, the LFSR stepped, and the writes left to
DRAIN_COMPLETE, to slots, or to the reduce tree. -/
def State.drainIssue (s : State) (f : FloretId) (pc : BitVec 20) (sd sa sb : W64) (fmt : Fmt)
    (c : CvtCtl) : State :=
  let i := spkOfFloret f.val
  let sp := s.spk i
  let tile := fld sd 1 0
  let band := fld sd 6 2
  let h := fld sd 12 7
  let xs := bandElems sp.tiles tile band h
  let (rs, l) := if fmt = .fp32 then (xs.map (fun _ => 0), sp.lfsr) else lfsrDraw c xs.length sp.lfsr
  let r := drainBand fmt c rs xs
  let dst := drainDest sd sa
  let dr : Drain :=
    { floret := floretNo f.val, pc := pc, tile := Fin.ofNat 4 tile, sd := sd, sa := sa, dst := dst,
      data := r.data, scale := r.scale, scaleAt := sb, sat := r.sat, nan := r.nan, order := sp.order, run := (s.floret f.val).run,
      rows := (List.range h).map (fun k => tileRow sp.tiles tile (band + k)) }
  let sp := { sp with lfsr := l, order := sp.order + 1 }
  match dst with
  | .bank _ => s.setSpk i { sp with drains := sp.drains ++ [dr] }
  | .remote a =>
    let ps := drainPieces 8 a r.data ++ (if r.scale.isEmpty then [] else drainPieces 2 sb r.scale)
    (s.setSpk i { sp with drains := sp.drains ++ [{ dr with pieces := ps }] }).pump i
  | .tree rid =>
    let p := panOfSpk i
    let pn := s.pan p
    match pn.red rid with
    | some r =>
      let t : TreeSub := { member := Fin.ofNat 64 (i % 64), floret := floretNo f.val, pc := pc,
                           sa := sa, rows := dr.rows, run := dr.run }
      (s.setSpk i { sp with drains := sp.drains ++ [dr] }).setPan p
        (pn.setRed rid { r with subs := r.subs ++ [t] })
    | none => s.setSpk i { sp with drains := sp.drains ++ [{ dr with held := true }] }

/-- `lat.st sd, sa, sb` (R151, R152). -/
def execLatSt (f : FloretId) (g : BitVec 4) (d a b : BitVec 5) (s : State) : Out :=
  .next (s.issue f [d, a, b] false g (fun fl =>
    let i := spkOfFloret f.val
    let sp := s.spk i
    let sd := fl.rd d
    let sa := fl.rd a
    let sb := fl.rd b
    let tile := fld sd 1 0
    let band := fld sd 6 2
    let h := fld sd 12 7
    let dest := fld sd 27 26
    let fmt := drainFmt (sd.extractLsb' 13 5)
    let ctl := CvtCtl.ofByte (sd.extractLsb' 18 8)
    let mx := match fmt with
      | some m => m.isMx
      | none => false
    let bytes := h * 4 * (match fmt with
      | some m => m.bytes
      | none => 0)
    if sp.busy tile || sp.draining (floretNo f.val) tile then .hazard
    else
      let shape := decide (dest = 3) || decide (fld sd 63 28 ≠ 0) || decide (h < 1) ||
        decide (h > 32) || decide (band + h > 32) || (mx && (decide (band ≠ 0) || decide (h ≠ 32))) ||
        (decide (dest = 2) && s.treeBad i (fld sd 17 13) (sa.setWidth 8) h)
      let bankBad := decide (dest = 0) && (decide (fld sa 63 16 ≠ 0) || decide (sa.toNat + bytes > 65536))
      let scaleBad := decide (dest = 0) && mx && (decide (fld sb 63 16 ≠ 0) || decide (sb.toNat + 4 > 65536))
      let ropBad := decide (dest = 1) && (s.gaddr sa).isNone
      let ropBad2 := decide (dest = 1) && mx && (s.gaddr sb).isNone
      let mis := decide (dest < 2) && decide (sa.toNat % 16 ≠ 0)
      let mis2 := decide (dest < 2) && mx && decide (sb.toNat % 4 ≠ 0)
      checked [(mis, 0x03, some sa), (mis2, 0x03, some sb), (bankBad, 0x04, some sa),
          (scaleBad, 0x04, some sb), (sp.bandBad tile band h, 0x0A, none),
          (fmt.isNone || ctl.isNone, 0x0B, none), (shape, 0x11, some sa), (ropBad, 0x22, some sa),
          (ropBad2, 0x22, some sb)] (fun _ =>
        match fmt, ctl with
        | some m, some c => .ok (s.drainIssue f fl.pc sd sa sb m c)
        | _, _ => .hazard)))

/-- A drain leaves its tile, and its completion bits reach its floret (R151, R154). -/
def State.endDrain (s : State) (i : Nat) (d : Drain) : State :=
  let sp := s.spk i
  let s := s.setSpk i { sp with drains := sp.drains.filter (fun e => e.order ≠ d.order) }
  let x := i * 16 + d.floret.val
  let fl := s.floret x
  s.setFloret x { fl with latStat := orStat fl.latStat false false d.sat d.nan }

/-- A drain fails after its issue (R152, R167). -/
def State.failDrain (s : State) (i : Nat) (d : Drain) (code : Nat) : State :=
  let sp := s.spk i
  (s.setSpk i { sp with drains := sp.drains.filter (fun e => e.order ≠ d.order) }).raiseRun i d.floret d.run
    .lattice code d.pc d.sa

/-- Whether a bank drain must wait for earlier accesses of its floret (R133). -/
def Spikelet.drainWaits (sp : Spikelet) (d : Drain) : Bool :=
  sp.bankQ.any (fun r => decide (r.floret = d.floret) && decide (r.order < d.order)) ||
  sp.drains.any (fun e => decide (e.floret = d.floret) && decide (e.order < d.order) &&
    (match e.dst with
     | .bank _ => true
     | _ => false))

/-- Whether some slot still carries a piece of a drain. -/
def Spikelet.drainSlots (sp : Spikelet) (d : Drain) : Bool :=
  sp.slots.any (fun e => match e.2 with
    | some x => decide (x.floret = d.floret) && decide (x.order = d.order)
    | none => false)

/-- DRAIN_COMPLETE (R68, R52, R151): the oldest drain of a tile has written its output, or its remote
writes are all acknowledged, or its band is submitted. -/
def execDrainComplete (i : SpkId) (tile : Fin 4) (s : State) : Out :=
  let sp := s.spk i.val
  match sp.drains.find? (fun d => d.tile = tile) with
  | none => .next s
  | some d =>
    match d.dst with
    | .bank off =>
      if sp.drainWaits d then .next s
      else if s.shadowHit i.val off d.data.length then .next (s.failDrain i.val d 0x08)
      else if s.shadowHit i.val d.scaleAt.toNat d.scale.length then .next (s.failDrain i.val d 0x08)
      else
        let (s, ue) := s.bankRmw i.val off d.data
        if ue then .next (s.failDrain i.val d 0x06)
        else
          let (s, ue) := if d.scale.isEmpty then (s, false) else s.bankRmw i.val d.scaleAt.toNat d.scale
          if ue then .next (s.failDrain i.val d 0x06)
          else .next ((s.wakeCells (bankBase i.val + off) d.data.length).endDrain i.val d)
    | .remote _ =>
      if d.pieces.isEmpty && !sp.drainSlots d then .next (s.endDrain i.val d) else .next s
    | .tree _ => if d.held then .next s else .next (s.endDrain i.val d)

/-- HELD_DRAIN_TIMEOUT (R152): no descriptor was posted for a held drain. -/
def execHeldDrainTimeout (i : SpkId) (rid : BitVec 8) (s : State) : Out :=
  match (s.spk i.val).drains.find? (fun d => d.held && decide (d.dst = .tree rid)) with
  | some d => .next (s.failDrain i.val d 0x16)
  | none => .next s

/-- PANICLE_REDUCTION_START (R77): every member has submitted its band. -/
def execPanicleReductionStart (p : PanId) (rid : BitVec 8) (s : State) : Out :=
  let pn := s.pan p.val
  match pn.red rid with
  | none => .next s
  | some r =>
    if (bitsSet r.mask).all (fun m => r.subs.any (fun t => t.member.val = m)) then
      .next (s.setPan p.val (pn.setRed rid { r with started := true }))
    else .next s

/-- REDUCE_TIMEOUT (R78): where a member has not submitted, the reduction fails at every member that has; its inputs are
discarded. -/
def execReduceTimeout (p : PanId) (rid : BitVec 8) (s : State) : Out :=
  let pn := s.pan p.val
  match pn.red rid with
  | none => .next s
  | some r =>
    if r.started || r.subs.isEmpty || (bitsSet r.mask).all (fun m => r.subs.any (fun t => t.member.val = m)) then .next s
    else
      let s := s.setPan p.val { pn with reds := pn.reds.filter (fun q => q.1 ≠ rid) }
      .next (r.subs.foldl (fun s t =>
        s.raiseRun (p.val * 64 + t.member.val) t.floret t.run .lattice 0x16 t.pc t.sa) s)

/-! ### Conversions -/

/-- Targets of `cvt.r` (R159). -/
def cvtTarget (c : BitVec 5) : Option Fmt :=
  match Fmt.ofCode c with
  | some .bf16 => some .bf16
  | some .fp16 => some .fp16
  | some .e4m3 => some .e4m3
  | some .e5m2 => some .e5m2
  | some .int8 => some .int8
  | _ => none

/-- Completion bits ORed into a floret's LAT_STAT (R154). -/
def State.orLat (s : State) (f : FloretId) (sat nan : Bool) : State :=
  let fl := s.floret f.val
  s.setFloret f.val { fl with latStat := orStat fl.latStat false false sat nan }

/-- `cvt.r.<fmt> sd, sa, sb` (R159, R162, R110). -/
def execCvtR (f : FloretId) (g : BitVec 4) (fmt d a b : BitVec 5) (s : State) : Out :=
  .next (s.issue f [d, a, b] false g (fun fl =>
    let i := spkOfFloret f.val
    match cvtTarget fmt, CvtCtl.ofByte ((fl.rd b).setWidth 8) with
    | some m, some c =>
      let x := fl.rd a
      let (rs, l) := lfsrDraw c 2 (s.spk i).lfsr
      let e0 := cvtElem m c (rs.getD 0 0) (x.setWidth 32)
      let e1 := cvtElem m c (rs.getD 1 0) ((x >>> 32).setWidth 32)
      let s := s.setSpk i { s.spk i with lfsr := l }
      .ok ((s.wrReg f d (BitVec.ofNat 64 (packBits m.width [e0.bits, e1.bits]))).orLat f
        (e0.sat || e1.sat) (e0.nan || e1.nan))
    | _, _ => .fault 0x0B none))

/-- `cvt.up.<fmt> sd, sa` (R160, R162, R124); NAN is set where an element is NaN (R108, R154). -/
def execCvtUp (f : FloretId) (g : BitVec 4) (fmt d a b : BitVec 5) (s : State) : Out :=
  .next (s.issue f [d, a] (decide (b ≠ 0)) g (fun fl =>
    match Fmt.ofCode fmt with
    | some .fp32 => .fault 0x0B none
    | none => .fault 0x0B none
    | some m =>
      let w := if m.bytes = 2 then 16 else 8
      let x := fl.rd a
      let hi := upElem m (fld x (2 * w - 1) w)
      let lo := upElem m (fld x (w - 1) 0)
      .ok ((s.wrReg f d (hi ++ lo)).orLat f false ((fp32Val hi).isNan || (fp32Val lo).isNan))))

/-- A `cvt.b` some of whose rows lie in the spilled part of its floret's window, once those are in the spill buffer and
the floret's earlier bank accesses are done (R133, R193): its accesses are made one after the other as it issues, to the
bank or to the spill buffer, and the first that fails is its fault (assumption 166). -/
def State.cvtSpilled (s : State) (f : FloretId) (fl : Floret) (m : Fmt) (c : CvtCtl) (rs : List Nat)
    (src : Nat) (outs : List (Nat × Nat)) : Issued :=
  let i := spkOfFloret f.val
  let (s, ue) := s.checkList i (fl.bankRows src 128)
  if (fl.bankRows src 128).any (fun r => (s.spk i).shadow.getLsbD r) then .trap s 0x08 (some (BitVec.ofNat 64 src))
  else if ue then .trap s 0x06 (some (BitVec.ofNat 64 src))
  else
    let (bs, sc, sat, nan) := cvtBlock m c rs (fp32s (s.ownRead f.val src 128))
    let put := fun (q : State × Option (Nat × Nat) × Nat) (o : Nat × Nat) =>
      let part := slice (bs ++ sc.toList) q.2.2 o.2
      match q.2.1, fl.spilled o.1 with
      | some e, _ => (q.1, some e, q.2.2)
      | none, some r => match spillFind (q.1.spk i).spill (floretNo f.val) r with
        | some e =>
          let e' := { e with dirty := true, data := rowPut e.data (o.1 % 128) part }
          let sp := q.1.spk i
          (q.1.setSpk i { sp with spill := e' :: sp.spill.filter (fun y =>
            !(decide (y.floret = e.floret) && decide (y.row = e.row))) }, none, q.2.2 + o.2)
        | none => (q.1, none, q.2.2 + o.2)
      | none, none =>
        if q.1.shadowHit i o.1 o.2 then (q.1, some (0x08, o.1), q.2.2)
        else
          let r := q.1.bankRmw i o.1 part
          if r.2 then (r.1, some (0x06, o.1), q.2.2)
          else (r.1.wakeCells (bankBase i + o.1) o.2, none, q.2.2 + o.2)
    match outs.foldl put (s, none, 0) with
    | (s, some (code, a), _) => .trap s code (some (BitVec.ofNat 64 a))
    | (s, none, _) => .ok (s.orLat f sat nan)

/-- `cvt.b.<fmt> sd, sa, sb` (R161, R162): checked at issue, its LFSR values taken in issue order, and
its accesses queued in the florets' class of the bank, in the order of R161. A `cvt.b` that a later access faults has
taken its 32 LFSR values all the same: a choice of this model (R110). -/
def execCvtB (f : FloretId) (g : BitVec 4) (fmt d a b : BitVec 5) (s : State) : Out :=
  .next (s.issue f [d, a, b] false g (fun fl =>
    let i := spkOfFloret f.val
    let src := fl.rd a
    let dst := fl.rd d
    let sb := fl.rd b
    let ctl := CvtCtl.ofByte (sb.setWidth 8)
    let m := match Fmt.ofCode fmt with
      | some m => if m.isMx then some m else cvtTarget fmt
      | none => none
    let n := 32 * (match m with
      | some m => m.bytes
      | none => 0)
    let bad := (m.isNone || ctl.isNone)
    checked [(decide (src.toNat % 128 ≠ 0), 0x03, some src), (decide (dst.toNat % 32 ≠ 0), 0x03, some dst),
        (decide (fld src 63 16 ≠ 0), 0x04, some src),
        (decide (fld dst 63 16 ≠ 0) || decide (dst.toNat + n > 65536), 0x04, some dst),
        (bad, 0x0B, none)] (fun _ =>
      match m, ctl with
      | some m, some c =>
        let outs := cvtOuts dst.toNat n (if m.isMx then some (fld sb 31 16) else none)
        let rows := (fl.spilledRows src.toNat 128 ++ outs.flatMap (fun o => fl.spilledRows o.1 o.2)).eraseDups
        let (rs, l) := lfsrDraw c 32 (s.spk i).lfsr
        if rows.isEmpty then
          let r : BankReq := { floret := floretNo f.val, pc := fl.pc, off := src.toNat, op := .cvt fmt (sb.setWidth 8) rs }
          let q := outs.zipIdx.map (fun o => { r with
            off := o.1.1, op := .out o.1.2 [] (decide (o.2 + 1 = outs.length)) false false })
          let sp := s.spk i
          .ok (s.setSpk i { sp with
            lfsr := l, bankQ := sp.bankQ ++ (r :: q).map (fun y => { y with order := sp.order }), order := sp.order + 1 })
        else if (s.spk i).bankBusy (floretNo f.val) then .hold s .bank
        else s.withSpill f.val fl.pc rows (fun _ =>
          let s := s.countSpill f.val rows
          (s.setSpk i { s.spk i with lfsr := l }).cvtSpilled f fl m c rs src.toNat outs)
      | _, _ => .hazard)))

/-- `cvt.seed sa` (R112, R124). -/
def execCvtSeed (f : FloretId) (g : BitVec 4) (d a b : BitVec 5) (s : State) : Out :=
  .next (s.issue f [a] (decide (d ≠ 0) || decide (b ≠ 0)) g (fun fl =>
    let i := spkOfFloret f.val
    let v : W32 := (fl.rd a).setWidth 32
    .ok (s.setSpk i { s.spk i with lfsr := if v = 0 then 1 else v })))

/-! ### Write-backs -/

/-- ECC_WRITEBACK (R42): a corrected row is written back at the bank's next free access. -/
def execEccWriteback (i : SpkId) (row : Fin 512) (s : State) : Out :=
  let sp := s.spk i.val
  if sp.fixRows.contains row then
    let s := s.setSpk i.val { sp with fixRows := sp.fixRows.filter (· ≠ row) }
    .next ((List.range 8).foldl (fun s w =>
      let a := (bankBase i.val + row.val * 128) / 16 + w
      if s.eccAt a = some false then s.setEcc a none else s) s)
  else .next s

/-- PS_ECC_WRITEBACK (R611): a corrected word is written back at the store's next free access. -/
def execPsEccWriteback (p : PanId) (word : Fin 32768) (s : State) : Out :=
  let pn := s.pan p.val
  if pn.fixWords.contains word then
    let s := s.setPan p.val { pn with fixWords := pn.fixWords.filter (· ≠ word) }
    let a := storeBase p.val / 16 + word.val
    .next (if s.eccAt a = some false then s.setEcc a none else s)
  else .next s

end Sys2Proof.Machine
end

