-- ==== Sys2Proof/Machine/Reduction.lean ====
section
/-! DEFINITION. In-fabric reduction: panicle posts, leaves, combiner nodes (chapter 10, R77, R156). -/

namespace Sys2Proof.Machine

/-! ### Units -/

/-- The key of a combiner in its table. -/
def nodeIx : NodeId → Nat
  | .router p => p.val
  | .straw w => 1536 + w.val

/-- A combiner. -/
def State.comb (s : State) (i : Nat) : Combiner := Tab.get {} s.red.combiners i

/-- Write a combiner. -/
def State.setComb (s : State) (i : Nat) (v : Combiner) : State :=
  { s with red := { s.red with combiners := Tab.set {} s.red.combiners i v } }

/-- The reduction side of a panicle mover. -/
def State.leaf (s : State) (p : Nat) : LeafUnit := Tab.get {} s.red.leaves p

/-- Write the reduction side of a panicle mover. -/
def State.setLeaf (s : State) (p : Nat) (v : LeafUnit) : State :=
  { s with red := { s.red with leaves := Tab.set {} s.red.leaves p v } }

/-- The router that reaches a straw's station: column 4j + 1, outer row (R345, Table 7-2). -/
def strawRouter (w : Nat) : Nat :=
  let t := w / 4
  t * 192 + (if t < 4 then 0 else 11) * 16 + 4 * (w % 4) + 1

/-- The EC of a combiner's router (function 0x7E). -/
def State.combEc (s : State) (i : Nat) : Ec :=
  if i < 1536 then s.panEc i 0x7E else s.panEc (strawRouter (i - 1536)) 0x7E

/-! ### Entries (Tables 10-2, 10-3) -/

/-- Word `i` of an entry. -/
def entryWord (ws : List W32) (i : Nat) : W32 := ws.getD i 0

/-- A 48-bit EC in words `i` and `i + 1`. -/
def entryEc (ws : List W32) (i : Nat) : Ec :=
  BitVec.ofNat 48 (fld (entryWord ws (i + 1)) 15 0 * 2 ^ 32 + (entryWord ws i).toNat)

/-- Entry valid. -/
def RedNode.v (e : RedNode) : Bool := (entryWord e.words 0).getLsbD 31
/-- The node is the root. -/
def RedNode.root (e : RedNode) : Bool := (entryWord e.words 0).getLsbD 30
/-- Fan-in. -/
def RedNode.fanin (e : RedNode) : Nat := fld (entryWord e.words 0) 29 28 + 1
/-- Function. -/
def RedNode.rfn (e : RedNode) : Nat := fld (entryWord e.words 0) 27 24
/-- Chunks in flight per member. -/
def RedNode.win (e : RedNode) : Nat := fld (entryWord e.words 0) 23 20 + 1
/-- Slice. -/
def RedNode.slice (e : RedNode) : BitVec 16 := (entryWord e.words 0).setWidth 16
/-- Tree ID. -/
def RedNode.tree (e : RedNode) : BitVec 8 := (entryWord e.words 1).extractLsb' 24 8
/-- Context. -/
def RedNode.ctx (e : RedNode) : BitVec 12 := (entryWord e.words 1).extractLsb' 12 12
/-- Child c is present. -/
def RedNode.cv (e : RedNode) (c : Nat) : Bool := (entryWord e.words (5 + 2 * c)).getLsbD 31
/-- Kind of child c. -/
def RedNode.cnk (e : RedNode) (c : Nat) : Bool := (entryWord e.words (5 + 2 * c)).getLsbD 21
/-- Straw toward child c. -/
def RedNode.cvia (e : RedNode) (c : Nat) : Nat := fld (entryWord e.words (5 + 2 * c)) 20 16
/-- Straw toward the parent. -/
def entryPvia (ws : List W32) : Nat := fld (entryWord ws 1) 8 4
/-- Kind of the parent. -/
def entryPnk (ws : List W32) : Bool := (entryWord ws 1).getLsbD 9
/-- Child index at the parent. -/
def entryPcidx (ws : List W32) : Nat := fld (entryWord ws 1) 11 10

/-- Leaf entry valid. -/
def RedLeaf.v (e : RedLeaf) : Bool := (entryWord e.words 0).getLsbD 31
/-- Results are written. -/
def RedLeaf.res (e : RedLeaf) : Bool := (entryWord e.words 0).getLsbD 30
/-- Function. -/
def RedLeaf.rfn (e : RedLeaf) : Nat := fld (entryWord e.words 0) 29 26
/-- Chunks in flight. -/
def RedLeaf.win (e : RedLeaf) : Nat := fld (entryWord e.words 0) 25 22 + 1
/-- Slice. -/
def RedLeaf.slice (e : RedLeaf) : BitVec 16 := (entryWord e.words 0).setWidth 16
/-- Tree ID. -/
def RedLeaf.tree (e : RedLeaf) : BitVec 8 := (entryWord e.words 1).extractLsb' 24 8
/-- Context. -/
def RedLeaf.ctx (e : RedLeaf) : BitVec 12 := (entryWord e.words 1).extractLsb' 12 12
/-- Panicle-store offset of the sync cell. -/
def RedLeaf.sync (e : RedLeaf) : Nat := fld (entryWord e.words 4) 18 0

/-! ### Packets (Table 10-4) -/

/-- The reduction word. -/
def redWord (len rfn cidx : Nat) (k : RedKey) (nk down : Bool) (status : Nat) : W64 :=
  BitVec.ofNat 64 ((len - 1) * 2 ^ 53 + rfn * 2 ^ 49 + cidx * 2 ^ 47 + k.tag.toNat * 2 ^ 39 +
    k.tree.toNat * 2 ^ 31 + k.chunk.toNat * 2 ^ 18 + (if nk then 2 ^ 17 else 0) +
    (if down then 2 ^ 16 else 0) + status)

/-- The key of a packet. -/
def pktKey (p : Packet) : RedKey :=
  { tree := p.word.extractLsb' 31 8, tag := p.word.extractLsb' 39 8, chunk := p.word.extractLsb' 18 13 }

/-- RFN of a packet. -/
def pktRfn (p : Packet) : Nat := fld p.word 52 49
/-- CIDX of a packet. -/
def pktCidx (p : Packet) : Nat := fld p.word 48 47
/-- DIR of a packet: down. -/
def pktDown (p : Packet) : Bool := p.word.getLsbD 16
/-- STATUS of an abort. -/
def pktRedStatus (p : Packet) : Nat := fld p.word 7 0

/-- The straw that PVIA or CVIA names; 0x1F names none (Tables 10-2, 10-3). -/
def viaStraw (via : Nat) : Option (Fin 32) := if via = 0x1F then none else some (Fin.ofNat 32 via)

/-- A reduction packet from EC `src` to EC `dst`, by the straw that the sender's entry names (R346, R347); an endpoint's
carries the acknowledgement that it owes the peer (R333). -/
def State.redSend (s : State) (src dst : Ec) (via : Nat) (slice : BitVec 16) (ctx : BitVec 12) (op rfn cidx : Nat)
    (k : RedKey) (nk down : Bool) (status : Nat) (payload : List Byte) : State :=
  let vc : BitVec 3 := if down then 5 else 4
  let p : Packet := { dst := dst, src := src, slice := slice, data := true, ctx := ctx, gen := (s.ctx ctx.toNat).gen, kind := 3, op := BitVec.ofNat 8 op, vc := vc, word := redWord payload.length rfn cidx k nk down status, payload := payload, via := viaStraw via }
  if ecFn src = 0x7E then s.launchPkt p else s.inject (epOf src) p

/-- An acknowledgement that rides in a reduction packet reaches the endpoint (R333). -/
def State.rideIn (s : State) (p : Packet) : State :=
  if p.av then s.acked (epOf p.dst) (peerKey p.src) p.ack else s

/-- The payload of a RED_ABORT: origin and child index (R346). -/
def abortPayload (origin : Ec) (child : Nat) : List Byte :=
  toLE 6 origin.toNat ++ toLE 1 child ++ List.replicate 9 0

/-! ### Combination (Table 10-1, R353, R354) -/

/-- Little-endian words of `w` bytes. -/
def words (w : Nat) (bs : List Byte) : List Nat :=
  (List.range (bs.length / w)).map (fun i => leAt bs (i * w) w)

/-- The order of FP32 values with −0 below +0. -/
def fp32Ord (x : W32) : Int :=
  if x.getLsbD 31 then -((fld x 30 0 : Nat) : Int) - 1 else ((fld x 30 0 : Nat) : Int)

/-- The larger or smaller of two FP32 values; a NaN gives the canonical NaN. -/
def fp32Pick (larger : Bool) (a b : W32) : W32 :=
  if (fp32Val a).isNan || (fp32Val b).isNan then BitVec.ofNat 32 (Fmt.nanBits .fp32)
  else if (decide (fp32Ord a < fp32Ord b)) == larger then b else a

/-- One element combined, as 32-bit words; BSUM elements are FP32 here (R354). -/
def combine1 (rfn : Nat) (a b : W32) : W32 :=
  match rfn with
  | 0 | 1 => addFp32 a b
  | 2 => a + b
  | 3 => fp32Pick true a b
  | 4 => fp32Pick false a b
  | 5 => if a.slt b then b else a
  | 6 => if b.slt a then b else a
  | _ => a ||| b

/-- A BF16 result of an FP32 value: nearest even, overflow to infinity (R354). -/
def toBf16 (x : W32) : Nat := (cvtElem .bf16 { hr := 0, sat := false, rnd := 0 } 0 x).bits

/-- Elements of a payload; BSUM elements are widened. -/
def redElems (rfn : Nat) (bs : List Byte) : List W32 :=
  if rfn = 1 then (words 2 bs).map (fun x => (Fmt.decode .bf16 x).toFp32)
  else (words 4 bs).map (BitVec.ofNat 32)

/-- Bytes of combined elements. -/
def redBytes (rfn : Nat) (xs : List W32) : List Byte :=
  if rfn = 1 then xs.flatMap (fun x => toLE 2 (toBf16 x)) else xs.flatMap (fun x => toLE 4 x.toNat)

/-- Children's payloads combined in child-index order (R353). -/
def combineAll (rfn : Nat) : List (List Byte) → List Byte
  | [] => []
  | b :: t => redBytes rfn (t.foldl (fun acc c =>
      (acc.zip (redElems rfn c)).map (fun q => combine1 rfn q.1 q.2)) (redElems rfn b))

/-! ### Nodes -/

/-- Slots that a node's keys hold (R356, R361). -/
def RedNode.used (e : RedNode) : Nat :=
  e.keys.foldl (fun n k => n + (if k.st = .gather then k.parts.length else 1)) 0

/-- The node of a packet's tree at a combiner (R349). -/
def Combiner.find (c : Combiner) (p : Packet) : Option Nat :=
  c.nodes.findIdx? (fun e => e.v && decide (e.tree = (pktKey p).tree) && decide (e.slice = p.slice) &&
    decide (e.ctx = p.ctx))

/-- State of a key at a node. -/
def RedNode.key (e : RedNode) (k : RedKey) : Option NodeKey := e.keys.find? (fun x => x.key = k)

/-- Write the state of a key. -/
def RedNode.setKey (e : RedNode) (x : NodeKey) : RedNode :=
  if e.keys.any (fun y => y.key = x.key) then
    { e with keys := e.keys.map (fun y => if y.key = x.key then x else y) }
  else { e with keys := e.keys ++ [x] }

/-- A packet discarded and counted at a combiner. -/
def State.redDiscard (s : State) (i : Nat) : State :=
  s.setComb i { s.comb i with discard := satAdd (s.comb i).discard 1 }

/-- Write a node of a combiner. -/
def State.setNode (s : State) (i n : Nat) (e : RedNode) : State :=
  s.setComb i { s.comb i with nodes := putAt (s.comb i).nodes n e }

/-- A key leaves a node: it enters the closed-key list of 32 (R359). -/
def State.closeKey (s : State) (i n : Nat) (k : RedKey) : State :=
  let c := s.comb i
  match c.nodes[n]? with
  | none => s
  | some e =>
    s.setComb i { c with
      nodes := putAt c.nodes n { e with keys := e.keys.filter (fun x => x.key ≠ k) }
      closed := (k :: c.closed).take 32 }

/-- A packet to every child in child-index order (R347, R356). -/
def State.toChildren (s : State) (i : Nat) (e : RedNode) (op : Nat) (k : RedKey) (status : Nat)
    (payload : List Byte) : State :=
  (List.range e.fanin).foldl (fun s c =>
    s.redSend (s.combEc i) (entryEc e.words (4 + 2 * c)) (e.cvia c) e.slice e.ctx op e.rfn c k (e.cnk c) true
      status payload) s

/-- A packet to the parent (R347). -/
def State.toParent (s : State) (i : Nat) (e : RedNode) (op : Nat) (k : RedKey) (status : Nat)
    (payload : List Byte) : State :=
  s.redSend (s.combEc i) (entryEc e.words 2) (entryPvia e.words) e.slice e.ctx op e.rfn (entryPcidx e.words) k
    (entryPnk e.words) false status payload

/-- A key fails while it gathers (Table 10-5): its payloads go, an abort goes up, or, at the root,
down. -/
def State.abortKey (s : State) (i n : Nat) (k : RedKey) (status : Nat) (payload : List Byte) : State :=
  match (s.comb i).nodes[n]? with
  | none => s
  | some e =>
    let s := s.setComb i { s.comb i with aborts := satAdd (s.comb i).aborts 1 }
    if e.root then (s.toChildren i e 0x32 k status payload).closeKey i n k
    else (s.toParent i e 0x32 k status payload).setNode i n
      (e.setKey { key := k, st := .awaitDown, parts := [] })

/-- A key that fails at this node, with its child index (R346). -/
def State.failKey (s : State) (i n : Nat) (k : RedKey) (status child : Nat) : State :=
  s.abortKey i n k status (abortPayload (s.combEc i) child)

/-- The last child is stored (Table 10-5): the payloads are combined and go up, or, at the root, down. -/
def State.fireKey (s : State) (i n : Nat) (e : RedNode) (x : NodeKey) : State :=
  let res := combineAll e.rfn ((List.range e.fanin).map (fun c => (Tab.get none x.parts c).getD []))
  let s := s.setComb i { s.comb i with combined := satAdd (s.comb i).combined 1 }
  if e.root then (s.toChildren i e 0x31 x.key 0 res).closeKey i n x.key
  else (s.toParent i e 0x30 x.key 0 res).setNode i n
    (e.setKey { key := x.key, st := .awaitDown, parts := [] })

/-- Whether a straw that an edge uses is not UP; 0x1F is no straw. -/
def State.edgeDown (s : State) (via : Nat) : Bool :=
  decide (via ≠ 0x1F) && decide ((Tab.get {} s.fab.straws via).state ≠ .up)

/-- A key whose parent's straw is not UP (Table 10-5): an abort with EDGE_DOWN goes to every child, and the key ends. -/
def State.cutKey (s : State) (i n : Nat) (e : RedNode) (x : NodeKey) : State :=
  let c := s.comb i
  let c := if x.st = .gather then { c with aborts := satAdd c.aborts 1 } else c
  ((s.setComb i c).toChildren i e 0x32 x.key 0x41 (abortPayload (s.combEc i) 0xFF)).closeKey i n x.key

/-- A RED_UP at a node (Table 10-5, R362). A packet that fails its key is counted as discarded (Table 10-9). A straw of
an edge that is not UP when the key arrives fails it, a parent's as one that leaves UP (Table 10-6, assumption 196). -/
def State.nodeUp (s : State) (i n : Nat) (e : RedNode) (p : Packet) : State :=
  let k := pktKey p
  let c := pktCidx p
  let x := (e.key k).getD { key := k }
  if x.st = .awaitDown then s.redDiscard i
  else if c ≥ e.fanin then s.redDiscard i
  else
    let bad := decide (pktRfn p ≠ e.rfn) || (decide (e.rfn = 1) && decide (p.payload.length > 1024)) ||
      (Tab.get none x.parts c).isSome ||
      x.parts.any (fun q => match q.2 with
        | some b => decide (b.length ≠ p.payload.length)
        | none => false)
    let s' := (s.setNode i n (e.setKey x)).redDiscard i
    if bad then s'.failKey i n k 0x43 c
    else if e.used ≥ e.win * e.fanin then s'.failKey i n k 0x42 c
    else
      let x := { x with parts := Tab.set none x.parts c (some p.payload) }
      let e' := e.setKey x
      let s := s.setNode i n e'
      let first := decide (x.parts.length = 1)
      let down := if first then (List.range e.fanin).find? (fun d => s.edgeDown (e.cvia d)) else none
      if first && !e.root && s.edgeDown (entryPvia e.words) then s.cutKey i n e' x
      else match down with
        | some d => s.failKey i n k 0x41 d
        | none => if x.parts.length = e.fanin then s.fireKey i n e' x else s

/-- RED_UP (R349, R353, R359, R362). -/
def execRedUp (n : NodeId) (pkt : Packet) (s : State) : Out :=
  let i := nodeIx n
  let s := (s.takePkt pkt).rideIn pkt
  let c := s.comb i
  match c.find pkt with
  | none => .next (s.redDiscard i)
  | some m =>
    if c.closed.contains (pktKey pkt) then .next (s.redDiscard i)
    else match c.nodes[m]? with
      | some e => .next (s.nodeUp i m e pkt)
      | none => .next s

/-- A down packet at a node (Table 10-5): replicated to the children, and the key is closed. -/
def State.nodeDown (s : State) (i m : Nat) (p : Packet) (abort : Bool) : State :=
  let k := pktKey p
  match (s.comb i).nodes[m]? with
  | none => s
  | some e =>
    match e.key k with
    | none => s.redDiscard i
    | some x =>
      if x.st = .gather ∧ abort = false then s.redDiscard i
      else (s.toChildren i e (if abort then 0x32 else 0x31) k (pktRedStatus p) p.payload).closeKey i m k

/-! ### Leaves -/

/-- Bytes added to a 64-bit cell of a panicle store, and its waiters woken (R358). -/
def State.storeAdd (s : State) (p off : Nat) (v : W64) : State :=
  let a := storeBase p + off
  (s.storeWrite p off (toLE 8 (s.word a + v).toNat)).1.wakeCells a 8

/-- A chunk fails at its leaf (R358). -/
def State.leafFail (s : State) (p : Nat) (sync : Option Nat) (k : RedKey) (status : Nat) (origin : Ec) :
    State :=
  let s := match sync with
    | some off => s.storeAdd p off 0x100000000
    | none => s
  let u := s.leaf p
  let u := { u with fails := satAdd u.fails 1 }
  s.setLeaf p (if u.failValid then { u with failOvf := true }
    else { u with failValid := true, failStatus := BitVec.ofNat 8 status, failTree := k.tree,
                  failChunk := k.chunk, origin := origin })

/-- The leaf entry of a tree. -/
def LeafUnit.find (u : LeafUnit) (tree : BitVec 8) : Option Nat :=
  u.leaves.findIdx? (fun e => e.v && decide (e.tree = tree))

/-- A chunk is sent to the leaf's parent (R351). -/
def State.leafSend (s : State) (p n : Nat) (q : RedPost) : State :=
  let u := s.leaf p
  match u.leaves[n]? with
  | none => s
  | some e =>
    let k : RedKey := { tree := q.tree, tag := q.tag, chunk := q.chunk }
    let o : LeafChunk := { key := k, roff := q.roff }
    let s := s.setLeaf p { u with leaves := putAt u.leaves n { e with out := e.out ++ [o] } }
    s.redSend (s.panEc p 0x41) (entryEc e.words 2) (entryPvia e.words) e.slice e.ctx 0x30 e.rfn (entryPcidx e.words) k
      (entryPnk e.words) false 0 q.payload

/-- The oldest held post of a tree goes on when its window has room (R351). -/
def State.leafPump (s : State) (p n : Nat) : State :=
  let u := s.leaf p
  match u.leaves[n]? with
  | none => s
  | some e =>
    if e.out.length < e.win then
      match u.heldPosts.findIdx? (fun q => q.tree = e.tree) with
      | some m => match u.heldPosts[m]? with
        | some q => (s.setLeaf p { u with heldPosts := dropAt u.heldPosts m }).leafSend p n q
        | none => s
      | none => s
    else s

/-- Whether the result or the sync cell of a packet's chunk lies in a line that a prepared bundle holds:
the outcome then waits (R386). -/
def State.leafHeld (s : State) (p : Nat) (pkt : Packet) : Bool :=
  (s.leaf p).leaves.any (fun e => decide (e.tree = (pktKey pkt).tree) &&
    (s.storeHeld p e.sync 8 || e.out.any (fun o => decide (o.key = pktKey pkt) &&
      s.storeHeld p o.roff pkt.payload.length)))

/-- An outcome reaches a leaf (R358, R360): the result is written before the sync cell changes. A packet that the leaf discards
is counted at the combiner of its panicle's router, which has the counter (R349, R360, Table 10-9, assumption 196). -/
def State.leafDown (s : State) (p : Nat) (pkt : Packet) (abort : Bool) : State :=
  let u := s.leaf p
  let k := pktKey pkt
  match u.leaves.findIdx? (fun e => e.v && decide (e.tree = k.tree) && decide (e.slice = pkt.slice) &&
      decide (e.ctx = pkt.ctx)) with
  | none => s.redDiscard p
  | some n =>
    match u.leaves[n]? with
    | none => s
    | some e =>
      match e.out.find? (fun o => o.key = k) with
      | none => s.redDiscard p
      | some o =>
        let e' : RedLeaf := { e with out := e.out.filter (fun x => x.key ≠ k) }
        let s := s.setLeaf p { u with leaves := putAt u.leaves n e' }
        if abort then
          (s.leafFail p (some e.sync) k (pktRedStatus pkt) (BitVec.ofNat 48 (leAt pkt.payload 0 6))).leafPump p n
        else
          let (s, ue) := if e.res then s.storeWrite p o.roff pkt.payload else (s, false)
          if ue then
            let (v, s) := s.draw
            (s.leafFail p (some e.sync) k (v.toNat % 256) (s.panEc p 0x41)).leafPump p n
          else
            let s := if e.res then s.wakeCells (storeBase p + o.roff) pkt.payload.length else s
            let s := s.storeAdd p e.sync 1
            (s.setLeaf p { s.leaf p with done := satAdd (s.leaf p).done 1 }).leafPump p n

/-- Whether a down packet carries a stale generation (R349). -/
def State.redStale (s : State) (p : Packet) : Bool := decide (p.gen ≠ (s.ctx p.ctx.toNat).gen)

/-- RED_DOWN (R349, R358, R359). -/
def execRedDown (r : RedId) (pkt : Packet) (s0 : State) : Out :=
  let s := (s0.takePkt pkt).rideIn pkt
  match r with
  | .leaf p =>
    if s.leafHeld p.val pkt then .next s0
    else if s.redStale pkt then .next ((s.chaffCtx (8 + tillerOfPan p.val)).redDiscard p.val) else .next (s.leafDown p.val pkt false)
  | .node n =>
    let i := nodeIx n
    if s.redStale pkt then .next ((s.chaffCtx 1).redDiscard i)
    else
      let c := s.comb i
      match c.find pkt with
      | none => .next (s.redDiscard i)
      | some m =>
        if c.closed.contains (pktKey pkt) then .next (s.redDiscard i)
        else .next (s.nodeDown i m pkt false)

/-- RED_ABORT (R346, R349, R359): up from a child, or down from the parent. -/
def execRedAbort (r : RedId) (pkt : Packet) (s0 : State) : Out :=
  let s := (s0.takePkt pkt).rideIn pkt
  match r with
  | .leaf p => if s.leafHeld p.val pkt then .next s0 else .next (s.leafDown p.val pkt true)
  | .node n =>
    let i := nodeIx n
    let c := s.comb i
    match c.find pkt with
    | none => .next (s.redDiscard i)
    | some m =>
      if c.closed.contains (pktKey pkt) then .next (s.redDiscard i)
      else if pktDown pkt then .next (s.nodeDown i m pkt true)
      else match c.nodes[m]? with
        | none => .next s
        | some e => match e.key (pktKey pkt) with
          | some x =>
            if x.st = .gather then .next (s.abortKey i m x.key (pktRedStatus pkt) pkt.payload)
            else .next (s.redDiscard i)
          | none => .next (s.redDiscard i)

/-- The node of a key at a combiner. -/
def Combiner.ofKey (c : Combiner) (k : RedKey) : Option Nat :=
  c.nodes.findIdx? (fun e => (e.key k).isSome)

/-- GATHER_TIMEOUT (R359): CHILD_TIMEOUT. -/
def execGatherTimeout (n : NodeId) (k : RedKey) (s : State) : Out :=
  let i := nodeIx n
  match (s.comb i).ofKey k with
  | none => .next s
  | some m => match (s.comb i).nodes[m]? with
    | none => .next s
    | some e => match e.key k with
      | some x => if x.st = .gather then .next (s.failKey i m k 0x40 0xFF) else .next s
      | none => .next s

/-- AWAIT_DOWN_TIMEOUT (R359): 2 ms without a down packet free the slot. -/
def execAwaitDownTimeout (n : NodeId) (k : RedKey) (s : State) : Out :=
  let i := nodeIx n
  match (s.comb i).ofKey k with
  | none => .next s
  | some m => match (s.comb i).nodes[m]? with
    | none => .next s
    | some e => match e.key k with
      | some x => if x.st = .awaitDown then .next (s.closeKey i m k) else .next s
      | none => .next s

/-- A chunk that a leaf has sent fails there with a status of the leaf's own (R358, R360). -/
def State.chunkFail (s : State) (p : Nat) (k : RedKey) (status : Nat) : State :=
  let u := s.leaf p
  match u.leaves.findIdx? (fun e => e.out.any (fun o => o.key = k)) with
  | none => s
  | some n => match u.leaves[n]? with
    | none => s
    | some e =>
      let e' : RedLeaf := { e with out := e.out.filter (fun x => x.key ≠ k) }
      let s := s.setLeaf p { u with leaves := putAt u.leaves n e' }
      (s.leafFail p (some e.sync) k status (s.panEc p 0x41)).leafPump p n

/-- RESULT_TIMEOUT (R360). -/
def execResultTimeout (p : PanId) (k : RedKey) (s : State) : Out := .next (s.chunkFail p.val k 0x44)

/-- A post is sent, or held while its member's window is full (R351). -/
def State.leafTake (s : State) (p n : Nat) (e : RedLeaf) (q : RedPost) : State :=
  let u := s.leaf p
  let s := s.setLeaf p { u with leaves := putAt u.leaves n { e with last := some (q.step, q.chunk) } }
  if e.out.length < e.win && !u.heldPosts.any (fun x => x.tree = q.tree) then s.leafSend p n q
  else s.setLeaf p { s.leaf p with heldPosts := (s.leaf p).heldPosts ++ [q] }

/-- Whether a post is refused with BAD_POST (R352). -/
def RedLeaf.badPost (e : RedLeaf) (q : RedPost) : Bool :=
  (q.masked && !(decide (e.rfn = 0) || decide (e.rfn = 1) || decide (e.rfn = 3) || decide (e.rfn = 4))) ||
  (match e.last with
   | some (t, c) => decide (t = q.step) && decide (q.chunk ≤ c)
   | none => false)

/-- Descriptors of a panicle mover in use: mover descriptors and reduction posts (R157, R351). -/
def State.movUsed (s : State) (p : Nat) : Nat :=
  (s.pan p).movs.length + (s.leaf p).heldPosts.length +
    (s.leaf p).leaves.foldl (fun n e => n + e.out.length) 0

/-- REDUCTION_POST_ACCEPT (R351, R352): the mover takes the oldest post into one of its 256
descriptors; a post without a mask reads its elements from the panicle store. -/
def execReductionPostAccept (p : PanId) (s0 : State) : Out :=
  let s := s0
  let u := s.leaf p.val
  match u.posts with
  | [] => .next s
  | q :: rest =>
    if s.movUsed p.val ≥ 256 then .next s
    else
      let s := s.setLeaf p.val { u with posts := rest }
      let k : RedKey := { tree := q.tree, tag := q.tag, chunk := q.chunk }
      match (s.leaf p.val).find q.tree with
      | none => .next (s.leafFail p.val none k 0x45 (s.panEc p.val 0x41))
      | some n => match (s.leaf p.val).leaves[n]? with
        | none => .next s
        | some e =>
          if s.storeHeld p.val q.roff (q.h * 16) then .next s0
          else if e.badPost q then .next (s.leafFail p.val (some e.sync) k 0x46 (s.panEc p.val 0x41))
          else if q.masked then .next (s.leafTake p.val n e q)
          else
            let (s, ue) := s.checkStore p.val q.roff (q.h * 16)
            if ue then
              let (v, s) := s.draw
              .next (s.leafFail p.val (some e.sync) k (v.toNat % 256) (s.panEc p.val 0x41))
            else .next (s.leafTake p.val n e { q with payload := s.storeRead p.val q.roff (q.h * 16) })

/-! ### Panicle reductions (R156, R77) -/

/-- Destination offset of a reduction. -/
def redOff (c : W64) : Nat := fld c 40 22
/-- RDST. -/
def redDst (c : W64) : Nat := fld c 15 14

/-- Bytes that a reduction reads or writes at its destination (R156, R350): halved for BSUM. -/
def State.redLen (s : State) (p : Nat) (mask c : W64) : Nat :=
  let bsum := match (s.leaf p).find (c.extractLsb' 56 8) with
    | some n => match (s.leaf p).leaves[n]? with
      | some e => decide (e.rfn = 1)
      | none => false
    | none => false
  if redDst c = 2 && bsum && decide (mask ≠ 0) then redH c * 8 else redH c * 16

/-- Held drains of a reduction ID are checked and submitted when its descriptor is posted (R152). -/
def State.takeHeld (s : State) (p : Nat) (rid : BitVec 8) : State :=
  (List.range 64).foldl (fun s m =>
    let i := p * 64 + m
    match (s.spk i).drains.find? (fun d => d.held && decide (d.dst = .tree rid)) with
    | none => s
    | some d =>
      match (s.pan p).red rid with
      | none => s
      | some r =>
        if !r.mask.getLsbD m || decide (redH r.ctl ≠ fld d.sd 12 7) then s.failDrain i d 0x11
        else
          let sp := s.spk i
          let s := s.setSpk i { sp with drains := sp.drains.map (fun e =>
            if e.order = d.order then { e with held := false } else e) }
          let t : TreeSub := { member := Fin.ofNat 64 m, floret := d.floret, pc := d.pc, sa := d.sa,
                               rows := d.rows, run := d.run }
          s.setPan p ((s.pan p).setRed rid { r with subs := r.subs ++ [t] })) s

/-- A chunk handed to the panicle mover (R350). -/
def State.redHand (s : State) (p : Nat) (f : FloretId) (pc : BitVec 20) (mask c : W64)
    (payload : List Byte) : State :=
  let q : RedPost :=
    { poster := f, pc := pc, tree := c.extractLsb' 56 8,
      step := (s.spk (spkOfFloret f.val)).step, chunk := c.extractLsb' 41 13,
      roff := redOff c, h := redH c, masked := decide (mask ≠ 0), payload := payload }
  s.setLeaf p { s.leaf p with posts := (s.leaf p).posts ++ [q] }

/-- `red.post sa, sb` (R156, R350, R124). -/
def execRedPost (f : FloretId) (g : BitVec 4) (d a b : BitVec 5) (s : State) : Out :=
  .next (s.issue f [a, b] (decide (d ≠ 0)) g (fun fl =>
    let p := panOfSpk (spkOfFloret f.val)
    let mask := fl.rd a
    let c := fl.rd b
    let rid : BitVec 8 := c.setWidth 8
    let h := redH c
    let dst := redDst c
    let off : W64 := BitVec.ofNat 64 (redOff c)
    let dup := ((s.pan p).red rid).isSome
    let shape := decide (h < 1) || decide (h > 32) || decide (dst = 3) ||
      (decide (dst = 2) && decide (fld c 55 54 ≠ 0)) ||
      (decide (dst = 1) && !mask.getLsbD (fld c 21 16))
    let mis := decide (redOff c % 16 ≠ 0)
    let psBad := (decide (dst = 0) || decide (dst = 2)) && decide (redOff c + s.redLen p mask c > 0x80000)
    let bankBad := decide (dst = 1) && decide (redOff c + h * 16 > 0x10000)
    checked [(dup, 0x17, some mask), (shape, 0x11, some mask), (mis, 0x03, some off),
        (psBad, 0x05, some off), (bankBad, 0x04, some off)] (fun _ =>
      if dst = 2 ∧ mask = 0 then .ok (s.redHand p f fl.pc mask c [])
      else
        let pn := s.pan p
        let r : PanRed := { poster := f, pc := fl.pc, mask := mask, ctl := c, run := fl.run }
        .ok ((s.setPan p { pn with reds := pn.reds ++ [(rid, r)] }).takeHeld p rid))))

/-- The result rows of a panicle reduction (R74 to R76). -/
def PanRed.rows (r : PanRed) : List (List W32) :=
  (List.range (redH r.ctl)).map (fun n =>
    (List.range 4).map (fun c =>
      laneSum ((List.range 64).map (fun m =>
        match r.subs.find? (fun t => t.member.val = m) with
        | some t => some ((t.rows.getD n []).getD c 0)
        | none => none))))

/-- PANICLE_REDUCTION_DONE (R77, R156, R350): the result goes to the panicle store, to a member's bank,
or to the mover. -/
def execPanicleReductionDone (p : PanId) (rid : BitVec 8) (s0 : State) : Out :=
  let s := s0
  match (s.pan p.val).red rid with
  | none => .next s
  | some r =>
    if !r.started then .next s
    else
      let pn := s.pan p.val
      let s := s.setPan p.val { pn with reds := pn.reds.filter (fun q => q.1 ≠ rid) }
      let xs := r.rows.flatMap (fun x => x)
      let bytes := xs.flatMap (fun x => toLE 4 x.toNat)
      let off := redOff r.ctl
      match redDst r.ctl with
      | 0 => if s0.storeHeld p.val off bytes.length then .next s0 else
        .next ((s.storeWrite p.val off bytes).1.wakeCells (storeBase p.val + off) bytes.length)
      | 1 =>
        let i := p.val * 64 + fld r.ctl 21 16
        if s.shadowHit i off bytes.length then
          .next (s.raiseRun (spkOfFloret r.poster.val) (floretNo r.poster.val) r.run .lattice 0x08 r.pc r.mask)
        else .next ((s.bankWrite i off bytes).wakeCells (bankBase i + off) bytes.length)
      | _ =>
        let half := decide (s.redLen p.val r.mask r.ctl < bytes.length)
        .next (s.redHand p.val r.poster r.pc r.mask r.ctl
          (if half then xs.flatMap (fun x => toLE 2 (toBf16 x)) else bytes))

/-! ### Edges and releases -/

/-- What a straw that leaves UP does to one key of a node (R359, R363). -/
def State.edgeKey (s : State) (i n w : Nat) (e : RedNode) (x : NodeKey) : State :=
  if !e.root && decide (entryPvia e.words = w) then s.cutKey i n e x
  else if x.st = .gather then
    match (List.range e.fanin).find? (fun c => decide (e.cvia c = w) && (Tab.get none x.parts c).isNone) with
    | some c => s.failKey i n x.key 0x41 c
    | none => s
  else s

/-- A straw leaves UP: keys whose edges use it fail at once (R359, R363). -/
def State.redEdgeDown (s : State) (w : Nat) : State :=
  s.red.combiners.foldl (fun s q =>
    (q.2.nodes.zipIdx).foldl (fun s en =>
      if en.1.v then en.1.keys.foldl (fun s x => s.edgeKey q.1 en.2 w en.1 x) s else s) s) s

/-- A combiner without the nodes of a tree; their keys are closed (R359, R365). -/
def Combiner.release (c : Combiner) (tree : BitVec 8) : Combiner :=
  let gone := (c.nodes.filter (fun e => e.tree = tree)).flatMap (fun e => e.keys.map (·.key))
  { c with nodes := c.nodes.filter (fun e => e.tree ≠ tree), closed := (gone ++ c.closed).take 32 }

/-- The entries of a tree go (R365): outstanding chunks of its leaves, sent or held, fail with RELEASED unless
the context is destroyed. -/
def State.releaseTree (s : State) (tree : BitVec 8) (signal : Bool) : State :=
  let keep (l : List (List W32)) : List (List W32) := l.filter (fun ws => decide ((entryWord ws 1).extractLsb' 24 8 ≠ tree))
  let c : Tab Combiner := s.red.combiners.map (fun (q : Nat × Combiner) => (q.1, q.2.release tree))
  let sn := s.red.savedNodes.map (fun q => (q.1, keep q.2))
  let sl := s.red.savedLeaves.map (fun q => (q.1, keep q.2))
  let s := { s with red := { s.red with combiners := c, savedNodes := sn, savedLeaves := sl, released := (tree, s.refcnt) :: s.red.released } }
  s.red.leaves.foldl (fun s q =>
    q.2.leaves.foldl (fun s e =>
      if e.tree = tree then
        let u := s.leaf q.1
        let held := u.heldPosts.filter (fun x => x.tree = tree)
        let s := s.setLeaf q.1 { u with
          leaves := u.leaves.filter (fun x => x.tree ≠ tree)
          heldPosts := u.heldPosts.filter (fun x => x.tree ≠ tree) }
        let ks := e.out.map (·.key) ++
          held.map (fun x => { tree := x.tree, tag := x.tag, chunk := x.chunk : RedKey })
        if signal then
          ks.foldl (fun s k => s.leafFail q.1 (some e.sync) k 0x47 (s.panEc q.1 0x41)) s
        else s
      else s) s) s

end Sys2Proof.Machine
end

