-- ==== Sys2Proof/Machine/Mover.lean ====
section
/-! DEFINITION. The panicle mover: posts, transfers, run-ahead reads and writes (R51, R157, R158, R206 to
R209, R314). -/

namespace Sys2Proof.Machine

/-! ### Posting (R157) -/

/-- A descriptor's fields (Table 4-13a). -/
def movFields (b : List Byte) : MovFields :=
  let c := leAt b 20 1
  { src := BitVec.ofNat 64 (leAt b 0 8), dst := BitVec.ofNat 64 (leAt b 8 8), len := BitVec.ofNat 32 (leAt b 16 4),
    fence := decide (fieldOf c 2 2 = 1), sig := decide (fieldOf c 1 1 = 1), spec := decide (fieldOf c 0 0 = 1),
    resv := decide (fieldOf c 7 3 ≠ 0) || decide (leAt b 21 3 ≠ 0), sync := BitVec.ofNat 64 (leAt b 24 8) }

/-- `mov.post sa` (R157, R124): the descriptor is read and checked at issue; the post holds a slot until
the mover accepts it. -/
def execMovPost (f : FloretId) (g : BitVec 4) (d a b : BitVec 5) (s : State) : Out :=
  .next (s.issue f [a] (decide (d ≠ 0) || decide (b ≠ 0)) g (fun fl =>
    let i := spkOfFloret f.val
    let p := panOfSpk i
    let at_ := fl.rd a
    checked [(decide (fld at_ 63 19 ≠ 0), 0x05, some at_), (decide (at_.toNat % 32 ≠ 0), 0x03, some at_)] (fun _ =>
      if s.storeHeld p at_.toNat 32 then .hazard else
      match s.checkStore p at_.toNat 32 with
      | (s, true) => .trap s 0x07 (some at_)
      | (s, false) =>
        let m := movFields (s.storeRead p at_.toNat 32)
        if m.spec then .trap s 0x39 (some at_)
        else match (s.spk i).mayTake (floretNo f.val), (s.spk i).freeSlot with
          | true, some n =>
            let o := (s.spk i).owner
            let s := s.putSlot i n { floret := floretNo f.val, kind := .post, pc := fl.pc, addr := at_ }
            let x : MovDesc := { id := 0, src := .floret f fl.pc at_, ctx := o.1, gen := o.2, d := m, post := n, run := fl.run }
            .ok (s.setPan p { s.pan p with movPosts := (s.pan p).movPosts ++ [x] })
          | _, _ => .hold s .slot)))

/-- A place of the mover's 256 in flight that no descriptor has. -/
def Panicle.freeTag (pn : Panicle) : Nat :=
  ((List.range 256).find? (fun n => !pn.movs.any (fun m => m.tag = n))).getD 0

/-- MOVER_DESCRIPTOR_ACCEPT (R157): the oldest post enters the 256 in flight and its slot is freed. -/
def execMoverDescriptorAccept (p : PanId) (s : State) : Out :=
  let pn := s.pan p.val
  match pn.movPosts with
  | [] => .next s
  | m :: rest =>
    if s.movUsed p.val ≥ 256 then .next s
    else
      let s := s.setPan p.val { pn with
        movPosts := rest, movs := pn.movs ++ [{ m with id := pn.movNext, tag := pn.freeTag }], movNext := pn.movNext + 1 }
      match m.src with
      | .sequencer => .next s
      | .floret f _ _ => .next (s.endPost f m.post)

/-! ### Transfers -/

/-- A transfer split into packets of at most 2,048 bytes that stay within 64 KiB (R314): the offset and
length of each. -/
def movPieces : Nat → Nat → Nat → Nat → List (Nat × Nat)
  | 0, _, _, _ => []
  | k + 1, addr, off, len =>
    if len = 0 then []
    else
      let n := Nat.min (Nat.min len 2048) (65536 - (addr + off) % 65536)
      (off, n) :: movPieces k addr (off + n) (len - n)

/-- What an access of the mover comes to: done with its bytes, failed with a reply status, or held. -/
inductive MovRes where
  | ok (s : State) (bytes : List Byte)
  | fail (s : State) (status : Nat)
  | wait (s : State)
deriving DecidableEq, Repr

/-- The home of a mover's local access (R172, R173): translated where virtual; a walk or a far page holds it
(R184, R200). A run-ahead read does not start a far fill, and meets NSPEC (R205, R207). -/
def State.movHome (s : State) (p : Nat) (m : MovDesc) (loc : Nat) (write : Bool) : Except MovRes (State × Home × Nat) :=
  match ctxAddr loc with
  | .virtual =>
    match s.xlStep p { ctx := m.ctx, gen := m.gen, va := loc, write := write, who := .mover m.id } (xlFor m.xl loc) with
    | (s, .at_ a room) =>
      match tlbFind (s.pan p).tlb m.ctx m.gen loc with
      | some e => if m.d.spec && e.pte.getLsbD 58 then .error (.fail s 3) else .ok (s, .grn a, room)
      | none => .ok (s, .grn a, room)
    | (s, .no st) => .error (.fail s st)
    | (s, .wait) => .error (.wait s)
  | .bank i off => .ok (s, .bank i off, 65536)
  | .store q off => .ok (s, .store q off, 524288)
  | .badPanicle | .other => .error (.fail s 3)

/-- A descriptor in flight. -/
def State.mov (s : State) (p id : Nat) : Option MovDesc := (s.pan p).movs.find? (fun m => m.id = id)

/-- Rewrite a descriptor. -/
def State.setMov (s : State) (p : Nat) (m : MovDesc) : State :=
  s.setPan p { s.pan p with movs := (s.pan p).movs.map (fun x => if x.id = m.id then m else x) }

/-- The request that a mover's access of a piece amounts to. -/
def State.movPkt (s : State) (p : Nat) (m : MovDesc) (op : Nat) (opa : W64) (bs : List Byte) : Packet :=
  { src := s.panEc p 0x41, slice := (s.ctx m.ctx.toNat).slice, ctx := m.ctx, gen := m.gen, kind := 0,
    op := BitVec.ofNat 8 op, opa := opa, data := decide (op = 0x11), payload := bs,
    rtag := BitVec.ofNat 9 ((if (s.pan p).movParity.getLsbD m.tag then 256 else 0) + m.tag) }

/-- One access of a mover in its own package: checked as a request at its target (R81, R180, R386). -/
def State.movAccess (s : State) (p : Nat) (m : MovDesc) (pkt : Packet) (loc : Nat) : MovRes :=
  match s.movHome p m loc (pktWrites pkt) with
  | .error r => r
  | .ok (s, h, room) =>
    match s.homeCheck pkt h room with
    | 0 => match s.holder h (pktLen pkt) with
      | some (_, r) => if m.d.spec then .fail s 7 else if r.late then .fail s 7 else .wait s
      | none =>
        if s.grnBusy h (pktLen pkt) then .wait s
        else if pkt.op = 0x10 then
          match s.homeRead h (pktLen pkt) 0 pkt.ctx with
          | (s, none) => .fail s 4
          | (s, some bs) =>
            let r := s.seenBytes (decide (ctxAddr loc = .virtual) && s.spillPrivate m.ctx loc (pktLen pkt) none) bs
            .ok r.1 r.2
        else if pkt.op = 0x11 then
          match s.homeWrite h pkt.payload pkt.ctx with
          | (s, true) => .fail s 4
          | (s, false) => .ok s []
        else match s.homeRead h 8 2 pkt.ctx with
          | (s, none) => .fail s 4
          | (s, some bs) =>
            match s.homeWrite h (toLE 8 (BitVec.ofNat 64 (ofLE bs) + pkt.opa).toNat) pkt.ctx with
            | (s, true) => .fail s 4
            | (s, false) => .ok s []
    | st => .fail s st

/-- A local source read piece by piece; `acc` are the bytes that it has, which a read that must wait keeps. -/
def State.movRead (s : State) (p : Nat) (m : MovDesc) (loc : Nat) (acc : List Byte) : List (Nat × Nat) → MovRes
  | [] => .ok s acc
  | (off, n) :: t =>
    if off < acc.length then s.movRead p m loc acc t
    else match s.movAccess p m (s.movPkt p m 0x10 (BitVec.ofNat 64 n) []) (loc + off) with
      | .ok s bs => s.movRead p { m with xl := none } loc (acc ++ bs) t
      | .wait s => .wait (s.setMov p { m with data := acc })
      | .fail s st => .fail s st

/-- A local destination written piece by piece; a write that must wait keeps what is written. -/
def State.movWrite (s : State) (p : Nat) (m : MovDesc) (loc : Nat) : List (Nat × Nat) → MovRes
  | [] => .ok s []
  | (off, n) :: t =>
    if off < m.wrote then s.movWrite p m loc t
    else match s.movAccess p m (s.movPkt p m 0x11 0 (slice m.data off n)) (loc + off) with
      | .ok s _ => s.movWrite p { m with wrote := off + n, xl := none } loc t
      | .wait s => .wait (s.setMov p m)
      | .fail s st => .fail s st

/-- Pieces of a descriptor at an address. -/
def MovDesc.pieces (m : MovDesc) (loc : Nat) : List (Nat × Nat) := movPieces m.d.len.toNat loc 0 m.d.len.toNat

/-- Where a mover's packet to another package goes (R174, R175). -/
def movDst (p : Nat) (g : GAddr) : Ec :=
  match ctxAddr g.loc with
  | .bank i _ => ecOf g.pkg (tillerOfSpk i) (panOfSpk i % 192) 0 0x41
  | .store q _ => ecOf g.pkg (tillerOfPan q) (q % 192) 0 0x41
  | _ => ecOf g.pkg (tillerOfPan p) (p % 192) 0 0x41

/-- READ packets for a source, or WRITE packets for a destination, in another package; the descriptor, at `stage`,
awaits a reply to each (R158). -/
def State.movSend (s : State) (p : Nat) (m : MovDesc) (stage : MovStage) (g : GAddr) (write : Bool) : State :=
  (m.pieces g.loc).foldl (fun (s : State) (q : Nat × Nat) =>
    let k := if write then s.movPkt p m 0x11 0 (slice m.data q.1 q.2) else s.movPkt p m 0x10 (BitVec.ofNat 64 q.2) []
    s.inject p { k with dst := movDst p g, addr := BitVec.ofNat 44 (g.loc + q.1) })
    (s.setMov p { m with stage := stage, out := (m.pieces g.loc).length })

/-- A whole transfer's bytes: read here, or handed over where the source lies in another package. -/
def State.movSource (s : State) (p : Nat) (m : MovDesc) (g : GAddr) (remote : List Byte) : MovRes :=
  if g.own then s.movRead p m g.loc m.data (m.pieces g.loc) else .ok s (slice remote 0 m.d.len.toNat)

/-! ### Run-ahead writes (R51, R208) -/

/-- A run-ahead write at a bank: rows whose tag or shadow bit do not match are discarded and
counted. A write that meets any such row is discarded whole (assumption 7). -/
def State.raWrite (s : State) (i off : Nat) (tag : BitVec 8) (bs : List Byte) : State :=
  let sp := s.spk i
  let good := decide (tag = sp.landing) && (rowsOf off bs.length).all (fun r => sp.shadow.getLsbD r)
  if good then s.bankWrite i off bs
  else s.count (panOfSpk i) (fun c => { c with raDiscard := satAdd c.raDiscard 1 })

/-- RUN_AHEAD_WRITE (R51, R208). Rows past the bank are no shadow rows. -/
def execRunAheadWrite (i : SpkId) (off : BitVec 16) (tag : BitVec 8) (bytes : List Byte) (s : State) : Out :=
  .next (s.raWrite i.val off.toNat tag bytes)

/-- The bytes of a run-ahead descriptor as writes of single rows. -/
def State.raRows (s : State) (i off : Nat) (tag : BitVec 8) (bs : List Byte) : State :=
  (rowsOf off bs.length).foldl (fun s r =>
    let lo := Nat.max off (r * 128)
    let hi := Nat.min (off + bs.length) (r * 128 + 128)
    s.raWrite i lo tag (slice bs (lo - off) (hi - lo))) s

/-! ### Descriptors -/

/-- A descriptor leaves the mover; the use parity of its place flips (R335). -/
def State.dropMov (s : State) (p id : Nat) : State :=
  let s := s.dropXl p (.mover id)
  let pn := s.pan p
  s.setPan p { pn with
    movs := pn.movs.filter (fun x => x.id ≠ id)
    movParity := (pn.movs.filter (fun x => x.id = id)).foldl (fun b x => putBit b x.tag (!b.getLsbD x.tag)) pn.movParity }

/-- A descriptor fails (R158): MOV_FAIL is raised on the floret that posted it. -/
def State.movFail (s : State) (p : Nat) (m : MovDesc) : State :=
  let s := s.dropMov p m.id
  match m.src with
  | .floret f pc at_ => s.raiseRun (spkOfFloret f.val) (floretNo f.val) m.run .mover 0x38 pc at_
  | .sequencer => s

/-- A run-ahead descriptor is deferred and counted (R207); one of a cancelled step ends (R213). -/
def State.movDefer (s : State) (p : Nat) (m : MovDesc) : State :=
  if m.cut then s.dropMov p m.id else
  (s.setMov p { m with stage := .deferred }).count p (fun c => { c with raDefer := satAdd c.raDefer 1 })

/-- Whether two descriptors have one issuer (Table 4-13a). -/
def sameIssuer (a b : MovFrom) : Bool :=
  match a, b with
  | .floret f _ _, .floret g _ _ => decide (f = g)
  | .sequencer, .sequencer => true
  | _, _ => false

/-- Whether a FENCE still holds a descriptor: an earlier one of its issuer has not completed; a
descriptor that only waits for the step's commit counts as complete. -/
def State.fenced (s : State) (p : Nat) (m : MovDesc) : Bool :=
  m.d.fence && (s.pan p).movs.any (fun x => decide (x.id < m.id) && sameIssuer x.src m.src &&
    (match x.stage with
     | .waiting | .started | .reissued | .writing | .signalling => true
     | _ => false))

/-- Whether a descriptor fails before it reads or writes (R158). -/
def State.movBad (s : State) (m : MovDesc) : Bool :=
  decide (m.d.len = 0) || m.d.resv || (m.d.sig && decide (m.d.sync.toNat % 8 ≠ 0)) ||
  (s.gaddr m.d.src).isNone || (s.gaddr m.d.dst).isNone

/-- The bank of this package that a run-ahead descriptor writes, if it has one (R207). -/
def State.raBank (s : State) (m : MovDesc) : Option (Nat × Nat) :=
  match s.gaddr m.d.dst with
  | some g => match g.own, ctxAddr g.loc with
    | true, .bank i off => if off + m.d.len.toNat ≤ 65536 then some (i, off) else none
    | _, _ => none
  | none => none

/-- The start of a descriptor (R158, R207): READ packets for a source in another package leave, and a local source of a
run-ahead descriptor or of a destination in another package is read; WRITE packets follow once all of it is there.
A run-ahead descriptor that may not read is deferred. -/
def State.movStart (s : State) (p : Nat) (m : MovDesc) : State :=
  let m := { m with stage := .started }
  if m.d.spec then
    if s.movBad m then s.movDefer p m
    else match s.raBank m, s.gaddr m.d.src with
      | some _, some g =>
        if g.own then
          match (s.setMov p m).movRead p m g.loc m.data (m.pieces g.loc) with
          | .ok s bs => s.setMov p { m with data := bs }
          | .wait s => s
          | .fail s _ => s.movDefer p m
        else if m.early then s.setMov p m
        else s.movSend p m .started g false
      | _, _ => s.movDefer p m
  else if s.movBad m then s.movFail p m
  else match s.gaddr m.d.src, s.gaddr m.d.dst with
    | some a, some b =>
      let go := s.setMov p m
      if !a.own then (if m.early then go else s.movSend p m .started a false)
      else if !b.own then
        match go.movRead p m a.loc m.data (m.pieces a.loc) with
        | .ok s bs => s.movSend p { m with data := bs } .writing b true
        | .fail s _ => s.movFail p m
        | .wait s => s
      else go
    | _, _ => s.movFail p m

/-- A mover that waits for its injection longer than MOV_PREFETCH starts to read the source of its next ready
descriptor (R260); what that read meets is seen again when the descriptor starts. -/
def State.movAhead (s : State) (p : Nat) : State :=
  match (s.pan p).movs.find? (fun m => decide (m.stage = .waiting) && !s.fenced p m) with
  | none => s
  | some m =>
    if m.early || s.movBad m || (m.d.spec && (s.raBank m).isNone) then s
    else match s.gaddr m.d.src with
      | none => s
      | some g =>
        let m := { m with early := true }
        if !g.own then s.movSend p m .waiting g false
        else match (s.setMov p m).movRead p m g.loc m.data (m.pieces g.loc) with
          | .ok s bs => s.setMov p { m with data := bs }
          | .wait s => s
          | .fail _ _ => s

end Sys2Proof.Machine
end

