-- ==== Sys2Proof/Machine/FarPages.lean ====
section
/-! DEFINITION. Walks that end, far pages served, invalidations (R184 to R186, R199 to R205). -/

namespace Sys2Proof.Machine

/-! ### Walks -/

/-- What a finished or released translation serves (R184, R201): a slot, a packet at its proxy or a
bundle's agent. Movers and spill fills keep the result and try again; a run-ahead read waits for no far page (R205). -/
def State.resumeXl (s : State) (p : PanId) (x : Xl) (r : State → State × Xlat) : State :=
  match x.who with
  | .slot i n =>
    match (s.spk i.val).slot n with
    | some y =>
      if y.stage = .translating then
        let q := r s
        (q.1.slotXlat i.val n y x.va q.2).pump i.val
      else s
    | none => s
  | .packet k =>
    let q := r s
    if k.op = 0x20 then q.1.agentGo p (bndIdOf k.src (bndRef k)) k (some q.2) else q.1.proxied p.val k q.2
  | .mover id =>
    let q := r s
    match q.1.mov p.val id with
    | none => q.1
    | some m =>
      let keep := fun (g : XlGot) => q.1.setMov p.val { m with xl := some (x.va, g) }
      match q.2 with
      | .pa a => keep (.at_ a (q.1.pageRoom p.val x))
      | .refuse st => keep (.no st)
      | .far => if m.d.spec then keep (.no 3) else q.1.holdFar p.val x
      | .miss => q.1.askWalk p.val x
  | .spill f =>
    let q := r s
    let keep := fun (g : XlGot) => q.1.setFloret f.val { q.1.floret f.val with xl := some (x.va, g) }
    match q.2 with
    | .pa a => keep (.at_ a (q.1.pageRoom p.val x))
    | .refuse st => keep (.no st)
    | .far => q.1.holdFar p.val x
    | .miss => q.1.askWalk p.val x

/-- WALK_COMPLETE (R181, R184): walk `i` of a panicle's translation unit ends; `ue` says that one of its
reads was uncorrectable. -/
def execWalkComplete (p : PanId) (i : Nat) (ue : Bool) (s : State) : Out :=
  let pn := s.pan p.val
  match pn.walks[i]? with
  | none => .next s
  | some x =>
    let s := (s.setPan p.val { pn with walks := dropAt pn.walks i }).nextWalk p.val
    .next (s.resumeXl p x (fun s =>
      if ue then (s, .refuse 4) else s.endWalk p.val x.ctx x.gen x.va x.write))

/-! ### Far pages (R199 to R202) -/

/-- The address of the L3 entry of a page, where the walk reaches level 3. -/
def State.l3At (s : State) (c va : Nat) : Option Nat :=
  match s.walk (BitVec.ofNat 12 c) va with
  | .leaf l => if l.size = 16 then some l.at_ else none
  | .refuse _ => none

/-- TLB entries of a page range of a context go, at one unit (R185). -/
def tlbDrop (l : List TlbEntry) (ctx : BitVec 12) (va len : Nat) : List TlbEntry :=
  l.filter (fun e => !(decide (e.ctx = ctx) && decide (e.vpn * 2 ^ e.size < va + len) &&
    decide (va < e.vpn * 2 ^ e.size + 2 ^ e.size)))

/-- Panicles that hold state. -/
def State.panKeys (s : State) : List Nat := s.cores.panicles.map (fun (q : Nat × Panicle) => q.1)

/-- A page leaves every TLB of the package. -/
def State.flushPage (s : State) (ctx : BitVec 12) (va : Nat) : State :=
  s.panKeys.foldl (fun s p => s.setPan p { s.pan p with tlb := tlbDrop (s.pan p).tlb ctx va 65536 }) s

/-- The host address of a context's far slot (R199). -/
def Ctx.farHost (c : Ctx) (slot : Nat) : Option Nat :=
  (c.farMaps.find? (fun m => decide (m.first ≤ slot) && decide (slot < m.first + m.count))).map
    (fun m => m.host.toNat + (slot - m.first) * 65536)

/-- Accesses held at a page translate again (R201, step 6). -/
def State.releaseFar (s : State) (ctx : BitVec 12) (page : Nat) : State :=
  s.panKeys.foldl (fun s p =>
    let pn := s.pan p
    let hit := fun (x : Xl) => decide (x.ctx = ctx) && decide (x.va / 65536 * 65536 = page)
    let go := (pn.farWait ++ pn.farMore).filter hit
    let s := s.setPan p { pn with
      farWait := pn.farWait.filter (fun x => !hit x), farMore := pn.farMore.filter (fun x => !hit x) }
    let s := s.refillFar p 16
    go.foldl (fun s x => s.resumeXl (Fin.ofNat 1536 p) x
      (fun s => s.tlbLookup p x.ctx x.gen x.va x.write)) s) s

/-- A page-table entry rewritten with its ADDR, FAR as given and D clear. -/
def pteFar (e : Nat) (far : Bool) (addr : Nat) : W64 :=
  let x : W64 := BitVec.ofNat 64 e
  setFld (putBit (putBit x 59 far) 57 false) 43 0 addr

/-- Whether an access of a panicle that it translated in a range is still under way (R185): of a floret, of its mover, or of a packet
that came to it as proxy and waits at a prepared line. -/
def State.accessIn (s : State) (p : Nat) (ctx : BitVec 12) (va len : Nat) : Bool :=
  (List.range 64).any (fun k =>
    let sp := s.spk (p * 64 + k)
    decide (sp.owner.1 = ctx) && sp.slots.any (fun e => match e.2 with
      | some x => decide (x.stage = .sent) && (match s.gaddr x.addr with
          | some g => g.own && decide (va ≤ g.loc) && decide (g.loc < va + len)
          | none => false) &&
        (match x.kind with
          | .commit | .post | .spill => false
          | _ => true)
      | none => false)) ||
  (s.pan p).movs.any (fun m => decide (m.ctx = ctx) && (match m.xl with
    | some (v, .at_ _ _) => decide (va ≤ v) && decide (v < va + len)
    | _ => false)) ||
  s.bnd.ctrls.any (fun e => e.2.homes.any (fun r => r.waiters.any (fun q =>
    decide (ecFn q.dst = 0x41) && decide (ecPanIx q.dst = p) && decide (q.ctx = ctx) &&
    decide (va ≤ q.addr.toNat) && decide (q.addr.toNat < va + len))))

/-- The victim frame's page goes back to its far slot (R201, steps 2 and 3): a dirty frame is copied to
host memory first. -/
def State.evictFar (s : State) (c : CtxId) (h : FarHeld) : State :=
  match s.l3At c.val h.va with
  | none => s
  | some at_ =>
    let e := ofLE (s.read at_ 8)
    let s := s.flushPage (BitVec.ofNat 12 c.val) h.va
    let s := match fieldOf e 57 57, (s.ctx c.val).farHost h.slot with
      | 1, some a =>
        let s := s.hostPut s.hostVia (s.ctx c.val).fn a (s.read (h.frame * 65536) 65536)
        { s with host := { s.host with farEvicts := satAdd s.host.farEvicts 1 } }
      | _, _ => s
    s.paPut at_ (toLE 8 (pteFar e true (h.slot * 65536)).toNat)

/-- FAR_MISS_SERVICE (R199 to R202): the steward serves the far miss of a page; `victim` numbers the
frame of the far pool that it chooses. Accesses already translated to that frame end first (R185). -/
def execFarMissService (c : CtxId) (va : Local) (victim : Nat) (s : State) : Out :=
  let x := s.ctx c.val
  let page := va.toNat / 65536 * 65536
  match x.farPool[victim]?, s.l3At c.val page with
  | some f, some at_ =>
    let e := ofLE (s.read at_ 8)
    let slot := fieldOf e 43 16
    match x.farHost slot with
    | none => .next s
    | some host =>
      if x.st ≠ .live ∨ fieldOf e 59 59 = 0 then .next s
      else if x.farHeld.any (fun h => decide (h.frame = f) && s.panKeys.any (fun p =>
          s.accessIn p (BitVec.ofNat 12 c.val) h.va 65536)) then .next s
      else
        let ctx := BitVec.ofNat 12 c.val
        let s := match x.farHeld.find? (fun h => h.frame = f) with
          | some h => s.evictFar c h
          | none => s
        let (s, bs) := s.hostGet s.hostVia x.fn host 65536
        let s := (s.paWrite (f * 65536) bs ctx).1
        let s := s.paPut at_ (toLE 8 (pteFar e false (f * 65536)).toNat)
        let y := s.ctx c.val
        let held : FarHeld := { frame := f, va := page, slot := slot }
        let s := s.setCtx c.val { y with farHeld := y.farHeld.filter (fun h => h.frame ≠ f) ++ [held] }
        let since := match s.host.farMisses.find? (fun m => decide (m.ctx = ctx) && decide (m.va = page)) with
          | some m => (s.refcnt - m.at_).toNat / 1000
          | none => 0
        let misses := s.host.farMisses.filter (fun m => !(decide (m.ctx = ctx) && decide (m.va = page)))
        let s := { s with host := { s.host with
          farMisses := misses
          farFills := satAdd s.host.farFills 1
          farLongest := satOf 24 (Nat.max s.host.farLongest.toNat since) } }
        .next (s.releaseFar ctx page)
  | _, _ => .next s

/-! ### Invalidations (R185, R186) -/

/-- INVALIDATION (R185): matching TLB entries go, and walks over the range start again. -/
def execInvalidation (p : PanId) (c : CtxId) (va len : W64) (s : State) : Out :=
  let pn := s.pan p.val
  .next (s.setPan p.val { pn with
    tlb := tlbDrop pn.tlb (BitVec.ofNat 12 c.val) va.toNat len.toNat
    inval := pn.inval ++ [(BitVec.ofNat 12 c.val, va.toNat, len.toNat)] })

/-- An acknowledgement from a unit: an invalidation that no unit still owes ends its MAP or UNMAP, and
frames of unmapped pages await R390 (R186, R390). -/
def State.ackInval (s : State) (p : PanId) (ctx : BitVec 12) (va len : Nat) : State :=
  let mine := fun (v : Inval) => decide (v.ctx = ctx) && decide (v.va = va) && decide (v.len = len)
  let after := s.host.invals.map (fun v => if mine v then { v with waits := v.waits.filter (· ≠ p) } else v)
  let s := { s with host := { s.host with invals := after.filter (fun v => !v.waits.isEmpty) } }
  (after.filter (fun v => v.waits.isEmpty)).foldl (fun s v =>
    let c := s.ctx v.ctx.toNat
    let us := v.frames.map (fun f => ({ ext := f, at_ := s.refcnt } : Unmapped))
    (s.setCtx v.ctx.toNat { c with unmapped := c.unmapped ++ us }).finish v.queue v.seq 0 v.pages) s

/-- INVALIDATION_ACK (R185, R186): the oldest invalidation whose accesses have all completed is acknowledged. -/
def execInvalidationAck (p : PanId) (s : State) : Out :=
  match (s.pan p.val).inval.find? (fun v => !s.accessIn p.val v.1 v.2.1 v.2.2) with
  | none => .next s
  | some v => .next ((s.setPan p.val { s.pan p.val with inval := (s.pan p.val).inval.erase v }).ackInval p v.1 v.2.1 v.2.2)

end Sys2Proof.Machine
end

