-- ==== Sys2Proof/Machine/Sequencer.lean ====
section
/-! DEFINITION. Stream sequencers: launches, steps, their commit and cancellation, floret starts and the
ends of mover descriptors (R50, R53, R54, R111, R120, R158, R192, R208 to R213, R410, R420, R616). -/

namespace Sys2Proof.Machine

/-! ### Binding and clearing (R32, R171, R420) -/

/-- Entries of a table from key `lo` on, `n` keys, set to the default. -/
def Tab.wipe {α : Type} (t : Tab α) (lo n : Nat) : Tab α :=
  t.filter (fun e => !(decide (lo ≤ e.1) && decide (e.1 < lo + n)))

/-- Bytes and error marks of an address range become zeros. -/
def State.wipe (s : State) (a n : Nat) : State :=
  { s with mem := { s.mem with bytes := Tab.wipe s.mem.bytes a n, ecc := Tab.wipe s.mem.ecc (a / 16) (n / 16) } }

/-- A spikelet's bank, shadow map, tiles and LFSR are cleared (R420). -/
def State.clearSpk (s : State) (i : Nat) : State :=
  let t := s.wipe (bankBase i) 65536
  t.setSpk i { t.spk i with shadow := 0, zero := 0, tiles := [], invalid := 0, lfsr := 1 }

/-- A panicle's banks, shadow maps, tiles, LFSRs and store are cleared (R420). -/
def State.clearPan (s : State) (p : Nat) : State :=
  (List.range 64).foldl (fun s k => s.clearSpk (p * 64 + k)) (s.wipe (storeBase p) 524288)

/-- A spikelet is bound to its panicle's context (R32). -/
def State.bindSpk (s : State) (i : Nat) (o : BitVec 12 × BitVec 8) : State :=
  s.setSpk i { s.spk i with bound := some o }

/-- A panicle is bound to a context at a step boundary, and every spikelet of it with it: its barriers are not set
(R141, R171, R420). -/
def State.bindPan (s : State) (p : Nat) (o : BitVec 12 × BitVec 8) : State :=
  if (s.pan p).bound = some o then s
  else
    let s := if (s.pan p).toClear then s.clearPan p else s
    let s := s.setPan p { s.pan p with bound := some o, barriers := [], toClear := false }
    (List.range 64).foldl (fun s k => s.bindSpk (p * 64 + k) o) s

/-! ### Stopping work -/

/-- Waits registered by a spikelet's florets in this package end with its slots. -/
def State.dropWaits (s : State) (i : Nat) : State :=
  let mine := fun (w : CellWait) => match w.who with
    | .packet p => decide (ecPkg p.src = s.fab.coord) && decide (ecSpkIx p.src = i) && decide (ecFn p.src < 16)
    | .queue _ _ => false
  { s with mem := { s.mem with waits := s.mem.waits.filter (fun w => !mine w) } }

/-- A spikelet is returned to IDLE (R33): floret state is discarded, outstanding remote operations are
abandoned, queued lattice work and drains end. -/
def State.stopSpk (s : State) (i : Nat) : State :=
  let s := (List.range 16).foldl (fun s f =>
    let x := i * 16 + f
    let s := match (s.floret x).status with
      | .waiting (.sync _ cell) => s.dropWait i cell
      | _ => s
    s.discardFloret x) s
  let s := s.dropWaits i
  let s := (s.spk i).slots.foldl (fun s e =>
    (s.dropXl (panOfSpk i) (.slot (Fin.ofNat 98304 i) e.1)).freeSlotAt i e.1) s
  s.setSpk i { s.spk i with latQ := [], drains := [], bankQ := [], spill := [] }

/-- The spikelets of a panicle are returned to IDLE; its broadcasts, reductions and barrier arrivals
end with them (R410). -/
def State.stopPan (s : State) (p : Nat) : State :=
  let s := (List.range 64).foldl (fun s k => s.stopSpk (p * 64 + k)) s
  let pn := s.pan p
  s.setPan p { pn with
    running := none, waitList := [], posts := [], reds := []
    barriers := pn.barriers.map (fun b => (b.1, { b.2 with arrivals := 0 })) }

/-! ### Launches -/

/-- The sequencer that leads a launch: that of the lowest tiller that its graph names (assumption 8). -/
def leadTiller (g : GraphDesc) : Nat :=
  match leastOf (g.flatMap (fun st => st.panicles.map (fun p => tillerOfPan p.val))) with
  | some t => t
  | none => 0

/-- Every launch. -/
def State.launches (s : State) : List Launch := s.cores.seqs.flatMap (fun (q : Nat × Sequencer) => q.2.launches)

/-- Whether two launches are the same command. -/
def Launch.same (a b : Launch) : Bool := decide (a.queue = b.queue) && decide (a.seq = b.seq)

/-- Write a launch at its sequencer. -/
def State.setLaunch (s : State) (l : Launch) : State :=
  let t := leadTiller l.graph
  s.setSeqr t { s.seqr t with launches := (s.seqr t).launches.map (fun x => if x.same l then l else x) }

/-- The edges of the cells that a step signals, toward the step on each of its tillers (Table 15-8). -/
def State.cellEdges (s : State) (l : Launch) (d : StepDesc) : List Edge :=
  let c : CtxId := Fin.ofNat 4096 l.ctx.toNat
  (d.panicles.map (fun p => tillerOfPan p.val)).eraseDups.flatMap (fun t =>
    d.cells.map (fun a => { src := s.cellAt l.ctx (a.setWidth 64), dst := .step s.fab.coord (Fin.ofNat 8 t) c, owner := c }))

/-- A launch leaves its sequencer; the edges of its signalled cells go. -/
def State.dropLaunch (s : State) (l : Launch) : State :=
  let t := leadTiller l.graph
  let s := (l.graph.flatMap (s.cellEdges l)).foldl (fun s e => s.dropEdge e) s
  s.setSeqr t { s.seqr t with launches := (s.seqr t).launches.filter (fun x => !x.same l) }

/-- The step of a launch that runs. -/
def Launch.current (l : Launch) : Option StepDesc := if l.running then l.graph[l.step - 1]? else none

/-- The step of a launch that commits next. -/
def Launch.next (l : Launch) : Option StepDesc := l.graph[l.step]?

/-- The step index N of the next step (R111). -/
def Launch.index (l : Launch) : W32 := l.first + BitVec.ofNat 32 l.step

/-- Panicles that a launch holds: those of the step that runs and of a next step that is marked. -/
def Launch.holds (l : Launch) : List PanId :=
  (match l.current with
   | some d => d.panicles
   | none => []) ++
  (if l.stage = .unmarked then [] else match l.next with
   | some d => d.panicles
   | none => [])

/-- Whether a panicle's mover has no reduction post that still writes its store (R351). -/
def State.leafQuiet (s : State) (p : Nat) : Bool :=
  let u := s.leaf p
  u.posts.isEmpty && u.heldPosts.isEmpty && u.leaves.all (fun e => e.out.isEmpty)

/-- Whether a panicle mover still holds a descriptor or a reduction post of a launch's florets (R30, R410). -/
def State.movsLeft (s : State) (l : Launch) : Bool :=
  (l.graph.flatMap (fun d => d.panicles)).any (fun p =>
    (decide ((s.pan p.val).bound = some (l.ctx, l.gen)) && !s.leafQuiet p.val) ||
    ((s.pan p.val).movs ++ (s.pan p.val).movPosts).any (fun m =>
      decide (m.ctx = l.ctx) && (match m.src with
        | .floret _ _ _ => true
        | .sequencer => false)))

/-- A launch whose outcome is known completes its command once the descriptors that its florets posted
have ended (R30, R410). -/
def State.settleLaunch (s : State) (l : Launch) : State :=
  match l.outcome with
  | none => s
  | some (st, res) => if s.movsLeft l then s else (s.dropLaunch l).finish l.queue l.seq st res

/-- Launches that wait only for descriptors complete. -/
def State.settleAll (s : State) : State := s.launches.foldl (fun s l => s.settleLaunch l) s

/-! ### Cancelling the next step (R54, R213, R249) -/

/-- Landing rows of a step at one bank: shadow bits set or cleared. -/
def maskRows (m : BitVec 512) (rs : List (Fin 512)) (b : Bool) : BitVec 512 :=
  rs.foldl (fun m r => putBit m r.val b) m

/-- Whether a descriptor is run-ahead work of a step that is not cancelled. -/
def MovDesc.ahead (m : MovDesc) (n : W32) (ctx : BitVec 12) : Bool :=
  decide (m.step = n) && decide (m.ctx = ctx) && !m.cut && decide (m.src = .sequencer)

/-- Whether a descriptor's accesses are under way. -/
def MovDesc.inFlight (m : MovDesc) : Bool :=
  match m.stage with
  | .started | .reissued | .writing | .signalling => true
  | _ => false

/-- Run-ahead work of a launch at one panicle: what has not started, or only waits for the commit, is
dropped; what is in flight runs to its end for a step that is no more (R213). -/
def State.dropAhead (s : State) (p : Nat) (n : W32) (ctx : BitVec 12) : State :=
  let pn := s.pan p
  let s := s.setPan p { pn with
    movPosts := pn.movPosts.filter (fun m => !m.ahead n ctx)
    movs := pn.movs.map (fun m => if m.ahead n ctx && m.inFlight then { m with cut := true } else m) }
  (pn.movs.filter (fun m => m.ahead n ctx && !m.inFlight)).foldl (fun s m => s.dropMov p m.id) s

/-- Prefetch streams of a tiller end (R249). -/
def State.dropStreams (s : State) (t : Nat) : State :=
  (List.range 24).foldl (fun s n =>
    let k := s.stack n
    s.setStack n { k with streams := k.streams.filter (fun x => x.1.val ≠ t) }) s

/-- The next step of a launch is cancelled (R213): its landing rows become zero rows that are no shadow
rows (R54). -/
def State.cancelNext (s : State) (l : Launch) : State :=
  match l.stage, l.next with
  | .unmarked, _ | _, none => s
  | _, some d =>
    let s := d.landing.foldl (fun (s : State) q =>
      let sp := s.spk q.1.val
      s.setSpk q.1.val { sp with shadow := maskRows sp.shadow q.2 false, zero := maskRows sp.zero q.2 true }) s
    let s := (d.runAhead.map (fun q => q.1.val)).eraseDups.foldl (fun s p => s.dropAhead p l.index l.ctx) s
    let s := (d.panicles.map (fun p => tillerOfPan p.val)).eraseDups.foldl (fun s t => s.dropStreams t) s
    s.setLaunch { l with stage := .unmarked }

/-- A launch, as its sequencer now holds it. -/
def State.launch (s : State) (l : Launch) : Launch := (s.launches.find? (fun x => x.same l)).getD l

/-- A launch fails (R213, R410): the next step is cancelled, the spikelets of the step that runs return
to IDLE, and the command completes with `st` and `res` once its descriptors have ended. -/
def State.failLaunch (s : State) (l : Launch) (st res : Nat) : State :=
  let s := s.cancelNext l
  let s := match l.current with
    | some d => d.panicles.foldl (fun (s : State) (p : PanId) => s.stopPan p.val) s
    | none => s
  let l' := { s.launch l with running := false, waiting := [], outcome := some (st, res) }
  (s.setLaunch l').settleLaunch l'

/-- A step fault is logged and fails its launch (Table 12-7). -/
def State.stepFault (s : State) (l : Launch) (code : Nat) (ec : Ec) (n : W32) : State :=
  (s.log 0x0402 2 (some l.ctx) ec 0 n.toNat).failLaunch l 0x10A (code * 2 ^ 56 + ec.toNat)

/-! ### Marking and starting (R50, R208, R211) -/

/-- Whether a panicle has no active floret, no queued lattice work, no drain, reduction or bank access under way
(R32), and no reduction post that still writes its store (R30). -/
def State.panQuiet (s : State) (p : Nat) : Bool :=
  !(s.cores.florets.any (fun e => decide (panOfSpk (spkOfFloret e.1) = p) && decide (e.2.status ≠ .idle))) &&
  (s.pan p).reds.isEmpty && s.leafQuiet p &&
  (List.range 64).all (fun k =>
    let sp := s.spk (p * 64 + k)
    sp.latQ.isEmpty && sp.drains.isEmpty && sp.bankQ.isEmpty)

/-- Whether another launch holds a panicle that a step needs, or work of another context on it is not done (R32). -/
def State.panBusy (s : State) (l : Launch) (d : StepDesc) : Bool :=
  s.launches.any (fun x => !x.same l && x.holds.any (fun p => d.panicles.contains p)) ||
  d.panicles.any (fun p => decide ((s.pan p.val).bound ≠ some (l.ctx, l.gen)) && !s.panQuiet p.val)

/-- The next step's landing set is marked and its run-ahead issued (R50, R208, R209, R211). A step that
names a dead unit is left unmarked: it fails when it would start (R616). -/
def State.markNext (s : State) (l : Launch) : State :=
  match l.next with
  | none => s
  | some d =>
    if s.panBusy l d || d.panicles.any (fun p => s.floor.panDead p.val) ||
        (d.spikelets ++ d.members).any (fun i => s.floor.spkDead i.val) then s
    else
      let o := (l.ctx, l.gen)
      let s := d.panicles.foldl (fun s p => s.bindPan p.val o) s
      let s := d.landing.foldl (fun (s : State) q =>
        let sp := s.spk q.1.val
        s.setSpk q.1.val { sp with
          shadow := maskRows sp.shadow q.2 true, zero := maskRows sp.zero q.2 true,
          landing := l.index.setWidth 8 }) s
      let s := d.runAhead.foldl (fun (s : State) q =>
        let m : MovDesc := { id := 0, src := .sequencer, ctx := l.ctx, gen := l.gen, d := { q.2 with spec := true }, step := l.index }
        let pn := s.pan q.1.val
        (s.setPan q.1.val { pn with movPosts := pn.movPosts ++ [m] }).stir
          (.step s.fab.coord (Fin.ofNat 8 (tillerOfPan q.1.val)) (Fin.ofNat 4096 l.ctx.toNat))) s
      s.setLaunch { l with stage := .runAhead }

/-- The EC of the first dead unit that a step names (R616). -/
def State.deadUnit (s : State) (d : StepDesc) : Option Ec :=
  match d.panicles.find? (fun p => s.floor.panDead p.val) with
  | some p => some (s.panEc p.val 0x41)
  | none =>
    ((d.spikelets ++ d.members).find? (fun i => s.floor.spkDead i.val)).map (fun i => s.spkEc i.val 0)

/-- A floret's state at its start (R120, R192). -/
def State.startFloret (s : State) (f : FloretId) (pc : BitVec 19) (arg : W64) (lwBase : BitVec 9)
    (lwRows lwRes : BitVec 7) : State :=
  let regs := Tab.set 0 (Tab.set 0 [] 1 arg) 2 ((s.floretEc f.val).setWidth 64)
  s.setFloret f.val
    { status := .runnable, pc := (pc &&& ~~~ 3#19).setWidth 20, sregs := regs, lwBase := lwBase,
      lwRows := lwRows, lwRes := lwRes, bndSeq := (s.floret f.val).bndSeq, run := (s.floret f.val).run + 1 }

/-- Whether a start request's window is refused (R192). -/
def badWindow (lwBase : BitVec 9) (lwRows : BitVec 7) : Bool := decide (lwBase.toNat + lwRows.toNat > 512)

/-- The launch whose running step names a panicle. -/
def State.launchOn (s : State) (p : PanId) : Option Launch :=
  s.launches.find? (fun l => match l.current with
    | some d => d.panicles.contains p
    | none => false)

/-- The step of a refused start request is reported as failed (R192). Its fault code is not stated: an
open value (assumption 1). -/
def State.refuseStart (s : State) (f : FloretId) : State :=
  match s.launchOn (Fin.ofNat 1536 (panOfSpk (spkOfFloret f.val))) with
  | none => s
  | some l =>
    let (v, s) := s.draw
    s.stepFault l (v.toNat % 256) (s.floretEc f.val) (l.index - 1)

/-- A start request (R33, R120, R192): only an IDLE floret starts. -/
def State.startReq (s : State) (f : FloretId) (pc : BitVec 19) (arg : W64) (lwBase : BitVec 9)
    (lwRows lwRes : BitVec 7) : State :=
  if badWindow lwBase lwRows then s.refuseStart f
  else if (s.floret f.val).status = .idle then
    (s.stir (s.stepVertex (spkOfFloret f.val))).startFloret f pc arg lwBase lwRows lwRes
  else s

/-- FLORET_START (R33, R120, R192). -/
def execFloretStart (f : FloretId) (pc : BitVec 19) (arg : W64) (lwBase : BitVec 9)
    (lwRows lwRes : BitVec 7) (s : State) : Out :=
  .next (s.startReq f pc arg lwBase lwRows lwRes)

/-- The LFSR of every spikelet bound to a context is loaded for step `n` (R111). -/
def State.seedAll (s : State) (o : BitVec 12 × BitVec 8) (n : W32) : State :=
  let seed := (s.ctx o.1.toNat).seed
  ((s.cores.panicles.filter (fun e => decide (e.2.bound = some o))).map (fun e => e.1)).foldl (fun (s : State) p =>
    (List.range 64).foldl (fun (s : State) k =>
      let i := p * 64 + k
      s.setSpk i { s.spk i with lfsr := lfsrSeed seed ((s.spkEc i 0).setWidth 64) n }) s) s

/-- Every spikelet of a panicle takes the step index, with its instruction buffer empty (R120). -/
def State.enterStep (s : State) (p : Nat) (n : W32) : State :=
  (List.range 64).foldl (fun (s : State) k =>
    let i := p * 64 + k
    s.setSpk i { s.spk i with step := n, ibuf := [] }) s

/-- The next step of a launch starts (Table 5-8, order 6): the dead-unit check, bindings, LFSRs,
instruction buffers, start requests; then the step after it is marked. -/
def State.startNext (s : State) (l : Launch) : State :=
  match l.next with
  | none => s
  | some d =>
    match s.deadUnit d with
    | some ec => s.stepFault l 0xFE ec l.index
    | none =>
      let o := (l.ctx, l.gen)
      let n := l.index
      let s := d.panicles.foldl (fun s p => s.bindPan p.val o) s
      let s := (d.panicles.foldl (fun s p => s.enterStep p.val n) s).seedAll o n
      let l := { l with step := l.step + 1, running := true, waiting := d.panicles, stage := .unmarked }
      let s := (s.cellEdges l d).foldl (fun s e => s.postEdge e) (s.setLaunch l)
      let s := d.starts.foldl (fun s r => s.startReq r.floret r.pc l.arg r.lwBase r.lwRows r.lwRes) s
      let l' := s.launch l
      if l'.outcome.isSome then s else s.markNext l'

/-! ### Reports and commits -/

/-- A fault that a panicle's spikelets have recorded: its code and unit. -/
def State.panFault (s : State) (p : Nat) : Option (Nat × Ec) :=
  (List.range 64).findSome? (fun k =>
    let r := (s.spk (p * 64 + k)).frec
    if r.valid then some (r.code.toNat, s.spkEc (p * 64 + k) r.floret.toNat) else none)

/-- STEP_REPORT (R211, R213): a panicle whose florets are all IDLE reports its step; a recorded fault
fails the step. -/
def execStepReport (t : TillerId) (p : PanId) (s : State) : Out :=
  if tillerOfPan p.val ≠ t.val then .next s
  else match s.launchOn p with
    | none => .next s
    | some l =>
      if !l.waiting.contains p then .next s
      else match s.panFault p.val with
        | some (code, ec) => .next (s.stepFault l code ec (l.index - 1))
        | none =>
          if s.panQuiet p.val then .next (s.setLaunch { l with waiting := l.waiting.filter (· ≠ p) })
          else .next s

/-- Descriptors of the next step of a launch, with their panicles. -/
def State.ahead (s : State) (l : Launch) : List (Nat × MovDesc) :=
  match l.next with
  | none => []
  | some d =>
    (d.runAhead.map (fun q => q.1.val)).eraseDups.flatMap (fun p =>
      let pn := s.pan p
      ((pn.movPosts ++ pn.movs).filter (fun m => m.ahead l.index l.ctx)).map (fun m => (p, m)))

/-- The sync-cell add of a descriptor whose writes are all performed (R158, Table 4-13a): done here, or a SYNC_SIG for a
cell of another package, whose reply the descriptor awaits; an add that must wait leaves it at stage `writing`. -/
def State.movSignal (s : State) (p : Nat) (m : MovDesc) : MovRes :=
  if !m.d.sig then .ok s []
  else match s.gaddr m.d.sync with
    | none => .fail s 3
    | some g =>
      let k := s.movPkt p m 0x08 1 []
      let m := { m with out := 0 }
      if g.own then (s.setMov p { m with stage := .writing }).movAccess p m k g.loc
      else .wait ((s.setMov p { m with stage := .signalling, out := 1 }).inject p
        { k with dst := movDst p g, addr := BitVec.ofNat 44 g.loc })

/-- A reissued descriptor, or the held add of one, fails the step before it starts (R212): the steward is told the
context and the descriptor. -/
def State.reissueFail (s : State) (l : Launch) (p : Nat) (m : MovDesc) : State :=
  let s := { s with host := { s.host with blames := s.host.blames ++ [(l.ctx, Fin.ofNat 1536 p, m.id)] } }
  s.stepFault l 0xFF (s.panEc p 0x41) l.index

/-- What a held descriptor comes to at order 5: a write to another package leaves and its replies are awaited. -/
def State.performOne (s : State) (p : Nat) (m : MovDesc) : MovRes :=
  match m.stage, s.gaddr m.d.dst with
  | .heldWrite, some g =>
    if g.own then
      match s.movWrite p m g.loc (m.pieces g.loc) with
      | .ok s _ => s.movSignal p { m with wrote := m.d.len.toNat, xl := none }
      | r => r
    else .wait (s.movSend p m .writing g true)
  | .writing, _ => if m.out = 0 then s.movSignal p m else .wait s
  | .signalling, _ => .wait s
  | _, _ => s.movSignal p m

/-- Held sync-cell adds and writes are performed (Table 5-8, order 5): `ok true` once all are, `ok false` while one
must wait, an error where one fails (the step then fails as a failed reissue, R212). -/
def State.performHeld (s : State) : List (Nat × MovDesc) → State × Except (Nat × MovDesc) Bool
  | [] => (s, .ok true)
  | (p, m) :: t =>
    match s.performOne p m with
    | .ok s _ => (s.dropMov p m.id).performHeld t
    | .fail s _ => (s, .error (p, m))
    | .wait s => match s.performHeld t with
      | (s, .ok _) => (s, .ok false)
      | r => r

/-- A deferred descriptor is reissued as an ordinary one: READ packets for a source in another package leave, under
a new use of its place (R211, order 3; R335). -/
def State.movReissue (s : State) (p : Nat) (m : MovDesc) : State :=
  let pn := s.pan p
  let m := { m with stage := .reissued, d := { m.d with spec := false }, data := [], out := 0, xl := none }
  let s := (s.setPan p { pn with movParity := putBit pn.movParity m.tag (!pn.movParity.getLsbD m.tag) }).setMov p m
  match s.gaddr m.d.src with
  | some g => if g.own || s.movBad m then s else s.movSend p m .reissued g false
  | none => s

/-- Orders 4 to 6 of Table 5-8. -/
def State.commitNext (s : State) (l : Launch) : State :=
  match l.next with
  | none => s
  | some d =>
    let s := d.landing.foldl (fun (s : State) q =>
      let sp := s.spk q.1.val
      s.setSpk q.1.val { sp with shadow := maskRows sp.shadow q.2 false }) s
    match s.performHeld (s.ahead l) with
    | (s, .ok true) => s.startNext l
    | (s, .ok false) => s
    | (s, .error (p, m)) => (s.dropMov p m.id).reissueFail l p m

/-- One advance of a launch (R211, Table 5-8). -/
def State.advance (s : State) (l : Launch) : State :=
  if l.outcome.isSome then s.settleLaunch l
  else if l.running && !l.waiting.isEmpty then s
  else match l.next with
    | none =>
      let l' := { l with running := false, outcome := some (0, l.step) }
      (s.setLaunch l').settleLaunch l'
    | some d =>
      match l.stage with
      | .unmarked =>
        match s.deadUnit d with
        | some ec => s.stepFault l 0xFE ec l.index
        | none => s.markNext l
      | .runAhead =>
        let ms := s.ahead l
        if ms.any (fun q => decide (q.2.stage = .waiting) || decide (q.2.stage = .started)) then s
        else if ms.any (fun q => decide (q.2.stage = .deferred)) then
          let s := ms.foldl (fun (s : State) q =>
            if q.2.stage = .deferred then s.movReissue q.1 q.2 else s) s
          s.setLaunch { l with stage := .reissue }
        else s.commitNext l
      | .reissue =>
        if (s.ahead l).any (fun q => decide (q.2.stage = .reissued)) then s else s.commitNext l

/-- STEP_COMMIT (R211): the launches of a stream sequencer advance. -/
def execStepCommit (t : TillerId) (s : State) : Out :=
  .next ((s.seqr t.val).launches.foldl (fun s l => s.advance (s.launch l)) s)

/-- STEP_CANCEL (R54, R213): the next step of the oldest launch of a sequencer that has one is
cancelled. -/
def execStepCancel (t : TillerId) (s : State) : Out :=
  match (s.seqr t.val).launches.find? (fun l => decide (l.stage ≠ .unmarked)) with
  | none => .next s
  | some l => .next (s.cancelNext l)

/-! ### Mover descriptors in flight -/

/-- The launch that a sequencer's descriptor serves. -/
def State.launchFor (s : State) (m : MovDesc) : Option Launch :=
  if m.cut then none else
  s.launches.find? (fun l => decide (l.ctx = m.ctx) && decide (l.index = m.step) && decide (l.stage ≠ .unmarked))

/-- A descriptor of the sequencer that failed: a run-ahead one is deferred (R207), a reissued one or a held add
fails its step (R212). -/
def State.aheadFail (s : State) (p : Nat) (m : MovDesc) : State :=
  if m.stage = .started then s.movDefer p m
  else match s.launchFor m with
    | some l => (s.dropMov p m.id).reissueFail l p m
    | none => s.dropMov p m.id

/-- A descriptor fails, as its issuer's rule says. -/
def State.movBroke (s : State) (p : Nat) (m : MovDesc) : State :=
  match m.src with
  | .floret _ _ _ => (s.movFail p m).settleAll
  | .sequencer => s.aheadFail p m

/-- What is left of a descriptor whose writes are performed: its sync-cell add, then its end. -/
def State.movClose (s : State) (p : Nat) (m : MovDesc) : State :=
  match s.movSignal p m with
  | .ok s _ => (s.dropMov p m.id).settleAll
  | .fail s _ => s.movBroke p m
  | .wait s => s

/-- A reply to one of a descriptor's requests has come: after the last, writes are followed by the sync-cell add,
and the add ends the descriptor. -/
def State.movGoOn (s : State) (p : Nat) (m : MovDesc) : State :=
  let m := { m with out := m.out - 1 }
  let s := s.setMov p m
  if m.out ≠ 0 then s
  else match m.stage with
    | .writing => s.movClose p m
    | .signalling => (s.dropMov p m.id).settleAll
    | _ => s

/-- MOVER_DESCRIPTOR_START (R158, R207). -/
def execMoverDescriptorStart (p : PanId) (id : Nat) (s : State) : Out :=
  match s.mov p.val id with
  | none => .next s
  | some m =>
    if m.stage ≠ .waiting ∨ s.fenced p.val m = true then .next s
    else .next (s.movStart p.val m).settleAll

/-- The end of a descriptor's transfer: run-ahead data goes to shadow rows and its signal is held; a
reissued descriptor's data and signal are held; any other is written and signalled (R158, R208,
R211). -/
def State.movEnd (s : State) (p : Nat) (m : MovDesc) (bs : List Byte) : State :=
  if m.d.spec then
    match s.raBank m with
    | none => s.movDefer p m
    | some (i, off) =>
      let s := s.raRows i off (m.step.setWidth 8) bs
      if m.d.sig && !m.cut then s.setMov p { m with stage := .heldSig } else s.dropMov p m.id
  else if m.cut then s.dropMov p m.id
  else if m.stage = .reissued then s.setMov p { m with stage := .heldWrite, data := bs, xl := none }
  else
    match s.gaddr m.d.dst with
    | none => s.movFail p m
    | some g =>
      let m := { m with data := bs }
      if g.own then
        match s.movWrite p m g.loc (m.pieces g.loc) with
        | .fail s _ => s.movFail p m
        | .wait s => s
        | .ok s _ => s.movClose p { m with wrote := m.d.len.toNat, xl := none }
      else s.movSend p m .writing g true

/-- MOVER_DESCRIPTOR_COMPLETE (R158): the transfers are done. `remote` are the bytes that READ replies of
another package brought, `st` the worst reply status of packets to other packages; a sync-cell add that had to wait is
tried again. -/
def execMoverDescriptorComplete (p : PanId) (id : Nat) (remote : List Byte) (st : BitVec 8) (s : State) : Out :=
  match s.mov p.val id with
  | none => .next s
  | some m =>
    if m.out ≠ 0 then .next s
    else if m.stage = .writing then .next (s.movClose p.val m)
    else if m.stage ≠ .started ∧ m.stage ≠ .reissued then .next s
    else if st ≠ 0 ∨ s.movBad m = true then .next (s.movBroke p.val m)
    else match s.gaddr m.d.src with
      | none => .next (s.movBroke p.val m)
      | some g =>
        match s.movSource p.val m g remote with
        | .ok s bs => .next (s.movEnd p.val m bs).settleAll
        | .wait s => .next s
        | .fail s _ => .next (s.movBroke p.val m)

/-- MOVER_DESCRIPTOR_TIMEOUT (R158, R207, R212): 2 ms after its start. -/
def execMoverDescriptorTimeout (p : PanId) (id : Nat) (s : State) : Out :=
  match s.mov p.val id with
  | none => .next s
  | some m => if m.inFlight then .next (s.movBroke p.val m) else .next s

end Sys2Proof.Machine
end

