-- ==== Sys2Proof/Machine/Queues.lean ====
section
/-! DEFINITION. Queues: doorbells, fetch, steward turns, interrupts, states (R396 to R411, R422 to R428). -/

namespace Sys2Proof.Machine

/-! ### States -/

/-- A command's launch is stopped with it: its steps are cancelled (R213, R412), and the command completes with ABORTED
once the writes of its descriptors are done (R30). -/
def State.stopLaunch (s : State) (l : Launch) : State := s.failLaunch l 0x104 l.step

/-- Every outstanding command of a queue completes with ABORTED, its work stopped (R407, R412). -/
def State.abortQueue (s : State) (q : Nat) : State :=
  let mine := s.launches.filter (fun l => decide (l.queue.val = q))
  let s := mine.foldl (fun s l => s.stopLaunch l) s
  (s.queue q).cmds.foldl (fun s c =>
    if s.launches.any (fun l => decide (l.queue.val = q) && decide (l.seq = c.seq)) then s
    else s.complete (Fin.ofNat 4096 q) c.seq 0x104 c.got) s

/-- A queue stops (Table 12-4). -/
def State.stopQueue (s : State) (q : Nat) (cause : BitVec 4) : State :=
  let x := s.queue q
  (s.setQueue q { x with st := .stopped, cause := cause }).abortQueue q

/-- A queue is disabled, its commands aborted (Table 12-4). -/
def State.disableQueue (s : State) (q : Nat) (cause : BitVec 4) : State :=
  let x := s.queue q
  if x.st = .disabled then s
  else
    let s := (s.setQueue q { x with st := .stopped, cause := cause }).abortQueue q
    let x := s.queue q
    s.setQueue q { x with st := .disabled, cfg := putBit x.cfg 31 false }

/-- Whether a queue fetches or drains. -/
def Queue.live (x : Queue) : Bool := decide (x.st = .running) || decide (x.st = .draining)

/-- Queues that hold anything, by number. -/
def State.queueKeys (s : State) : List Nat := s.host.queues.map (fun (e : Nat × Queue) => e.1)

/-! ### Doorbells -/

/-- Whether the counts that a doorbell write leaves stop a queue (R406): a tail more than a ring ahead of the head, or
a count past the completions written. -/
def Queue.bellBad (x : Queue) : Bool :=
  x.live && (decide ((x.tail - x.head).toNat > 2 ^ x.n) ||
    (decide (x.cqHead ≠ x.cqCount) && decide ((x.cqHead - x.cqCount).toNat < 2 ^ 31)))

/-- The counts of a queue are what a doorbell write has made them (R404, R406). -/
def State.rung (s : State) (q : Nat) (x : Queue) : State :=
  let s := s.setQueue q x
  if x.bellBad then s.stopQueue q 1 else s

/-- A doorbell write of SQ_TAIL (R404, R406). -/
def State.sqTail (s : State) (q : Nat) (v : W32) : State := s.rung q { s.queue q with tail := v }

/-- A doorbell write of CQ_HEAD (R404, R406). -/
def State.cqHead (s : State) (q : Nat) (v : W32) : State := s.rung q { s.queue q with cqHead := v }

/-- SQ_TAIL (R404, R406). -/
def execSqTail (q : QueueId) (v : W32) (s : State) : Out := .next (s.sqTail q.val v)

/-- CQ_HEAD (R404, R406). -/
def execCqHead (q : QueueId) (v : W32) (s : State) : Out := .next (s.cqHead q.val v)

/-- A write at offset `o` of a queue's doorbell page (R404): any but of its two registers is ignored and counted. -/
def State.ringBell (s : State) (q o : Nat) (v : W32) : State :=
  if o = 0 then s.sqTail q v
  else if o = 4 then s.cqHead q v
  else { s with host := { s.host with dbIgnored := satAdd s.host.dbIgnored 1 } }

/-! ### Fetch -/

/-- A command enters a queue; the peak of commands in flight follows (Table 12-17). -/
def State.addCmd (s : State) (q : Nat) (c : HCmd) : State :=
  let x := s.queue q
  let s := s.setQueue q { x with cmds := x.cmds ++ [c] }
  let n := s.inflight
  { s with host := { s.host with peak := satOf 13 (Nat.max s.host.peak.toNat n) } }

/-- COMMAND_FETCH (R403, R405, R434): the command at count QENG_Q_HEAD. A SIGNAL that has not started posts its
edge (Table 15-8). -/
def execCommandFetch (q : QueueId) (s : State) : Out :=
  let x := s.queue q.val
  if s.boot.phase = 8 ∧ s.boot.recovery = false ∧ x.st = .running ∧ x.head ≠ x.tail ∧ (x.head - x.cqHead).toNat < 2 ^ x.n ∧ s.inflight < 4096 then
    let bytes := s.hostRead (fld x.cfg 5 0) (x.base.toNat + 64 * (x.head.toNat % 2 ^ x.n)) 64
    let c : HCmd := { seq := x.head, bytes := bytes, cfg := x.cfg, gen := x.gen }
    let s := s.setQueue q.val { x with head := x.head + 1 }
    let s := s.addCmd q.val c
    .next (if c.opcode = 5 then s.postEdge (s.cmdEdge q c) else s)
  else .next s

/-! ### Steward turns -/

/-- Steward `w`. -/
def State.stew (s : State) (w : Nat) : Steward := Tab.get {} s.host.stewards w

/-- Write a steward. -/
def State.setStew (s : State) (w : Nat) (v : Steward) : State :=
  { s with host := { s.host with stewards := Tab.set {} s.host.stewards w v } }

/-- Whether the order of R408 lets a command start: every earlier command of its queue has started, no
earlier one is a WAIT, and with ORDER all of them have completed. The commands that one master forwards
for one of its queues form a queue of their own (R425). -/
def Queue.mayStart (x : Queue) (c : HCmd) : Bool :=
  let before := (x.cmds.takeWhile (fun d => d.seq ≠ c.seq || d.via ≠ c.via)).filter (fun d => d.via = c.via)
  before.all (fun d => d.started && decide (d.opcode ≠ 6)) && (!c.order || before.isEmpty)

/-- Whether an opcode is one of Table 12-8. -/
def opKnown (op : Nat) : Bool := decide (1 ≤ op) && decide (op ≤ 0x12)

/-- Whether an opcode may run on a command's queue (Table 12-8). -/
def HCmd.permitted (c : HCmd) : Bool :=
  let op := c.opcode
  if op = 4 ∨ op = 0x10 then true
  else if op = 9 ∨ op = 0x0A then c.admin
  else if op = 0x0B ∨ (0x0D ≤ op ∧ op ≠ 0x10) then c.admin && decide (c.fn = 0)
  else !c.admin

/-- Whether the context of a command's queue is LIVE with the generation that the command was fetched
under (R421). -/
def State.ctxHere (s : State) (c : HCmd) : Bool :=
  let x := s.ctx c.ctx.toNat
  c.admin || (decide (x.st = .live) && decide (x.gen = c.gen))

/-- Member indices of the stook. -/
def State.members (s : State) : List Nat := bitsSet s.stook.1

/-- A command goes to members of the stook (R424, R425). -/
def State.forwardCmd (s : State) (q : QueueId) (c : HCmd) (ms : List Nat) (here : Bool) : State :=
  let s := s.setCmd q { c with started := true, local_ := here, away := ms.map (Fin.ofNat 64) }
  ms.foldl (fun s m =>
    s.sendStw (ecOf (s.pkgOfIx m) 0 0 0 0x7F)
      (.forward (s.stewardEc 0) q c.seq c.cfg c.bytes)) s

/-- Where a command that starts runs, by ALL, DV and DEST (R423, R424): here, elsewhere, or refused with a
status. -/
def State.placeCmd (s : State) (q : QueueId) (c : HCmd) : State :=
  let here := s.setCmd q { c with started := true }
  if c.via.isSome then here
  else if !s.isMaster then
    if c.opcode = 0x10 ∨ c.opcode = 0x11 then here else here.complete q c.seq 0x102 0
  else if c.all && c.dv then here.complete q c.seq 0x101 0
  else if c.all then
    let own := coordIx s.fab.coord
    s.forwardCmd q c (s.members.filter (· ≠ own)) true
  else if c.dv then
    match s.members.find? (fun m => s.pkgOfIx m = c.dest) with
    | none => here.complete q c.seq 0x102 0
    | some m => if c.dest = s.fab.coord then here else s.forwardCmd q c [m] false
  else here

/-- A command starts (R408, R411, R413): refused with a status where it may not, else placed. -/
def State.startCmd (s : State) (q : QueueId) (c : HCmd) : State :=
  let s := if c.opcode = 5 then s.dropEdge (s.cmdEdge q c) else s
  let c := { c with startNo := s.host.starts, startAt := s.refcnt }
  let s := { s with host := { s.host with starts := s.host.starts + 1 } }
  let bad := fun (st : Nat) => (s.setCmd q { c with started := true }).complete q c.seq st 0
  if !opKnown c.opcode || c.reserved then bad 0x100
  else if !c.permitted then bad 0x102
  else if !s.ctxHere c && !c.dv then bad 0x103
  else s.placeCmd q c

/-- Whether a command of a queue needs a steward's turn (R409): it may start, or it is a COPY or FILL that goes on at
this package. Other work does not hold a turn while it runs. -/
def State.wantsTurn (s : State) (q : QueueId) (c : HCmd) : Bool :=
  !c.discard && (if c.started then c.local_ && decide (c.opcode = 2 ∨ c.opcode = 3) && decide (c.out = 0)
    else (s.queue q.val).mayStart c)

/-- Whether a queue has turns left in the round: of priority p it takes 2^p (R409). -/
def State.turnsLeft (s : State) (q : QueueId) (c : HCmd) : Bool :=
  decide (Tab.get 0 s.host.turns q.val < 2 ^ fld c.cfg 25 24)

/-- A turn of a queue is counted in the stewards' round, which is one for all of them (R409, assumption 185). A queue whose turns are used
up waits while another that needs one has turns left; else the next round begins. -/
def State.roundTurn (s : State) (q : QueueId) (c : HCmd) : Option State :=
  if s.turnsLeft q c then some { s with host := { s.host with turns := Tab.upd 0 s.host.turns q.val (· + 1) } }
  else if s.allCmds.any (fun e => decide (e.1 ≠ q) && s.wantsTurn e.1 e.2 && s.turnsLeft e.1 e.2) then none
  else some { s with host := { s.host with turns := [(q.val, 1)] } }

/-- STEWARD_TURN (R408, R409): a steward that is up and free takes a command that may start, or goes on
with one that has started, in the order of the rounds. -/
def execStewardTurn (w : Fin 4) (q : QueueId) (seq : W32) (s : State) : Out :=
  let st := s.stew w.val
  match s.cmd q seq, (s.cmd q seq).bind (fun c => s.roundTurn q c) with
  | none, _ | _, none => .next s
  | some c, some r =>
    if st.turn.isSome || st.down then .next s
    else
      let took := r.setStew w.val { st with turn := some (q, seq), turnAt := s.refcnt }
      if c.started then .next took
      else if (s.queue q.val).mayStart c && !c.discard then .next (took.startCmd q c)
      else .next s

/-- STEWARD_TURN_END (R409, R480): 50 µs. -/
def execStewardTurnEnd (w : Fin 4) (s : State) : Out :=
  .next (s.setStew w.val { s.stew w.val with turn := none })

/-! ### Interrupts and host errors -/

/-- QUEUE_IRQ (R428, Table 12-15): by count, or by time, the owner's vector is signalled for the
completions that are owed; COUNT 0 signals each one. -/
def execQueueIrq (q : QueueId) (timer : Bool) (s : State) : Out :=
  let x := s.queue q.val
  let count := fld x.irq 23 16
  let due := timer || decide (x.irqOwed ≥ count)
  if x.irqOwed > 0 ∧ x.irq.getLsbD 15 = true ∧ due = true then
    let left := if count = 0 ∧ timer = false then x.irqOwed - 1 else 0
    let s := s.setQueue q.val { x with irqOwed := left }
    .next { s with host := { s.host with msix := s.host.msix ++ [(fld x.cfg 5 0, fld x.irq 7 0)] } }
  else .next s

/-- HOST_DMA_ERROR (R398): the command fails with HOST_DMA, or, on a ring, the queue stops. -/
def execHostDmaError (q : QueueId) (seq : W32) (ring : Bool) (s : State) : Out :=
  if ring then
    if (s.queue q.val).live then .next (s.stopQueue q.val 2) else .next s
  else match s.cmd q seq with
    | some c => if c.started then .next (s.finish q seq 0x109 c.got) else .next s
    | none => .next s

/-! ### Enable, disable, restart -/

/-- Whether a function has an ADMIN queue that is enabled (Table 12-13). -/
def State.hasAdmin (s : State) (fn : Nat) : Bool :=
  s.host.queues.any (fun e => decide (e.2.st ≠ .disabled) && e.2.cfg.getLsbD 30 && decide (fld e.2.cfg 5 0 = fn))

/-- Whether a configuration is valid (Table 12-4); a function has at most one ADMIN queue
(Table 12-13), and a member of a stook has the admin queue of its PF only (R423). -/
def State.cfgOk (s : State) (cfg : W32) : Bool :=
  let c := s.ctx (fld cfg 23 12)
  decide (fld cfg 29 26 ≤ 10) && (s.isMaster || (cfg.getLsbD 30 && decide (fld cfg 5 0 = 0))) &&
  (if cfg.getLsbD 30 then !s.hasAdmin (fld cfg 5 0)
    else decide (c.st = .live) && decide (c.fn = fld cfg 5 0))

/-- EN written 1 with a configuration word (R407, Table 12-13). A refused enable leaves EN reading 0: the model's choice,
against Table 0-3's last value written (assumption 169). -/
def State.enableQueue (s : State) (q : Nat) (cfg : W32) : State :=
  let x := s.queue q
  if x.st ≠ .disabled then s
  else
    let kept := cfg &&& 0x7FFFF03F
    if s.cfgOk cfg then
      s.setQueue q { x with
        cfg := putBit kept 31 true, st := .running, head := x.tail, gen := (s.ctx (fld cfg 23 12)).gen }
    else s.setQueue q { x with cfg := kept, cfgErr := true }

/-- QUEUE_ENABLE (R407). -/
def execQueueEnable (q : QueueId) (cfg : W32) (s : State) : Out := .next (s.enableQueue q.val cfg)

/-- EN written 0 (Table 12-4). -/
def State.drainQueue (s : State) (q : Nat) : State :=
  let x := s.queue q
  let x' := { x with cfg := putBit x.cfg 31 false }
  match x.st with
  | .running => s.setQueue q ({ x' with st := .draining } : Queue).settle
  | .stopped => s.setQueue q { x' with st := .disabled }
  | .draining | .disabled => s

/-- QUEUE_DISABLE (R407). -/
def execQueueDisable (q : QueueId) (s : State) : Out := .next (s.drainQueue q.val)

/-- ABORTED completions for `k` commands that are not fetched (Table 12-4). -/
def State.skipCmds (s : State) (q : QueueId) : Nat → State
  | 0 => s
  | k + 1 =>
    let x := s.queue q.val
    let s := s.hostWrite (fld x.cfg 5 0) (x.cqBase.toNat + 16 * (x.cqCount.toNat % 2 ^ x.n)) (cqEntry q x x.head 0x104 0)
    (s.setQueue q.val { x with head := x.head + 1, cqCount := x.cqCount + 1 }).skipCmds q k

/-- RESTART written (Table 12-4, Table 12-16). -/
def State.restartQueue (s : State) (q : QueueId) (skip : Bool) : State :=
  let x := s.queue q.val
  if x.st ≠ .stopped then s
  else
    let s := s.setQueue q.val { x with st := .running }
    if skip then s.skipCmds q (x.tail - x.head).toNat else s

/-- QUEUE_RESTART (R407). -/
def execQueueRestart (q : QueueId) (skip : Bool) (s : State) : Out := .next (s.restartQueue q skip)

/-! ### HOSTFN reset (R422) -/

/-- Every queue is disabled without a completion; commands that have started go on, their completions
discarded. -/
def State.hostFnQueues (s : State) : State :=
  s.queueKeys.foldl (fun s q =>
    let x := s.queue q
    if x.st = .disabled then s
    else
      let gone := x.cmds.filter (fun c => !c.started && c.via.isNone)
      let s := gone.foldl (fun s c => s.dropCmd (Fin.ofNat 4096 q) c) s
      let kept := (x.cmds.filter (fun c => c.started || c.via.isSome)).map (fun c =>
        if c.via.isNone then { c with discard := true } else c)
      s.setQueue q { x with
        st := .disabled, cause := 6, cmds := kept, irqOwed := 0, cfg := putBit x.cfg 31 false }) s

end Sys2Proof.Machine
end

