-- ==== Sys2Proof/Machine/Commands.lean ====
section
/-! DEFINITION. Commands that move data, order work and signal (R408 to R416, R615, Tables 12-7, 12-8). -/

namespace Sys2Proof.Machine

/-- A command that runs at this package with a given opcode. -/
def State.running (s : State) (q : QueueId) (seq : W32) (op : Nat) : Option HCmd :=
  match s.cmd q seq with
  | some c => if c.started && c.local_ && decide (c.opcode = op) then some c else none
  | none => none

/-- RESULT of ADDR_FAULT (Table 12-7, R615): the reply status above how far the command got. -/
def addrFault (st done : Nat) : Nat := st * 2 ^ 56 + done % 2 ^ 56

/-! ### Accesses of commands -/

/-- Status and RESULT of a command whose package-side access failed with a reply status (R412, R484): DOMAIN_RESET where
its target's domain resets, else ADDR_FAULT; RESULT says how far the command got. -/
def accCode (st done : Nat) : Nat × Nat := if st = 1 then (0x10D, done) else (0x108, addrFault st done)

/-- A package-side access of a command fails with a reply status. -/
def State.accFail (s : State) (q : QueueId) (seq : W32) (st done : Nat) : State :=
  s.finish q seq (accCode st done).1 (accCode st done).2

/-- A command ends with a status and RESULT, once the replies that its requests to other packages await have come
(R30). -/
def State.endCmd (s : State) (q : QueueId) (seq : W32) (st res : Nat) : State :=
  match s.cmd q seq with
  | none => s
  | some c => if c.out = 0 then s.finish q seq st res else s.setCmd q { c with ending := some (st, res) }

/-- The tag of a steward's requests for a command (R335): the one that it has, or a free one of 1 to 511; requests whose replies nothing awaits carry 0. -/
def State.cmdTag (s : State) (q : QueueId) (seq : W32) : State × Nat :=
  match s.host.stwReqs.find? (fun r => decide (r.2.1 = q) && decide (r.2.2 = seq)) with
  | some r => (s, r.1)
  | none =>
    let used := fun (t : Nat) => s.host.stwReqs.any (fun r => r.1 = t)
    let tag := (((List.range 511).map (fun k => (s.host.stwTag + k) % 511 + 1)).find? (fun t => !used t)).getD
      (s.host.stwTag % 511 + 1)
    ({ s with host := { s.host with
      stwTag := tag, stwReqs := s.host.stwReqs.filter (fun r => r.1 ≠ tag) ++ [(tag, q, seq)] } }, tag)

/-- What a command's access comes to: done, failed with a reply status, or held. -/
inductive CmdRes where
  | ok (s : State) (bytes : List Byte)
  | fail (s : State) (status : Nat)
  | wait (s : State)
deriving DecidableEq, Repr

/-- The request that a command's access amounts to, with its queue's context (R316). -/
def State.cmdPkt (s : State) (c : HCmd) (op : Nat) (opa : W64) (bs : List Byte) : Packet :=
  { src := s.seqEc 0, slice := (s.ctx c.ctx.toNat).slice, ctx := c.ctx, gen := c.gen, kind := 0,
    op := BitVec.ofNat 8 op, opa := opa, data := decide (op = 0x11), payload := bs }

/-- D of a leaf is set before its first write (R182). -/
def State.dirtyLeaf (s : State) (l : Leaf) (write : Bool) : State :=
  if write && !l.pte.getLsbD 57 then s.paPut l.at_ (toLE 8 (putBit l.pte 57 true).toNat) else s

/-- The home of a command's local address (R172, R177 to R182); a far page is posted as a miss (R200). -/
def State.cmdHome (s : State) (c : HCmd) (loc : Nat) (write : Bool) : Except CmdRes (State × Home × Nat) :=
  match ctxAddr loc with
  | .virtual =>
    match s.walk c.ctx loc with
    | .refuse st => .error (.fail s st)
    | .leaf l =>
      if !l.pte.getLsbD 61 || (write && !l.pte.getLsbD 60) then .error (.fail s 3)
      else if l.pte.getLsbD 59 then
        if (s.ctx c.ctx.toNat).farPool.isEmpty then .error (.fail s 3)
        else .error (.wait (s.postFar c.ctx loc))
      else .ok (s.dirtyLeaf l write, .grn (pteAddr l.pte + loc % 2 ^ l.size), 2 ^ l.size - loc % 2 ^ l.size)
  | .bank i off => .ok (s, .bank i off, 65536)
  | .store p off => .ok (s, .store p off, 524288)
  | .badPanicle | .other => .error (.fail s 3)

/-- A command's access in this package: a READ, a WRITE, or an ADD that gives the new value. -/
def State.cmdAccess (s : State) (c : HCmd) (pkt : Packet) (loc : Nat) : CmdRes :=
  match s.cmdHome c loc (pktWrites pkt) with
  | .error r => r
  | .ok (s, h, room) =>
    match s.homeCheck pkt h room with
    | 0 => match s.holder h (pktLen pkt) with
      | some (_, r) => if r.late then .fail s 7 else .wait s
      | none =>
        if s.grnBusy h (pktLen pkt) then .wait s
        else if pkt.op = 0x11 then
          match s.homeWrite h pkt.payload pkt.ctx with
          | (s, true) => .fail s 4
          | (s, false) => .ok s []
        else match s.homeRead h (pktLen pkt) 2 pkt.ctx with
          | (s, none) => .fail s 4
          | (s, some bs) =>
            let seen := fun (s : State) (bs : List Byte) =>
              let r := s.seenBytes (decide (ctxAddr loc = .virtual) && s.spillPrivate c.ctx loc (pktLen pkt) none) bs
              CmdRes.ok r.1 r.2
            if pkt.op = 0x10 then seen s bs
            else
              let v := toLE 8 (BitVec.ofNat 64 (ofLE bs) + pkt.opa).toNat
              match s.homeWrite h v pkt.ctx with
              | (s, true) => .fail s 4
              | (s, false) => seen s v
    | st => .fail s st

/-- A request of a command to another package, sent by the hub's transport engine (R331). The proxy
panicle of a virtual address is the first of its package. -/
def State.cmdSend (s : State) (pkt : Packet) (g : GAddr) (tag : Nat) : State :=
  s.inject 1568 { pkt with
    src := s.stewardEc 0, dst := movDst 0 g, addr := BitVec.ofNat 44 g.loc, rtag := BitVec.ofNat 9 tag }

/-- A request of a command to another package, which awaits its reply. -/
def State.cmdAsk (s : State) (q : QueueId) (seq : W32) (pkt : Packet) (g : GAddr) : State :=
  match s.cmd q seq with
  | none => s
  | some c =>
    let (s, tag) := (s.setCmd q { c with out := c.out + 1 }).cmdTag q seq
    s.cmdSend pkt g tag

/-- A host access of a command that a master has forwarded (R427), whose replies it awaits. -/
def State.hostAsk (s : State) (q : QueueId) (seq : W32) (master : Ec) (a n : Nat) (write : Option (List Byte)) : State :=
  match s.cmd q seq with
  | none => s
  | some c =>
    let (s, tag) := (s.setCmd q { c with out := c.out + (hostPieces n).length }).cmdTag q seq
    s.hostSend master c.fn a n tag write

/-- Whether host memory of a command's queue can no longer be reached (R422). -/
def State.hostGone (s : State) (c : HCmd) : Bool := c.discard || s.domResetting 2

/-! ### COPY and FILL -/

/-- Length of a copy's next piece: at most 2,048 bytes, within 64 KiB of both addresses (R314). -/
def pieceLen (src dst left : Nat) : Nat :=
  Nat.min (Nat.min left 2048) (Nat.min (65536 - src % 65536) (65536 - dst % 65536))

/-- How a copy ends: in `s` after `done` bytes with a status, or held. -/
inductive CopyEnd where
  | done (s : State)
  | stop (s : State) (done : Nat) (status : Nat)
  | wait (s : State) (done : Nat)

/-- The pieces of a copy from `off` on: offset and length. -/
def copyPieces (src dst len : Nat) : Nat → Nat → List (Nat × Nat)
  | 0, _ => []
  | k + 1, off =>
    if len ≤ off then []
    else
      let n := pieceLen (src + off) (dst + off) (len - off)
      (off, n) :: copyPieces src dst len k (off + n)

/-- Whether a COPY's source is read by READs whose replies it awaits: it lies in another package, or in the host memory
of a master (R427). -/
def State.copyAway (s : State) (c : HCmd) : Bool :=
  if c.p 3 % 2 = 1 then c.via.isSome
  else match s.gaddr (BitVec.ofNat 64 (c.p 0)) with
    | some g => !g.own
    | none => false

/-- The READs of a COPY's source leave. -/
def State.copyAsk (s : State) (q : QueueId) (c : HCmd) : State :=
  (copyPieces (c.p 0) (c.p 1) (c.p 2) (c.p 2) 0).foldl (fun (s : State) (x : Nat × Nat) =>
    match c.p 3 % 2, c.via with
    | 1, some m => s.hostAsk q c.seq m (c.p 0 + x.1) x.2 none
    | _, _ => match s.gaddr (BitVec.ofNat 64 (c.p 0 + x.1)) with
      | some g => s.cmdAsk q c.seq (s.cmdPkt c 0x10 (BitVec.ofNat 64 x.2) []) g
      | none => s) (s.setCmd q { c with asked := true })

/-- One piece of a COPY read: from here, from host memory, or from what READ replies have brought. -/
def State.copyRead (s : State) (c : HCmd) (remote : List Byte) (off n : Nat) : CmdRes :=
  let a := c.p 0 + off
  if s.copyAway c then .ok s (slice remote off n)
  else if c.p 3 % 2 = 1 then .ok s (s.hostRead c.fn a n)
  else match s.gaddr (BitVec.ofNat 64 a) with
    | none => .fail s 3
    | some g => s.cmdAccess c (s.cmdPkt c 0x10 (BitVec.ofNat 64 n) []) g.loc

/-- One piece of a COPY or FILL written: here, in host memory, or by a WRITE whose reply the command awaits. -/
def State.copyWrite (s : State) (q : QueueId) (c : HCmd) (host : Bool) (a : Nat) (bs : List Byte) : CmdRes :=
  if host then
    match c.via with
    | some m => .ok (s.hostAsk q c.seq m a bs.length (some bs)) []
    | none => .ok (s.hostWrite c.fn a bs) []
  else match s.gaddr (BitVec.ofNat 64 a) with
    | none => .fail s 3
    | some g =>
      let k := s.cmdPkt c 0x11 0 bs
      if g.own then s.cmdAccess c k g.loc else .ok (s.cmdAsk q c.seq k g) []

/-- A COPY from byte `off` on, in ascending pieces. -/
def State.copyFrom (s : State) (q : QueueId) (c : HCmd) (remote : List Byte) : Nat → Nat → CopyEnd
  | 0, _ => .done s
  | k + 1, off =>
    let left := c.p 2 - off
    if left = 0 then .done s
    else
      let n := pieceLen (c.p 0 + off) (c.p 1 + off) left
      match s.copyRead c remote off n with
      | .fail s st => .stop s off st
      | .wait s => .wait s off
      | .ok s bs =>
        match s.copyWrite q c (decide (c.p 3 / 2 % 2 = 1)) (c.p 1 + off) bs with
        | .fail s st => .stop s off st
        | .wait s => .wait s off
        | .ok s _ => s.copyFrom q c remote k (off + n)

/-- The end of a transfer: OK or how it failed, each once its WRITEs are answered, or its progress kept. -/
def State.endCopy (q : QueueId) (c : HCmd) (st : BitVec 8) (len : Nat) : CopyEnd → State
  | .done s =>
    let e := if st = 0 then (0, len) else accCode st.toNat len
    s.endCmd q c.seq e.1 e.2
  | .stop s n e => s.endCmd q c.seq (accCode e n).1 (accCode e n).2
  | .wait s n => match s.cmd q c.seq with
    | some d => s.setCmd q { d with step := n }
    | none => s

/-- COPY (R413, Table 12-8). READs of a source in another package leave first. `remote` are the bytes that their replies
brought, `st` the worst status of replies. While replies are awaited it does nothing. -/
def execCopy (q : QueueId) (seq : W32) (remote : List Byte) (st : BitVec 8) (s : State) : Out :=
  match s.running q seq 2 with
  | none => .next s
  | some c =>
    if c.p 2 = 0 ∨ c.p 2 > 2 ^ 40 then .next (s.finish q seq 0x101 0)
    else if c.out ≠ 0 then .next s
    else if c.p 3 % 4 ≠ 0 ∧ s.hostGone c = true then .next (s.finish q seq 0x109 c.step)
    else if s.copyAway c && !c.asked then .next (s.copyAsk q c)
    else .next (State.endCopy q c st (c.p 2) (s.copyFrom q c remote (c.p 2) c.step))

/-- A FILL from byte `off` on. -/
def State.fillFrom (s : State) (q : QueueId) (c : HCmd) : Nat → Nat → CopyEnd
  | 0, _ => .done s
  | k + 1, off =>
    let left := c.p 1 - off
    if left = 0 then .done s
    else
      let n := pieceLen 0 (c.p 0 + off) left
      match s.copyWrite q c false (c.p 0 + off) ((List.range (n / 8)).flatMap (fun _ => toLE 8 (c.p 2))) with
      | .fail s st => .stop s off st
      | .wait s => .wait s off
      | .ok s _ => s.fillFrom q c k (off + n)

/-- FILL (R413, Table 12-8). -/
def execFill (q : QueueId) (seq : W32) (st : BitVec 8) (s : State) : Out :=
  match s.running q seq 3 with
  | none => .next s
  | some c =>
    if c.p 0 % 8 ≠ 0 ∨ c.p 1 % 8 ≠ 0 then .next (s.finish q seq 0x101 0)
    else if c.out ≠ 0 then .next s
    else .next (State.endCopy q c st (c.p 1) (s.fillFrom q c (c.p 1) c.step))

/-! ### FENCE -/

/-- The commands that a FENCE waits for (Table 12-8): the earlier ones of its queue, or every other command
of the queues of its context or function. -/
def State.fenceSet (s : State) (q : QueueId) (c : HCmd) : List (Nat × W32) :=
  if c.p 0 % 2 = 0 then
    ((s.queue q.val).cmds.takeWhile (fun d => d.seq ≠ c.seq)).map (fun d => (q.val, d.seq))
  else
    (s.allCmds.filter (fun e =>
      !(decide (e.1 = q) && decide (e.2.seq = c.seq)) &&
      (decide (e.1 ≠ q) || (e.2.startNo < c.startNo && e.2.started)) &&
      (if c.admin then decide (e.2.fn = c.fn) else !e.2.admin && decide (e.2.ctx = c.ctx)))).map
      (fun e => (e.1.val, e.2.seq))

/-- Whether a command is still outstanding. -/
def State.outstanding (s : State) (e : Nat × W32) : Bool := (s.cmd (Fin.ofNat 4096 e.1) e.2).isSome

/-- FENCE (R413): it completes once the commands before it have. -/
def execFence (q : QueueId) (seq : W32) (s : State) : Out :=
  match s.running q seq 4 with
  | none => .next s
  | some c =>
    let ws := if c.step = 0 then s.fenceSet q c else c.waitsOn
    let left := ws.filter (fun e => s.outstanding e)
    if left.isEmpty then .next (s.finish q seq 0 0)
    else .next (s.setCmd q { c with step := 1, waitsOn := left })

/-! ### SIGNAL and WAIT -/

/-- A steward's request that awaits its reply, under a tag of its own. -/
def State.askRemote (s : State) (q : QueueId) (c : HCmd) (pkt : Packet) (g : GAddr) : State :=
  (s.setCmd q { c with step := 1 }).cmdAsk q c.seq pkt g

/-- SIGNAL (R413, R414): an add at the cell, which gives the value after it. -/
def execSignal (q : QueueId) (seq : W32) (s : State) : Out :=
  match s.running q seq 5 with
  | none => .next s
  | some c =>
    if c.step ≠ 0 then .next s
    else if c.p 0 % 8 ≠ 0 then .next (s.finish q seq 0x101 0)
    else match s.gaddr (BitVec.ofNat 64 (c.p 0)) with
      | none => .next (s.accFail q seq 3 0)
      | some g =>
        let k := s.cmdPkt c 0x08 (BitVec.ofNat 64 (c.p 1)) []
        if !g.own then .next (s.askRemote q c k g)
        else match s.cmdAccess c k g.loc with
          | .ok s bs => .next (s.finish q seq 0 (ofLE bs))
          | .fail s st => .next (s.accFail q seq st 0)
          | .wait s => .next s

/-- WAIT (R413, R414): the wait is registered at the cell's home, with its edge; it ends at once where the
threshold is reached. -/
def execWait (q : QueueId) (seq : W32) (s : State) : Out :=
  match s.running q seq 6 with
  | none => .next s
  | some c =>
    if c.step ≠ 0 then .next s
    else if c.p 0 % 8 ≠ 0 then .next (s.finish q seq 0x101 0)
    else match s.gaddr (BitVec.ofNat 64 (c.p 0)) with
      | none => .next (s.accFail q seq 3 0)
      | some g =>
        let k := s.cmdPkt c 0x09 (BitVec.ofNat 64 (c.p 1)) []
        if !g.own then .next ((s.askRemote q c k g).postEdge (s.cmdEdge q c))
        else match s.cmdHome c g.loc true with
          | .error (.fail s st) => .next (s.accFail q seq st 0)
          | .error (.wait s) | .error (.ok s _) => .next s
          | .ok (s, h, room) =>
            match s.homeCheck k h room with
            | 0 => match s.homeRead h 8 2 c.ctx with
              | (s, none) => .next (s.accFail q seq 4 0)
              | (s, some _) =>
                let s := match h with
                  | .bank i off => (rowsOf off 8).foldl (fun (t : State) r => t.unzero i r) s
                  | .store _ _ | .grn _ => s
                let s := (s.setCmd q { c with step := 1 }).postEdge (s.cmdEdge q c)
                .next (s.registerWait { addr := h.addr, threshold := BitVec.ofNat 64 (c.p 1), who := .queue q seq })
            | st => .next (s.accFail q seq st 0)

/-- The value of the cell of a WAIT that this package holds; none where its bytes lie in a shadow row, which no one but
the stream sequencer observes (R214). -/
def State.waitValue (s : State) (q : QueueId) (seq : W32) : Option Nat :=
  match s.mem.waits.find? (fun w => w.who = CellWho.queue q seq) with
  | some w =>
    if bankBase 0 ≤ w.addr ∧ w.addr < bankBase 98304 ∧ s.shadowHit ((w.addr - bankBase 0) / 65536) (w.addr % 65536) 8 = true
      then none
    else some (s.word w.addr).toNat
  | none => some 0

/-- A steward's requests under a tag are no longer awaited. -/
def State.dropTag (s : State) (tag : Nat) : State :=
  { s with host := { s.host with stwReqs := s.host.stwReqs.filter (fun r => r.1 ≠ tag) } }

/-- WAIT_TIMEOUT (R413): the limit of P2 expires; the result is the cell value seen, an open value for a
cell of another package. A cell that has become a shadow row fails the command as any access to it would (R52, R214). -/
def execWaitTimeout (q : QueueId) (seq : W32) (s : State) : Out :=
  match s.running q seq 6 with
  | none => .next s
  | some c =>
    if c.p 2 % 2 ^ 32 = 0 ∨ c.step = 0 then .next s
    else match s.host.stwReqs.find? (fun r => decide (r.2.1 = q) && decide (r.2.2 = seq)) with
      | some r =>
        let (v, s) := s.draw
        .next ((s.dropTag r.1).finish q seq 0x10C v.toNat)
      | none => match s.waitValue q seq with
        | some v => .next (s.finish q seq 0x10C v)
        | none => .next (s.accFail q seq 6 0)

/-- A request that a steward has made for a command under a tag is over, with reply status `st`: the command goes on, or
ends once no other reply is awaited. The reply to a SIGNAL or WAIT carries no cell value (Table 9-8), so its result is an
open value. -/
def State.tagDone (s : State) (tag : Nat) (q : QueueId) (seq : W32) (st : Nat) : State :=
  match s.cmd q seq with
  | none => s.dropTag tag
  | some c =>
    let c := { c with out := c.out - 1 }
    let c := if st = 0 ∨ c.ending.any (fun e => e.1 ≠ 0) then c else { c with ending := some (accCode st c.step) }
    let s := s.setCmd q c
    if c.out ≠ 0 then s
    else
      let s := s.dropTag tag
      match c.ending with
      | some e => s.finish q seq e.1 e.2
      | none =>
        if c.opcode = 5 ∨ c.opcode = 6 then
          let (v, s) := s.draw
          s.finish q seq 0 v.toNat
        else s

/-- The reply to a steward's request at another package, dropped and counted if the context's generation has
moved (R335, R483). A host access that the master has made for this member carries the generation of PKG. -/
def State.stewReply (s : State) (pkt : Packet) : State :=
  match s.host.stwReqs.find? (fun r => r.1 = pkt.rtag.toNat) with
  | none => if s.ctxStale pkt then s.chaffCtx 0 else s
  | some (tag, q, seq) =>
    if ecFn pkt.src = 0x7F then (if pkt.gen = (s.dom 0).gen then s.tagDone tag q seq pkt.status.toNat else s.unitReply 0 pkt)
    else if s.ctxStale pkt then s.chaffCtx 0
    else s.tagDone tag q seq pkt.status.toNat

/-! ### LAUNCH_GRAPH -/

/-- LAUNCH_GRAPH (R211, R410, R413, R615): the steward reads the graph descriptor (`g`, read with reply
status `status`) and posts its steps to the stream sequencers. -/
def execLaunchGraph (q : QueueId) (seq : W32) (g : GraphDesc) (status : BitVec 8) (s : State) : Out :=
  match s.running q seq 1 with
  | none => .next s
  | some c =>
    if c.step ≠ 0 then .next s
    else if c.budget > 20000 ∨ c.p 0 % 64 ≠ 0 then .next (s.finish q seq 0x101 0)
    else if status = 1 then .next (s.finish q seq 0x10D 0)
    else if status ≠ 0 then .next (s.accFail q seq status.toNat 0)
    else if g.isEmpty then .next (s.finish q seq 0 0)
    else
      let l : Launch := { queue := q, seq := seq, ctx := c.ctx, gen := c.gen, graph := g,
                          first := BitVec.ofNat 32 (c.p 2), arg := BitVec.ofNat 64 (c.p 1) }
      let s := s.setCmd q { c with step := 1 }
      let t := leadTiller g
      let s := s.setSeqr t { s.seqr t with launches := (s.seqr t).launches ++ [l] }
      .next (s.markNext l)

end Sys2Proof.Machine
end

