-- ==== Sys2Proof/Machine/Bridges.lean ====
section
/-! DEFINITION. Mesh links and node bridges: replay, the receiver's decision, switch-over, planes,
lanes and spares (R251 to R280). -/

namespace Sys2Proof.Machine

/-! ### Mesh links -/

/-- Whether a router has a station at its X port (Table 7-2). -/
def hasStation (p : Nat) : Bool :=
  let t := p / 192
  let c := p % 16
  let r := p % 192 / 16
  (bridgeAt p 5).isSome ||
  (decide (1 ≤ c) && decide (c ≤ 14) && (decide (r = 3) || decide (r = 6) || decide (r = 9))) ||
  (decide (r = if t < 4 then 0 else 11) && (decide (c = 7) || decide (c % 4 = 1) || decide (c % 4 = 2)))

/-- Whether a router port is disabled, because it leads off the die, or unused, because no station is there (R251): N, E,
S, W, L, X are 0 to 5. -/
def meshOff (p port : Nat) : Bool :=
  let i := p % 192
  (decide (port = 0) && decide (i / 16 = 0)) || (decide (port = 1) && decide (i % 16 = 15)) ||
  (decide (port = 2) && decide (i / 16 = 11)) || (decide (port = 3) && decide (i % 16 = 0)) ||
  (decide (port = 5) && !hasStation p)

/-- The mesh link into a router port. -/
def State.link (s : State) (p port : Nat) : MeshLink := Tab.get {} s.fab.mesh (p * 6 + port)

/-- Write the mesh link into a router port. -/
def State.setLink (s : State) (p port : Nat) (v : MeshLink) : State :=
  { s with fab := { s.fab with mesh := Tab.set {} s.fab.mesh (p * 6 + port) v } }

/-- Flits of some packets that are on a virtual channel. -/
def flitsOn (vc : BitVec 3) (ps : List Packet) : Nat :=
  (ps.filter (fun p => decide (p.vc = vc))).foldl (fun n p => n + flitsOf p) 0

/-- Flits of a channel that a port's input buffer holds, or that its link is to bring (R253). -/
def State.bufFlits (s : State) (p port : Nat) (vc : BitVec 3) : Nat :=
  flitsOn vc ((s.fab.parked.filter (fun q => decide (q.at_ = p) && decide (q.port = port))).map (·.pkt)) +
  flitsOn vc (((s.link p port).wire.filter (fun q => q.2 = 0)).map (·.1))

/-- Whether a port's buffer of 33 flits for a packet's channel has room for the whole packet (R253). -/
def State.room (s : State) (p port : Nat) (k : Packet) : Bool :=
  decide (s.bufFlits p port k.vc + flitsOf k ≤ 33)

/-- A flit that passed its check comes off the wire: with its head a packet enters the input buffer (R253). -/
def State.takeFlit (s : State) (p port : Nat) (l : MeshLink) : State :=
  match l.wire with
  | [] => s.setLink p port l
  | (k, n) :: rest =>
    let s := s.setLink p port { l with wire := if n + 1 < flitsOf k then (k, n + 1) :: rest else rest }
    if n = 0 && s.hasPkt k then s.park p port k else s

/-- A flit fails its check (R254): it and those after it are discarded until its replay; a first failure and 8 failed
replays declare the link down, and what it carried is lost (R268). -/
def State.failFlit (s : State) (p port : Nat) (l : MeshLink) : State :=
  if l.fails ≥ 8 then
    (l.wire.map (·.1)).foldl State.takePkt
      (s.setLink p port { l with fails := l.fails + 1, down := true, discard := true, wire := [] })
  else s.setLink p port { l with fails := l.fails + 1, discard := true }

/-- MESH_FLIT_RECEIVE (R252 to R254): the next flit of a link arrives. A flit that passes its check is the one that the sender sent. -/
def execMeshFlitReceive (p : PanId) (port : Fin 6) (rx : MeshArrival) (s : State) : Out :=
  let l := s.link p.val port.val
  if l.down || meshOff p.val port.val || (l.discard && !rx.replay) then .next s
  else if flitOk rx.flit then .next (s.takeFlit p.val port.val { l with fails := 0, discard := false })
  else .next (s.failFlit p.val port.val l)

/-! ### Bridge directions -/

/-- A plane of a direction. -/
def BDir.plane (d : BDir) (pl : Plane) : BPlane := if pl then d.b else d.a

/-- Write a plane of a direction. -/
def BDir.setPlane (d : BDir) (pl : Plane) (v : BPlane) : BDir :=
  if pl then { d with b := v } else { d with a := v }

/-- DETAIL of a bridge event (Table 15-3). -/
def bridgeDetail (b : Nat) (pl : Plane) (lane : Nat) : Nat :=
  lane * 65536 + b / 2 * 256 + b % 2 * 16 + (if pl then 8 else 0)

/-- A bridge event is logged (R280). A bridge has no EC, so the entry's SRC is an open value
(assumption 9). -/
def State.bridgeEvent (s : State) (code cls b : Nat) (pl : Plane) (lane : Nat) : State :=
  let (v, s) := s.draw
  s.log code cls none (v.setWidth 48) 0 (bridgeDetail b pl lane)

/-- One second of the reference. -/
def sec1 : Nat := 1000000000

/-- One millisecond of the reference. -/
def ms1 : Nat := 1000000

/-- Times of a list that lie less than `n` ns back. -/
def State.recent (s : State) (n : Nat) (ts : List W64) : List W64 := ts.filter (fun t => !s.since t n)

/-- Whether a plane is HEALTHY (R279). -/
def State.healthy (s : State) (x : BPlane) : Bool :=
  (decide (x.state = .active) || decide (x.state = .standby)) &&
  (match x.lastErr with
   | some t => s.since t ms1
   | none => true) && x.unserved.isEmpty

/-- Spare `i` of a plane. -/
def BPlane.spare (x : BPlane) (i : Nat) : Spare := Tab.get {} x.spares i

/-- Write a spare of a plane. -/
def BPlane.setSpare (x : BPlane) (i : Nat) (v : Spare) : BPlane :=
  { x with spares := Tab.set {} x.spares i v }

/-- Whether a spare stands in for a lane. -/
def BPlane.spared (x : BPlane) (lane : Nat) : Bool :=
  x.spares.any (fun e => e.2.used && decide (e.2.lane.toNat = lane))

/-- The lowest spare that is neither in use nor about to be, nor among `bad`. -/
def BPlane.freeSpare (x : BPlane) (bad : List Nat) : Option Nat :=
  (List.range 8).find? (fun i =>
    !(x.spare i).used && !x.sparing.any (fun q => q.2 = i) && !bad.contains (288 + i))

/-- Lane operations of a plane abandoned, their clocks back to zero (R278). -/
def State.dropLaneOps (s : State) (x : BPlane) : BPlane :=
  let busy := x.sparing.map (·.1)
  { x with
    sparing := []
    errors := x.errors.filter (fun e => !busy.contains e.1)
    spares := x.spares.map (fun e =>
      if e.2.returning then (e.1, { e.2 with returning := false, since := s.refcnt }) else e) }

/-- Lane operations of both planes abandoned. -/
def State.dropDirOps (s : State) (d : BDir) : BDir :=
  { d with a := s.dropLaneOps d.a, b := s.dropLaneOps d.b }

/-- The lane that a list of attributed lanes ends with, 0x1FF for none. -/
def lastLaneOf (lanes : List Nat) : Nat := lanes.getLast?.getD 0x1FF

/-- A plane's copy fails its check (R266, Table 7-13). -/
def State.crcFail (s : State) (x : BPlane) : BPlane :=
  { x with crc := satAdd x.crc 1, lastErr := some s.refcnt }

/-- A plane faults for a CRC failure (R266, R271): the lanes that differ are attributed; the 16th fault
within 1 s holds it. -/
def State.planeFault (s : State) (b : Nat) (pl : Plane) (lanes : List Nat) : State :=
  let d := s.dropDirOps (s.dir b)
  let x := s.crcFail (d.plane pl)
  let faults := s.recent sec1 x.faults ++ [s.refcnt]
  let hold : Bool := decide (faults.length ≥ 16)
  let last : BitVec 9 := if lanes.isEmpty then x.lastLane else BitVec.ofNat 9 (lastLaneOf lanes)
  let x := { x with
    state := if hold then .held else .faulted
    cause := 1
    lastLane := last
    faults := faults
    attributed := lanes
    errors := x.errors ++ lanes.map (fun l => (l, s.refcnt)) }
  let s := s.setDir b (d.setPlane pl x)
  let s := s.bridgeEvent 0x0101 0 b pl (lastLaneOf lanes)
  if hold then s.bridgeEvent 0x0103 1 b pl 0x1FF else s

/-- The other direction of a bridge, whose transmitter stands at this direction's receiver. -/
def oppDir (b : Nat) : Nat := if b % 2 = 0 then b + 1 else b - 1

/-- A LINK_CTL flit that the receiver of direction `b` has its own end's transmitter send (R263, R264): a newer ACK takes
the place of one that still waits. -/
def State.sendCtl (s : State) (b : Nat) (code : BitVec 4) (seq : BitVec 12) : State :=
  let x := s.dir (oppDir b)
  let wait := if code = 1 then x.ctl.filter (fun c => c.1 ≠ 1) else x.ctl
  s.setDir (oppDir b) { x with ctl := wait ++ [(code, seq)] }

/-- A switch-over begins (R270, Table 7-6a): the output is held and DRIVE_SEL released; `slot` is the flit that the former
active plane failed, with which the output resumes. -/
def State.switchOver (s : State) (b : Nat) (former : PlaneState) (slot : List (Frame × Frame)) : State :=
  let d := s.dropDirOps (s.dir b)
  let old := d.drive
  let d := d.setPlane old { d.plane old with state := former }
  let d := d.setPlane (!old) { d.plane (!old) with state := .active }
  let s := s.setDir b { d with
    drive := !old, hold := true, released := true, elastic := slot ++ d.elastic, switches := satAdd d.switches 1 }
  s.bridgeEvent 0x0102 0 b old 0x1FF

/-- The flits of a direction that its receiver has not taken, and the packets that they are of. -/
def BDir.undone (d : BDir) : List BFlit :=
  d.replay.filter (fun f => decide ((f.seq - d.expected).toNat < 2048)) ++ d.txq.flatMap (·.2)

/-- What a direction that goes down loses (R268): the flits it holds and what has come of their packets. The room kept for
them is credit again, and credit that they were to return is owed again. -/
def State.dropFlits (s : State) (b : Nat) : State :=
  let d := s.dir b
  let lost := (d.undone.map (fun f => (f.port, f.pkt))).eraseDups
  let o := s.dir (oppDir b)
  let s := s.setDir (oppDir b) { o with
    owed := d.undone.foldl (fun t f => Tab.upd 0 t (f.cport * 8 + f.cvc.toNat) (· + f.ccnt)) o.owed }
  let s := s.setDir b { d with
    replay := [], out := 0, txq := [], asm := [], elastic := [], expected := d.txNext
    credit := lost.foldl (fun t q => Tab.upd 33 t (q.1 * 8 + q.2.vc.toNat) (· + flitsOf q.2)) d.credit }
  (lost.map (·.2)).foldl State.takePkt s

/-- A direction is declared down (R267, R268): both planes are held, its flits are lost and BRIDGE_DOWN is raised. The event
names one plane, and the spec does not say which. -/
def State.bridgeDown (s : State) (b : Nat) (cause : BitVec 2) : State :=
  let s := s.dropFlits b
  let d := s.dropDirOps (s.dir b)
  let hold := fun (x : BPlane) =>
    { x with state := .held, cause := cause, faults := s.recent sec1 x.faults ++ [s.refcnt] }
  let s := s.setDir b { d with a := hold d.a, b := hold d.b, down := true, failed := true, ready := false,
                               nakSeq := none, nakRun := 0 }
  let (v, s) := s.draw
  s.bridgeEvent 0x0106 1 b (v.getLsbD 0) 0x1FF

/-! ### The transmitter (R263, R264) -/

/-- Flits of `n` of a packet for a sub-port, without their SEQ. -/
def bridgeFlits (k : Nat) (p : Packet) : List BFlit :=
  (List.range (flitsOf p)).map (fun i => { port := k, typ := flitType (flitsOf p) i, ix := i, pkt := p })

/-- Credit of a sub-port and channel of a direction (R253, R262). -/
def BDir.creditFor (d : BDir) (k : Nat) (vc : BitVec 3) : Nat := Tab.get 33 d.credit (k * 8 + vc.toNat)

/-- A packet enters a bridge by a sub-port (R256, R264): the far end's room for it is taken. -/
def State.bridgeSend (s : State) (b k : Nat) (p : Packet) : State :=
  let d := s.dir b
  s.setDir b { d with
    txq := Tab.upd [] d.txq k (· ++ bridgeFlits k p)
    credit := Tab.upd 33 d.credit (k * 8 + p.vc.toNat) (· - flitsOf p) }

/-- Credit that the next flit of a direction returns (Table 7-4): what the receiver at its end owes, none while that
receiver's output is held (R270). Sub-port, channel, flits. -/
def BDir.returns (o : BDir) : Nat × BitVec 3 × Nat :=
  if o.hold then (0, 0, 0)
  else match o.owed with
    | (k, n) :: _ => (k / 8, BitVec.ofNat 3 k, Nat.min n 7)
    | [] => (0, 0, 0)

/-- Credit no longer owed. -/
def BDir.paid (o : BDir) (c : Nat × BitVec 3 × Nat) : BDir :=
  { o with owed := Tab.upd 0 o.owed (c.1 * 8 + c.2.1.toNat) (· - c.2.2) }

/-- The sequenced flit of the next slot (R263, R264): a replay, else a new one of the sub-port whose turn it is, which takes
the next SEQ and returns the credit `c`. The flag says that it is new. -/
def BDir.pick (d : BDir) (c : Nat × BitVec 3 × Nat) : BDir × Option (BFlit × Bool) :=
  match d.replay[d.out]? with
  | some f => ({ d with out := d.out + 1 }, some (f, false))
  | none =>
    if d.replay.length ≥ 1024 then (d, none)
    else match firstFrom 14 d.rr (d.txq.map (·.1)) with
      | none => (d, none)
      | some k =>
        match Tab.get [] d.txq k with
        | [] => (d, none)
        | f :: t =>
          let f := { f with seq := d.txNext, cport := c.1, cvc := c.2.1, ccnt := c.2.2 }
          ({ d with
            txq := Tab.set [] d.txq k t, rr := (k + 1) % 14, replay := d.replay ++ [f], out := d.out + 1
            txNext := d.txNext + 1 }, some (f, true))

/-- A sequenced flit as it is driven (R262, R263). -/
def BFlit.frame (f : BFlit) : Frame :=
  mkFrame (flitData (pktBytes f.pkt) f.ix) (bridgeLow f.seq f.port f.pkt.vc f.typ f.cport f.cvc f.ccnt)

/-- Data of the IDLE flit after `n` others (R263, R274): each lane carries on with its own pattern. -/
def idleData (b n : Nat) : BitVec 512 :=
  (List.range 256).foldl (fun x l =>
    let g := prbsPair (prbsAt (Config.prbsSeed b false l) (2 * n))
    putBit (putBit x l (g.getLsbD 0)) (256 + l) (g.getLsbD 1)) 0

/-- What the transmitter drives in the next slot (R263, R264, R274): LINK_CTL flits and replays go ahead of new flits, and a
slot with nothing to send carries an IDLE flit. -/
def State.bridgeDrive (s : State) (b : Nat) : State × Frame :=
  let d := s.dir b
  let o := s.dir (oppDir b)
  let c := o.returns
  let low := fun (typ : BitVec 3) => bridgeLow d.txNext 0 0 typ c.1 c.2.1 c.2.2
  match d.ctl with
  | (code, seq) :: rest => (s.setDir b { d with ctl := rest }, mkFrame (bridgeCtl code seq) (low 5))
  | [] =>
    match d.pick c with
    | (d', some (f, new)) =>
      let s := if new then s.setDir (oppDir b) (o.paid c) else s
      (s.setDir b d', f.frame)
    | (_, none) => (s, mkFrame (idleData b d.idles) (low 0))

/-- An ACK of SEQ (R263, R264): flits up to it leave the replay buffer; attempts at a flit that it covers are over (R267). -/
def State.bridgeAcked (s : State) (b : Nat) (seq : BitVec 12) : State :=
  let d := s.dir b
  let left := d.replay.filter (fun f => !decide ((seq - f.seq).toNat < 2048))
  let spent := match d.nakSeq with
    | some n => decide ((seq - n).toNat < 2048)
    | none => true
  s.setDir b { d with
    replay := left, out := d.out - (d.replay.length - left.length), txAcked := seq
    nakSeq := if spent then none else d.nakSeq, nakRun := if spent then 0 else d.nakRun }

/-- A NAK of SEQ (R267): the transmitter resends from it; 8 consecutive attempts at one SEQ that end in NAK declare the
direction down. -/
def State.bridgeNaked (s : State) (b : Nat) (seq : BitVec 12) : State :=
  let d := s.dir b
  if d.down then s
  else
    let run := if d.nakSeq = some seq then d.nakRun + 1 else 1
    if run ≥ 8 then s.bridgeDown b 1
    else s.setDir b { d with
      nakSeq := some seq, nakRun := run, out := (d.replay.takeWhile (fun f => decide (f.seq ≠ seq))).length }

/-- PLANE_SWITCHED reaches the transmitter (R263, Table 7-6a). -/
def State.bridgeSwitched (s : State) (b : Nat) : State :=
  s.setDir b { s.dir b with txPrbs := some (!(s.dir b).drive) }

/-- BRIDGE_ACK (R263, R264). -/
def execBridgeAck (b : DirId) (seq : BitVec 12) (s : State) : Out := .next (s.bridgeAcked b.val seq)

/-- BRIDGE_NAK (R267). -/
def execBridgeNak (b : DirId) (seq : BitVec 12) (s : State) : Out := .next (s.bridgeNaked b.val seq)

/-- PLANE_SWITCHED (R263, Table 7-6a): the transmitter drives the former plane with the PRBS pattern only; one that is
STANDBY is driven with every flit (R265). -/
def execPlaneSwitched (b : DirId) (s : State) : Out := .next (s.bridgeSwitched b.val)

/-! ### The receiver (R265 to R267) -/

/-- Credit that comes back to the opposite direction (Table 7-4). -/
def State.creditBack (s : State) (b : Nat) (low : W32) : State :=
  let o := s.dir (oppDir b)
  s.setDir (oppDir b) { o with credit := Tab.upd 33 o.credit (fld low 9 6 * 8 + fld low 5 3) (fun n => Nat.min 33 (n + fld low 2 0)) }

/-- A sequenced flit is delivered (R264, R266): it is acknowledged, and with its last flit a packet leaves the bridge into
the input buffer of the receiving X port. -/
def State.bridgeDeliver (s : State) (b : Nat) (f : Frame) : State :=
  let d := s.dir b
  let low := frameLow f
  let k := fld low 19 16
  let key := k * 8 + fld low 15 13
  let typ := fld low 12 10
  let so := if typ = 1 ∨ typ = 4 then [] else Tab.get [] d.asm key
  let bytes := so ++ toLE 64 (frameData f).toNat
  let last := decide (typ = 3) || decide (typ = 4)
  let s := s.setDir b { d with
    expected := d.expected + 1
    asm := Tab.set [] d.asm key (if last || decide (typ = 6) then [] else bytes)
    owed := if typ = 6 then Tab.upd 0 d.owed key (· + bytes.length / 64) else d.owed }
  let s := (s.creditBack b low).sendCtl b 1 d.expected
  if last then
    let g := d.replay.find? (fun g => g.seq = d.expected)
    let q := { pktOf bytes with via := g.bind (fun g => g.pkt.via) }
    let s := match g with
      | some g => s.swapPkt g.pkt q
      | none => s
    s.park (bridgeSink b k).1 (bridgeSink b k).2 q
  else s

/-- The receiver sends NAK of the expected SEQ (R267). -/
def State.sendNak (s : State) (b : Nat) : State :=
  let d := s.dir b
  (s.setDir b { d with naks := satAdd d.naks 1 }).sendCtl b 0 d.expected

/-- Whether a lane has returned 3 times within one hour (R277). -/
def BPlane.stuck (x : BPlane) (lane : Nat) : Bool :=
  decide ((x.returns.filter (fun r => r.1 = lane)).length ≥ 3)

/-- Errors of one lane (R275): the fourth within 1 ms starts its sparing where a spare is free. -/
def State.laneErrors (s : State) (x : BPlane) (lane n : Nat) : BPlane :=
  let errs := x.errors.filter (fun e => !s.since e.2 ms1) ++ List.replicate (Nat.min n 4) (lane, s.refcnt)
  let x := { x with errors := errs }
  let up := decide (x.state = .active) || decide (x.state = .standby)
  if up && decide ((errs.filter (fun e => e.1 = lane)).length ≥ 4) && !x.spared lane &&
      !x.sparing.any (fun q => q.1 = lane) then
    match x.freeSpare [] with
    | some i => { x with sparing := x.sparing ++ [(lane, i)] }
    | none => x
  else x

/-- A PRBS error on a lane that a spare has replaced restarts its clean period and ends its return
(R276). -/
def State.dirty (s : State) (x : BPlane) (lane : Nat) : BPlane :=
  { x with spares := x.spares.map (fun e =>
      if e.2.used && decide (e.2.lane.toNat = lane) then
        (e.1, { e.2 with returning := false, since := s.refcnt })
      else e) }

/-- `bits` PRBS errors on a lane of a plane (R274 to R276). -/
def State.prbsErrors (s : State) (b : Nat) (pl : Plane) (lane bits : Nat) : State :=
  if bits = 0 then s
  else
    let d := s.dir b
    let x := d.plane pl
    let x := { x with prbs := satAdd x.prbs bits, lastErr := some s.refcnt }
    let x := if lane < 288 then { x with lastLane := BitVec.ofNat 9 lane } else x
    let x := if x.spared lane then s.dirty x lane
      else if lane < 288 then s.laneErrors x lane bits else x
    s.setDir b (d.setPlane pl x)

/-- A copy of an unsequenced flit on a plane that is in use (R265, R274): its CRC is checked, and the data of an IDLE flit
against the receiver's own generator. -/
def State.bridgeIdleCopy (s : State) (b : Nat) (pl : Plane) (idle : Bool) (c : Frame) : State :=
  let d := s.dir b
  let st := (d.plane pl).state
  if st ≠ .active ∧ st ≠ .standby then s
  else
    let s := if frameOk c then s else s.setDir b (d.setPlane pl (s.crcFail (d.plane pl)))
    if idle then
      (bitsSet (frameData c ^^^ idleData b d.idles)).foldl (fun s i => s.prbsErrors b pl (laneOfBit i) 1) s
    else s

/-- An unsequenced flit is taken (R263 to R265): a LINK_CTL flit tells the transmitter at this end, and credit comes back. -/
def State.bridgeCtlTake (s : State) (b : Nat) (ca cb good : Frame) : State :=
  let low := frameLow good
  let idle := decide (fld low 12 10 = 0)
  let s := (s.bridgeIdleCopy b false idle ca).bridgeIdleCopy b true idle cb
  let d := s.dir b
  let s := if idle then s.setDir b { d with idles := d.idles + 1 } else s
  let o := s.dir (oppDir b)
  let s := (s.setDir (oppDir b) (o.paid (fld low 9 6, BitVec.ofNat 3 (fld low 5 3), fld low 2 0))).creditBack b low
  if fld low 12 10 = 5 then
    let seq := (frameData good).extractLsb' 4 12
    match fld (frameData good) 3 0 with
    | 0 => s.bridgeNaked (oppDir b) seq
    | 1 => s.bridgeAcked (oppDir b) seq
    | 2 => s.bridgeSwitched (oppDir b)
    | _ => s
  else s

/-- The receiver's output takes a slot (R265 to R267, Table 7-5): a sequenced flit out of order is discarded; the lanes on
which the failing copy differs from the good one are attributed. A flit whose copies all fail cannot show its TYPE and is
taken for a sequenced one (assumption 174). -/
def State.bridgeTake (s : State) (b : Nat) (ca cb : Frame) : State :=
  let d := s.dir b
  let act := d.drive
  let mine := if act then cb else ca
  let other := if act then ca else cb
  let actOk := frameOk mine
  let present := decide ((d.plane (!act)).state = .standby)
  let othOk := frameOk other
  let good := if actOk then mine else other
  let read := actOk || (present && othOk)
  if d.down || decide ((d.plane act).state ≠ .active) then s
  else if read && !seqdType ((frameLow good).extractLsb' 10 3) then s.bridgeCtlTake b ca cb good
  else if read && decide ((frameLow good).extractLsb' 20 12 ≠ d.expected) then s
  else
    let ls := lanesApart ca cb
    match actOk, present, othOk with
    | true, true, true =>
      if sameCopies ca cb then s.bridgeDeliver b mine
      else
        let mark := fun (x : BPlane) => { x with lastErr := some s.refcnt }
        (s.setDir b { d with a := mark d.a, b := mark d.b, mismatch := satAdd d.mismatch 1 }).sendNak b
    | true, true, false => (s.bridgeDeliver b mine).planeFault b (!act) ls
    | false, true, true =>
      let s := s.planeFault b act ls
      s.switchOver b ((s.dir b).plane act).state [(ca, cb)]
    | false, true, false => (s.setDir b { d with a := s.crcFail d.a, b := s.crcFail d.b }).sendNak b
    | true, false, _ => s.bridgeDeliver b mine
    | false, false, _ => (s.setDir b (d.setPlane act (s.crcFail (d.plane act)))).sendNak b

/-- A direction of a bridge. -/
def dirOf (bridge : Fin 12) (dir : Fin 2) : DirId := Fin.ofNat 24 (bridge.val * 2 + dir.val)

/-- BRIDGE_FLIT_RECEIVE (R262 to R267): one slot. The transmitter drives a flit on both planes, and each plane's copy
comes with the bits of its data and sideband errors turned over; while the output is held, the slot waits in the elastic
buffers. -/
def execBridgeFlitReceive (bridge : Fin 12) (dir : Fin 2) (dataA : BitVec 512) (sideA : W64) (dataB : BitVec 512)
    (sideB : W64) (s : State) : Out :=
  let b := dirOf bridge dir
  if (s.dir b.val).down then .next s
  else
    let r := s.bridgeDrive b.val
    let d := r.1.dir b.val
    let s := r.1.setDir b.val { d with slots := d.slots + 1 }
    let slot := (r.2 ^^^ (sideA ++ dataA), r.2 ^^^ (sideB ++ dataB))
    if d.hold then
      .next (if d.elastic.length < 1024 then
          s.setDir b.val { s.dir b.val with elastic := d.elastic ++ [slot] } else s)
    else .next (s.bridgeTake b.val slot.1 slot.2)

/-- Slots that waited in the elastic buffers are taken in order, until another switch-over holds the output (R270). -/
def State.bridgeResume (s : State) (b : Nat) : List (Frame × Frame) → State
  | [] => s
  | q :: t =>
    if (s.dir b).hold then s.setDir b { s.dir b with elastic := (s.dir b).elastic ++ q :: t }
    else (s.bridgeTake b q.1 q.2).bridgeResume b t

/-- SWITCH_OVER_COMPLETE (R270, Table 7-6a): the skew check is done, DRIVE_SEL selects the new plane, output resumes with
flit n from it, and PLANE_SWITCHED goes to the transmitter. -/
def execSwitchOverComplete (b : DirId) (s : State) : Out :=
  let d := s.dir b.val
  if d.hold ∧ d.down = false then
    let s := s.setDir b.val { d with hold := false, released := false, elastic := [] }
    .next ((s.sendCtl b.val 2 d.expected).bridgeResume b.val d.elastic)
  else .next s

/-- INTERLOCK_VIOLATION (R269): both drivers enabled, or one that DRIVE_SEL does not select; it selects none in the dead
time of a switch-over (R270). -/
def execInterlockViolation (b : DirId) (driverA driverB : Bool) (s : State) : Out :=
  let d := s.dir b.val
  if (if d.released then driverA || driverB else if d.drive then driverA else driverB) then
    .next ((s.setDir b.val { d with hold := true, interlock := true }).bridgeDown b.val 3)
  else .next s

/-! ### Retraining -/

/-- PLANE_AUTO_RETRAIN (R271): 10 µs after the fault, with AUTO_RETRAIN set. -/
def execPlaneAutoRetrain (b : DirId) (pl : Plane) (s : State) : Out :=
  let d := s.dir b.val
  if d.autoRetrain ∧ (d.plane pl).state = .faulted then
    .next (s.setDir b.val (d.setPlane pl { d.plane pl with state := .retrain }))
  else .next s

/-- A plane that fails its training is held (R271). -/
def State.retrainFail (s : State) (b : Nat) (pl : Plane) : State :=
  let d := s.dir b
  let x := { d.plane pl with state := .held, cause := 2 }
  (s.setDir b (d.setPlane pl x)).bridgeEvent 0x0103 1 b pl 0x1FF

/-- A lane gets the lowest spare that it may have; a failing lane without one is unserved. -/
def State.spareLane (s : State) (bad : List Nat) (x : BPlane) (lane : Nat) : BPlane :=
  if x.spared lane then x
  else match x.freeSpare bad with
    | some i => x.setSpare i { used := true, lane := BitVec.ofNat 9 lane, since := s.refcnt }
    | none => if bad.contains lane then { x with unserved := x.unserved ++ [lane] } else x

/-- Training completes (R271, R272): failing lanes and the lanes attributed in the last fault are spared,
spares that fail are given up; the plane becomes STANDBY, or takes DRIVE_SEL where no plane is
active. -/
def State.retrainDone (s : State) (b : Nat) (pl : Plane) (bad : List Nat) : State :=
  let d := s.dir b
  let x := d.plane pl
  let lost := (x.spares.filter (fun e => e.2.used && bad.contains (288 + e.1))).map (fun e => e.2.lane.toNat)
  let x := { x with
    spares := x.spares.filter (fun e => !bad.contains (288 + e.1)), unserved := [], sparing := [] }
  let want := (bad.filter (fun l => decide (l < 288))) ++ lost ++ x.attributed
  let x := want.foldl (s.spareLane bad) x
  let other := d.plane (!pl)
  let alone : Bool := decide (other.state ≠ .active)
  let x := { x with state := if alone then .active else .standby, attributed := [], errors := [] }
  let d := d.setPlane pl x
  let d := if alone then { d with drive := pl, hold := false, released := false } else d
  let both : Bool := decide (other.state = .active) || decide (other.state = .standby)
  let d := { d with
    txPrbs := if d.txPrbs = some pl then none else d.txPrbs
    down := d.failed
    ready := d.failed && both }
  s.setDir b d

/-- PLANE_RETRAIN_DONE (R271): training and the PRBS test on all 296 lanes complete. -/
def execPlaneRetrainDone (b : DirId) (pl : Plane) (failing : List (Fin 296)) (s : State) : Out :=
  if ((s.dir b.val).plane pl).state ≠ .retrain then .next s
  else if failing.length > 8 then .next (s.retrainFail b.val pl)
  else .next (s.retrainDone b.val pl (failing.map (·.val)))

/-- PLANE_RETRAIN_FAIL (R271): more than 8 lanes fail, or 1 ms passes. -/
def execPlaneRetrainFail (b : DirId) (pl : Plane) (s : State) : Out :=
  if ((s.dir b.val).plane pl).state ≠ .retrain then .next s else .next (s.retrainFail b.val pl)

/-- A steward retrain of a plane that is FAULTED and held; ignored otherwise (R271, Table 7-11). -/
def State.stewardRetrain (s : State) (b : Nat) (pl : Plane) : State :=
  let d := s.dir b
  if (d.plane pl).state = .held then s.setDir b (d.setPlane pl { d.plane pl with state := .retrain })
  else s

/-- NBR_RETRAIN_A (R271, Table 7-11). -/
def execNbrRetrainA (b : DirId) (s : State) : Out := .next (s.stewardRetrain b.val false)

/-- NBR_RETRAIN_B (R271, Table 7-11). -/
def execNbrRetrainB (b : DirId) (s : State) : Out := .next (s.stewardRetrain b.val true)

/-- NBR_FORCE (R273): to the standby plane where it is HEALTHY, the other plane is ACTIVE and no
switch-over is in progress; refused otherwise. -/
def State.force (s : State) (b : Nat) : State :=
  let d := s.dir b
  let upto := d.plane (!d.drive)
  if (d.plane d.drive).state = .active ∧ upto.state = .standby ∧ s.healthy upto = true ∧ d.hold = false then
    s.switchOver b .standby []
  else s.setDir b { d with forceRefused := true }

/-- NBR_FORCE (R273). -/
def execNbrForce (b : DirId) (s : State) : Out := .next (s.force b.val)

/-! ### Lanes -/

/-- The two bits that a lane should carry in this slot (R274): an IDLE flit's pattern, or, on a replaced lane and on a
spare, the pattern that never stops. -/
def BDir.pattern (d : BDir) (b : Nat) (pl : Plane) (lane : Nat) : BitVec 2 :=
  if lane < 288 ∧ (d.plane pl).spared lane = false then prbsPair (prbsAt (Config.prbsSeed b false lane) (2 * d.idles))
  else prbsPair (prbsAt (Config.prbsSeed b pl lane) (2 * d.slots))

/-- BRIDGE_PRBS_ERROR (R274 to R276): a lane's receiver compares the two bits of a slot with its own generator. -/
def execBridgePrbsError (b : DirId) (pl : Plane) (lane : Fin 296) (got : BitVec 2) (s : State) : Out :=
  .next (s.prbsErrors b.val pl lane.val (popc (got ^^^ (s.dir b.val).pattern b.val pl lane.val)))

/-- LANE_SPARED (R275): the copies agree and the receiver's selection moves to the spare. -/
def execLaneSpared (b : DirId) (pl : Plane) (lane : Fin 288) (s : State) : Out :=
  let d := s.dir b.val
  let x := d.plane pl
  match x.sparing.find? (fun q => q.1 = lane.val) with
  | none => .next s
  | some (l, i) =>
    let x := { x with
      sparing := x.sparing.filter (fun q => q.1 ≠ l), errors := x.errors.filter (fun e => e.1 ≠ l) }
    let x := x.setSpare i { used := true, lane := BitVec.ofNat 9 l, since := s.refcnt }
    .next ((s.setDir b.val (d.setPlane pl x)).bridgeEvent 0x0104 0 b.val pl l)

/-- LANE_RETURN_START (R276, R277): a spared lane clean for 1 s starts its return. -/
def execLaneReturnStart (b : DirId) (pl : Plane) (spare : Fin 8) (s : State) : Out :=
  let d := s.dir b.val
  let x := d.plane pl
  let q := x.spare spare.val
  if q.used ∧ x.stuck q.lane.toNat = false then
    .next (s.setDir b.val (d.setPlane pl (x.setSpare spare.val { q with returning := true })))
  else .next s

/-- LANE_RETURNED (R276, R277): the lane takes its place back and the spare is freed. -/
def execLaneReturned (b : DirId) (pl : Plane) (spare : Fin 8) (s : State) : Out :=
  let d := s.dir b.val
  let x := d.plane pl
  let q := x.spare spare.val
  if q.used ∧ q.returning then
    let lane := q.lane.toNat
    let hour := 3600 * sec1
    let past := x.returns.filter (fun r => decide (r.1 ≠ lane) || !s.since r.2 hour)
    let x := { x.setSpare spare.val {} with returns := past ++ [(lane, s.refcnt)] }
    .next ((s.setDir b.val (d.setPlane pl x)).bridgeEvent 0x0105 0 b.val pl lane)
  else .next s

end Sys2Proof.Machine
end

