-- ==== Sys2Proof/Machine/Straws.lean ====
section
/-! DEFINITION. Straws, sheaves, roll call and rings (R283 to R309, R339). -/

namespace Sys2Proof.Machine

/-! ### Sheaves and live sets -/

/-- Sheaf `n`. -/
def State.sheaf (s : State) (n : Nat) : Sheaf := Tab.get {} s.fab.sheaves n

/-- Write a sheaf. -/
def State.setSheaf (s : State) (n : Nat) (v : Sheaf) : State :=
  { s with fab := { s.fab with sheaves := Tab.set {} s.fab.sheaves n v } }

/-- The sheaf of a straw. -/
def State.sheafOf (s : State) (w : Nat) : Option Nat :=
  (List.range 32).find? (fun n => (s.sheaf n).members.getLsbD w)

/-- The peer that a straw hears (R289). -/
def Straw.peerId (x : Straw) : Option (BitVec 4 × W64) := x.heard.map (fun f => (f.kind, f.serial))

/-- Members of a sheaf that are UP. -/
def State.upOf (s : State) (n : Nat) : List Nat :=
  (bitsSet (s.sheaf n).members).filter (fun w => decide ((s.straw w).state = .up))

/-- The live set of a sheaf (R289). -/
def State.live (s : State) (n : Nat) : List Nat :=
  match s.upOf n with
  | [] => []
  | w :: ws => (w :: ws).filter (fun v => decide ((s.straw v).peerId = (s.straw w).peerId))

/-- The live members of a sheaf on tiller `t`: a sub-sheaf (R290). -/
def State.liveOn (s : State) (n t : Nat) : List Nat := (s.live n).filter (fun w => decide (w / 4 = t))

/-- Tillers of the live sub-sheaves, ascending (R290). -/
def State.subs (s : State) (n : Nat) : List Nat :=
  (List.range 8).filter (fun t => !(s.liveOn n t).isEmpty)

/-- Frames go out on a straw's fibre. -/
def Straw.drive (x : Straw) (fs : List Frame) : Straw := { x with driven := (fs.reverse ++ x.driven).take 8192 }

/-- A LINK_CTL frame of a straw (R286), which carries the SEQ of its next sequenced frame. -/
def Straw.driveCtl (x : Straw) (code : BitVec 4) (seq : BitVec 14) : Straw :=
  x.drive [mkFrame (strawCtl code seq) (strawLow x.txNext 0 0 5)]

/-- The frames of a packet, from SEQ `n` on (R285, Table 8-2). -/
def pktFrames (n : BitVec 14) (sseq : BitVec 10) (p : Packet) : List Frame :=
  (List.range (flitsOf p)).map (fun i =>
    mkFrame (flitData (pktBytes p) i) (strawLow (n + BitVec.ofNat 14 i) (if i = 0 then sseq else 0) p.vc (flitType (flitsOf p) i)))

/-- SEQ of a packet's first frame. -/
def SheafPkt.first (q : SheafPkt) : BitVec 14 := q.seq + 1 - BitVec.ofNat 14 (flitsOf q.pkt)

/-- The frames of the replay buffer, from SEQ `n` on (R267, R286). -/
def Straw.replayFrom (x : Straw) (n : BitVec 14) : List Frame :=
  x.unacked.flatMap (fun q =>
    (pktFrames q.first q.sseq q.pkt).filter (fun f => decide (((frameLow f).extractLsb' 18 14 - n).toNat < 8192)))

/-- Frames that the replay buffer holds (R286). -/
def Straw.held (x : Straw) : Nat := x.unacked.foldl (fun n q => n + flitsOf q.pkt) 0

/-- Credit of a virtual channel: flits that the far end's reorder buffer for this straw has room for (R291). -/
def Straw.creditFor (x : Straw) (vc : BitVec 3) : Nat := Tab.get 33 x.credit vc.toNat

/-- Whether a straw can take a whole packet: credit, and a place for its frames in the replay buffer of 8,192 (R286,
R291). -/
def Straw.ready (x : Straw) (p : Packet) : Bool :=
  decide (flitsOf p ≤ x.creditFor p.vc) && decide (x.held + flitsOf p ≤ 8192)

/-- A packet goes out on a straw: its frames take SEQ, and it stays until acknowledged (R286, R291). -/
def State.onStraw (s : State) (w : Nat) (sseq : BitVec 10) (p : Packet) : State :=
  let x := s.straw w
  let last := x.txNext + BitVec.ofNat 14 (flitsOf p - 1)
  let x := x.drive (pktFrames x.txNext sseq p)
  s.setStraw w { x with
    txNext := last + 1, unacked := x.unacked ++ [{ seq := last, sseq := sseq, pkt := p }]
    credit := Tab.upd 33 x.credit p.vc.toNat (· - flitsOf p) }

/-- The next member in round-robin order: the first from `start` on, else the lowest. -/
def nextMember (ms : List Nat) (start : Nat) : Option Nat :=
  match ms.find? (fun m => decide (start ≤ m)) with
  | some m => some m
  | none => ms.head?

/-- A packet of sheaf `n` is given to the next of some members of tiller `t` (R291, R293). -/
def State.onMember (s : State) (n t : Nat) (ms : List Nat) (sseq : BitVec 10) (p : Packet) : State :=
  let sh := s.sheaf n
  let key := t * 8 + p.vc.toNat
  match nextMember ms (Tab.get 0 sh.last key) with
  | none => s
  | some w => (s.setSheaf n { sh with last := Tab.set 0 sh.last key (w + 1) }).onStraw w sseq p

/-- A straw has left the live set of sheaf `n` (R293, R294): its packets are resent on the surviving
members, or, with no survivor, discarded with those in reordering, and the SSEQ of the sub-sheaf starts
again. Reduction packets that named the straw are never resent (R363). -/
def State.leaveLive (s : State) (n w : Nat) : State :=
  let x := s.straw w
  let s := s.setStraw w { x with unacked := [], partly := none }
  let t := w / 4
  let again := x.unacked.filter (fun q => q.pkt.via.isNone)
  match s.liveOn n t with
  | [] =>
    let sh := s.sheaf n
    let waiting := sh.reorder.foldl (fun k e => if e.1 / 8 = t then k + e.2.length else k) 0
    s.setSheaf n { sh with
      dropped := satAdd sh.dropped (x.unacked.length + waiting)
      txNext := sh.txNext.filter (fun e => decide (e.1 / 8 ≠ t))
      rxNext := sh.rxNext.filter (fun e => decide (e.1 / 8 ≠ t))
      reorder := sh.reorder.filter (fun e => decide (e.1 / 8 ≠ t)) }
  | ms =>
    let s := again.foldl (fun s q => s.onMember n t ms q.sseq q.pkt) s
    let sh := s.sheaf n
    s.setSheaf n { sh with resent := satAdd sh.resent again.length }

/-- PEER_SPLIT of a sheaf (R289), and whether every member has come to be live (R295). -/
def State.scanSheaf (s : State) (n : Nat) : State :=
  let sh := s.sheaf n
  let live := s.live n
  let whole := decide (sh.members ≠ 0) && decide (live.length = popc sh.members)
  let ended := !whole && (match sh.wholeAt with
    | some t => s.since t sec1
    | none => false)
  let at_ : Option W64 := if whole then some (sh.wholeAt.getD s.refcnt) else none
  s.setSheaf n { sh with
    split := sh.split || decide (live.length < (s.upOf n).length)
    degraded := sh.degraded && !ended
    wholeAt := at_ }

/-! ### Rings -/

/-- The ring register of an axis. -/
def State.ring (s : State) (a : Nat) : Ring := Tab.get {} s.fab.rings a

/-- Write a ring register. -/
def State.setRing (s : State) (a : Nat) (v : Ring) : State :=
  { s with fab := { s.fab with rings := Tab.set {} s.fab.rings a v } }

/-- DETAIL of a ring event (Table 15-3). -/
def ringDetail (axis coord : Nat) : Nat := axis * 256 + coord

/-- A fabric event of a unit without an EC: its SRC is an open value (assumption 9). -/
def State.fabricEvent (s : State) (code cls : Nat) (aux : Ec) (detail : Nat) : State :=
  let (v, s) := s.draw
  s.log code cls none (v.setWidth 48) aux detail

/-- STATE of a ring (R305, R306): the skip sheaf of the axis joins the neighbours of one absent
coordinate. -/
def State.ringState (s : State) (a : Nat) : BitVec 2 :=
  let n := popc (s.ring a).absent
  let skip := match s.sheafOf (12 + a) with
    | some k => !(s.live k).isEmpty
    | none => false
  if n = 0 then 0 else if n = 1 ∧ skip = true then 1 else 2

/-- The ring state is brought up to date; RING_BYPASSED and RING_OPEN are raised as it enters those states
(R305, R306). -/
def State.scanRing (s : State) (a : Nat) : State :=
  let r := s.ring a
  let st := s.ringState a
  if st = r.state then s
  else
    let s := s.setRing a { r with state := st }
    let c := (bitsSet r.absent).headD 0
    if st = 1 then s.fabricEvent 0x0209 0 0 (ringDetail a c)
    else if st = 2 then s.fabricEvent 0x020A 1 0 (ringDetail a c)
    else s

/-- A change of straws or memberships, with what follows for packets, sheaves and rings of the live sets
that it changes (R293 to R295, R305, R306). -/
def State.withLive (s : State) (g : State → State) : State :=
  let before := (List.range 32).flatMap (fun n => (s.live n).map (fun w => (n, w)))
  let s := g s
  let s := before.foldl (fun s q => if (s.live q.1).contains q.2 then s else s.leaveLive q.1 q.2) s
  let s := (List.range 32).foldl (fun s n => s.scanSheaf n) s
  (List.range 3).foldl (fun s a => s.scanRing a) s

/-! ### The rack plan (R299, Table 17-4) -/

/-- A byte of a straw's plan entry. -/
def planByte (b : List Byte) (w i : Nat) : Nat := leAt b (1088 + 16 * w + i) 1

/-- The serial that the plan expects of a straw's peer, if it gives the straw a peer. -/
def planPeer (b : List Byte) (w : Nat) : Option W64 :=
  let ix := planByte b w 4
  match planByte b w 3 with
  | 1 => some (BitVec.ofNat 64 (leAt b (32 + 16 * ix) 8))
  | 2 => some (BitVec.ofNat 64 (leAt b (1056 + 16 * ix) 8))
  | _ => none

/-- The peer straw that the plan expects. -/
def planStraw (b : List Byte) (w : Nat) : Nat := planByte b w 5

/-- Whether a serial is in the plan's directory, as a package or a tree port. -/
def planKnows (b : List Byte) (serial : W64) : Bool :=
  (List.range 64).any (fun i =>
    decide (leAt b (32 + 16 * i + 8) 1 % 2 = 1) && decide (leAt b (32 + 16 * i) 8 = serial.toNat)) ||
  (List.range 2).any (fun u => decide (leAt b (1056 + 16 * u) 8 = serial.toNat))

/-- Whether the plan in force expects a peer on a straw. -/
def State.expectsPeer (s : State) (w : Nat) : Bool :=
  match s.fab.plan with
  | some b => (planPeer b w).isSome
  | none => false

/-! ### Straw states -/

/-- A straw starts training: its link numbering and credit start again. -/
def Straw.train (x : Straw) : Straw :=
  { x with state := .training, same := 0, rxNext := 0, txNext := 0, partly := none, nakSeq := none, nakRun := 0, credit := [] }

/-- A straw leaves UP (R293, R363). -/
def State.leaveUp (s : State) (w : Nat) (x : Straw) : State :=
  (s.withLive (fun s => s.setStraw w x)).redEdgeDown w

/-- A straw is declared down (R286, R303): from UP it leaves the live set and STRAW_DOWN is raised; from
UP and HELD it starts training. -/
def State.strawDown (s : State) (w : Nat) : State :=
  let x := s.straw w
  match x.state with
  | .up => (s.leaveUp w x.train).fabricEvent 0x0201 0 0 w
  | .held => s.setStraw w x.train
  | _ => s

/-- A straw reports MISSING where the plan expects a peer, and is DOWN (R301, R303). -/
def State.strawMissing (s : State) (w : Nat) : State :=
  let x := s.straw w
  if s.expectsPeer w then
    (s.setStraw w { x with state := .down, outcome := .missing, missingSeen := true }).fabricEvent 0x0202 0 0 w
  else s.setStraw w { x with state := .down }

/-- Own coordinate on an axis. -/
def State.ownCoord (s : State) (a : Nat) : Nat := fld s.fab.coord (11 - 4 * a) (8 - 4 * a)

/-- The four torus straws toward a neighbouring coordinate of an axis (Table 8-3). -/
def State.torusTo (s : State) (a coord : Nat) : Option (List Nat) :=
  let own := s.ownCoord a
  let run (b : Nat) := some [b, b + 1, b + 2, b + 3]
  if coord = (own + 1) % 4 then run (4 * a) else if coord = (own + 3) % 4 then run (16 + 4 * a) else none

/-- A straw enters UP. A torus straw that is the first of its sheaf to return toward an absent coordinate
raises COORD_RETURNED (R307). -/
def State.enterUp (s : State) (w : Nat) (o : Outcome) : State :=
  let x := { s.straw w with state := .up, outcome := o, missingSeen := false }
  let s' := s.withLive (fun s => s.setStraw w x)
  let a := w % 16 / 4
  let c := (s.ownCoord a + (if w < 16 then 1 else 3)) % 4
  let base := w / 4 * 4
  let first := [base, base + 1, base + 2, base + 3].all (fun v => decide ((s.straw v).state ≠ .up))
  if a < 3 ∧ first = true ∧ (s.ring a).absent.getLsbD c = true then
    s'.fabricEvent 0x0208 0 0 (ringDetail a c)
  else s'

/-! ### Link layer -/

/-- Whether SEQ `a` is `b` or earlier, modulo 16,384. -/
def seqUpTo (a b : BitVec 14) : Bool := decide ((b - a).toNat < 8192)

/-- Whether SSEQ `a` is earlier than `b`, modulo 1,024. -/
def sseqBefore (a b : BitVec 10) : Bool := decide (a ≠ b) && decide ((b - a).toNat < 512)

/-- Room in a reorder buffer goes back to the straw's far end (R286, R291): a CREDIT frame, whose layout past code and SEQ
is open (assumption 172). -/
def State.sendCredit (s : State) (w : Nat) (p : Packet) : State :=
  let x := s.straw w
  s.setStraw w (x.drive [mkFrame (Config.creditBody p.vc (flitsOf p) ++ x.txNext ++ 3#4) (strawLow x.txNext 0 0 5)])

/-- Packets of a sub-sheaf and channel enter the rachis strictly in SSEQ order, each as the X port's buffer has room for
it (R253, R291), at most `k` of them. -/
def State.sheafFlow (s : State) (n key : Nat) : Nat → State
  | 0 => s
  | k + 1 =>
    let sh := s.sheaf n
    let next := Tab.get 0 sh.rxNext key
    match (Tab.get [] sh.reorder key).find? (fun e => e.sseq = next) with
    | none => s
    | some e =>
      let at_ := strawRouter e.straw
      if e.dead || s.room at_ 5 e.pkt then
        let s := s.setSheaf n { sh with
          rxNext := Tab.set 0 sh.rxNext key (next + 1)
          reorder := Tab.upd [] sh.reorder key (List.filter (fun q => decide (q.sseq ≠ next))) }
        let s := s.sendCredit e.straw e.pkt
        if e.dead then s.sheafFlow n key k
        else
          let s := { s with fab := { s.fab with ingress := s.fab.ingress ++ [e.pkt] } }
          (s.park at_ 5 e.pkt).sheafFlow n key k
      else s

/-- Whether a reorder buffer's 33 flits of a straw and channel have room for a packet (R291). -/
def reorderRoom (buf : List Reordered) (w : Nat) (p : Packet) : Bool :=
  decide (flitsOn p.vc ((buf.filter (fun e => decide (e.straw = w))).map (·.pkt)) + flitsOf p ≤ 33)

/-- The receiving sheaf engine takes a packet that came by straw `w` (R291, R293): duplicates are discarded, the others
enter the rachis in SSEQ order. One that its straw had no credit for is discarded (assumption 175). -/
def State.sheafTake (s : State) (n w : Nat) (sseq : BitVec 10) (p : Packet) : State :=
  let sh := s.sheaf n
  let key := w / 4 * 8 + p.vc.toNat
  let next := Tab.get 0 sh.rxNext key
  let buf := Tab.get [] sh.reorder key
  if sseqBefore sseq next || buf.any (fun e => e.sseq = sseq) then s.sendCredit w p
  else if reorderRoom buf w p then
    (s.setSheaf n { sh with
      reorder := Tab.set [] sh.reorder key (buf ++ [{ sseq := sseq, straw := w, pkt := p }]) }).sheafFlow n key (buf.length + 1)
  else s

/-- A reduction packet that has come by the straw that its sender named (R347): one for the straw port's combiner is
consumed there (R348), another enters the rachis as an ordinary packet, in the order of its straw and channel. -/
def State.redTake (s : State) (n w : Nat) (p : Packet) : State :=
  let sh := s.sheaf n
  let key := 1024 + w * 8 + p.vc.toNat
  let buf := Tab.get [] sh.reorder key
  if p.word.getLsbD 17 then ({ s with fab := { s.fab with ingress := s.fab.ingress ++ [p] } }).sendCredit w p
  else if reorderRoom buf w p then
    (s.setSheaf n { sh with
      reorder := Tab.set [] sh.reorder key (buf ++ [{ sseq := Tab.get 0 sh.rxNext key + BitVec.ofNat 10 buf.length, straw := w, pkt := p }])
      }).sheafFlow n key (buf.length + 1)
  else s

/-- A packet that has come by straw `w` whole: reduction packets bypass the striping (R347). -/
def State.strawPkt (s : State) (n w : Nat) (sseq : BitVec 10) (p : Packet) : State :=
  if p.kind = 3 then s.redTake n w p else s.sheafTake n w sseq p

/-- Room has come free at the X port of a router: the sheaf engine there goes on (R291). -/
def State.sheafGo (s : State) (at_ : Nat) : State :=
  (List.range 32).foldl (fun (s : State) n =>
    (s.sheaf n).reorder.foldl (fun s e =>
      if e.2.any (fun q => decide (strawRouter q.straw = at_)) then s.sheafFlow n e.1 e.2.length else s) s) s

/-- A NAK of SEQ (R286): frames are resent from it; 8 failed replays of one frame declare the straw down. -/
def State.nakStraw (s : State) (w : Nat) (seq : BitVec 14) : State :=
  let x := s.straw w
  if x.state ≠ .up then s
  else
    let run := if x.nakSeq = some seq then x.nakRun + 1 else 1
    if run ≥ 9 then s.strawDown w
    else s.setStraw w { (x.drive (x.replayFrom seq)) with nakSeq := some seq, nakRun := run }

/-- An ACK of SEQ (R264, R286): frames up to it leave the replay buffer, a packet with its last; attempts at a frame that
it covers are over. -/
def Straw.acked (x : Straw) (seq : BitVec 14) : Straw :=
  let spent := match x.nakSeq with
    | some n => seqUpTo n seq
    | none => true
  { x with
    unacked := x.unacked.filter (fun q => !seqUpTo q.seq seq)
    nakSeq := if spent then none else x.nakSeq, nakRun := if spent then 0 else x.nakRun }

/-- A CREDIT frame (R286, R291). -/
def Straw.refill (x : Straw) (data : BitVec 512) : Straw :=
  let c := Config.creditOf data
  { x with credit := Tab.upd 33 x.credit c.1.toNat (fun n => Nat.min 33 (n + c.2)) }

/-- NAK, ACK and CREDIT frames (R286). -/
def State.linkCtl (s : State) (w : Nat) (data : BitVec 512) : State :=
  let seq := data.extractLsb' 4 14
  match fld data 3 0 with
  | 0 => s.nakStraw w seq
  | 1 => s.setStraw w ((s.straw w).acked seq)
  | 3 => s.setStraw w ((s.straw w).refill data)
  | _ => s

/-- Whether a straw has trained and exchanges ROLL_CALL frames (R300). -/
def Straw.trained (x : Straw) : Bool :=
  match x.state with
  | .rollCall | .up | .held | .quarantined => true
  | .off | .down | .training => false

/-- STRAW_NAK (R286). -/
def execStrawNak (w : StrawId) (seq : BitVec 14) (s : State) : Out := .next (s.nakStraw w.val seq)

/-- STRAW_LOSS_OF_LIGHT (R286): `locked` are the wavelengths still locked. -/
def execStrawLossOfLight (w : StrawId) (locked : BitVec 8) (s : State) : Out :=
  let s := s.setStraw w.val { s.straw w.val with lambda := locked }
  if locked = 0xFF then .next s else .next (s.strawDown w.val)

/-! ### Sending -/

/-- The packets that have come to the engine of tiller `t` for a sub-sheaf and channel, oldest first (R291). -/
def State.shfRouted (s : State) (n t vc : Nat) : List Packet :=
  (s.fab.routed.filter (fun r => r.out && (match r.exit with
    | .toSheaf m u _ => decide (m.val = n) && decide (u.val = t) && decide (r.pkt.vc.toNat = vc)
    | _ => false))).map (·.pkt)

/-- The packets that have come to a straw which their sender names, on a channel, oldest first (R347, R440). -/
def State.shfNamed (s : State) (w vc : Nat) : List Packet :=
  (s.fab.routed.filter (fun r => r.out && (match r.exit with
    | .toStraw v => decide (v.val = w) && decide (r.pkt.vc.toNat = vc)
    | _ => false))).map (·.pkt)

/-- Packets that a straw's scheduler has granted (R297). -/
def State.givenTo (s : State) (w : Nat) : List Packet := (s.arb (.sheaf (Fin.ofNat 32 w))).given

/-- The packets of a sub-sheaf and channel that no live straw has granted (R297). -/
def State.shfWaits (s : State) (n t vc : Nat) : List Packet :=
  ((s.liveOn n t).flatMap (fun w => s.givenTo w)).foldl List.erase (s.shfRouted n t vc)

/-- Whether two packets of one channel are of one flow, whose order a sheaf keeps (R292). -/
def sameFlow (p q : Packet) : Bool := decide (p.src >>> 13 = q.src >>> 13) && decide (p.dst >>> 13 = q.dst >>> 13)

/-- A packet that has crossed 15 straws is dropped at a tiller and counted (R325). -/
def State.shfAge (s : State) (t : Nat) (pkt : Packet) : State :=
  let r := Tab.get {} s.fab.dies t
  let s := s.takePkt pkt
  { s with fab := { s.fab with dies := Tab.set {} s.fab.dies t { r with age := satAdd r.age 1 } } }

/-- A reduction packet goes out on the straw that its sender names, outside the striping (R347); on a straw that is not UP
it is lost (R363). Its SSEQ is open (assumption 184). -/
def State.sendNamed (s : State) (w : Nat) (pkt : Packet) : State :=
  if (s.straw w).state ≠ .up then s.takePkt pkt
  else if pkt.pkgs = 15 then s.shfAge (w / 4) pkt
  else if !(s.givenTo w).contains pkt || !(s.straw w).ready pkt then s
  else
    let (v, s) := s.draw
    (s.takePkt pkt).onStraw w (v.setWidth 10) { pkt with pkgs := pkt.pkgs + 1 }

/-- SHEAF_TRANSMIT (R290 to R293, R297, R325, R347): the engine of tiller `t` sends a packet on straw `w`, whose scheduler has
granted it, once there is credit, with the next SSEQ: packets of a flow go in the order in which they came. After 15 straw
hops a packet is dropped instead. A reduction packet goes on the straw that it names, whatever the sheaf. -/
def execSheafTransmit (t : TillerId) (n : SheafId) (w : StrawId) (pkt : Packet) (s : State) : Out :=
  if !s.hasPkt pkt then .next s
  else if pkt.via.isSome then
    .next (if (s.shfNamed w.val pkt.vc.toNat).contains pkt then s.sendNamed w.val pkt else s)
  else if (s.shfRouted n.val t.val pkt.vc.toNat).find? (sameFlow pkt) ≠ some pkt then .next s
  else if pkt.pkgs = 15 then .next (s.shfAge t.val pkt)
  else if !(s.liveOn n.val t.val).contains w.val || !(s.givenTo w.val).contains pkt || !(s.straw w.val).ready pkt then .next s
  else
    let sh := s.sheaf n.val
    let key := t.val * 8 + pkt.vc.toNat
    let q := Tab.get 0 sh.txNext key
    let s := (s.takePkt pkt).setSheaf n.val { sh with txNext := Tab.set 0 sh.txNext key (q + 1) }
    .next (s.onStraw w.val q { pkt with pkgs := pkt.pkgs + 1 })

/-- The packet whose grant on a straw has stalled: the one of the holder's class that was granted last. -/
def State.stalledOn (s : State) (w vc : Nat) : Option Packet :=
  match s.sheafOf w with
  | none => none
  | some n => ((s.givenTo w).filter (fun q => (s.shfRouted n (w / 4) vc ++ s.shfNamed w vc).contains q)).getLast?

/-- The stall watchdog of a sheaf scheduler (R298): the grant is withdrawn, a TAIL_ABORT frame ends what was sent and the
packet is dropped; the status SHF_STALL names its context. -/
def State.sheafStall (s : State) (w : StrawId) : State :=
  match s.withdraw (.sheaf w) with
  | (s, none) => s
  | (s, some g) =>
    match s.stalledOn w.val g.who with
    | some p =>
      let s := s.takePkt p
      let x := (s.straw w.val).drive [mkFrame 0 (strawLow (s.straw w.val).txNext 0 p.vc 6)]
      s.setStraw w.val { x with txNext := x.txNext + 1, stalls := x.stalls ++ [p.ctx] }
    | none => s

/-- SHF_STALL (R298). -/
def execShfStall (w : StrawId) (s : State) : Out := .next (s.sheafStall w)

/-! ### Training and roll call -/

/-- STRAW_TRAINED (R283, R303): all 8 wavelengths lock. -/
def execStrawTrained (w : StrawId) (s : State) : Out :=
  let x := s.straw w.val
  if x.state = .training then .next (s.setStraw w.val { x with state := .rollCall, lambda := 0xFF, same := 0 })
  else .next s

/-- STRAW_TRAINING_TIMEOUT (R301, R303): 120 ms elapse. -/
def execStrawTrainingTimeout (w : StrawId) (locked : BitVec 8) (s : State) : Out :=
  let x := s.straw w.val
  if x.state = .training then .next ((s.setStraw w.val { x with lambda := locked }).strawMissing w.val)
  else .next s

/-- Version of the plan in force, 0 without one. -/
def State.planVersion (s : State) : W64 :=
  match s.fab.plan with
  | some b => BitVec.ofNat 64 (leAt b 0 8)
  | none => 0

/-- The ROLL_CALL frame that a straw sends (Table 8-5). -/
def State.rollFrame (s : State) (w : Nat) : RollFrame :=
  let x := s.straw w
  let c := s.fab.coord
  { holdsPlan := s.fab.plan.isSome, echoValid := x.heard.isSome, up := decide (x.state = .up),
    rack := c.extractLsb' 12 12, x := c.extractLsb' 8 4, y := c.extractLsb' 4 4, z := c.extractLsb' 0 4,
    kind := 0, serial := s.sec.otp.serial, straw := BitVec.ofNat 5 w, plan := s.planVersion,
    echoSerial := (x.heard.map (·.serial)).getD 0, echoStraw := (x.heard.map (·.straw)).getD 0 }

/-- ROLL_CALL_SEND (R300). -/
def execRollCallSend (w : StrawId) (s : State) : Out :=
  let x := s.straw w.val
  let f := s.rollFrame w.val
  if x.trained then
    .next (s.setStraw w.val { (x.drive [mkFrame (rollBits x.txNext f) (strawLow x.txNext 0 0 5)]) with sentRoll := some f })
  else .next s

/-- Identity fields of a ROLL_CALL frame (R301). -/
def rollId (f : RollFrame) : BitVec 12 × BitVec 4 × BitVec 4 × BitVec 4 × BitVec 4 × W64 × BitVec 5 :=
  (f.rack, f.x, f.y, f.z, f.kind, f.serial, f.straw)

/-- What a straw's outcome is under a plan (Table 8-6), with the straw that it is exchanged with. -/
def State.outcomeOf (s : State) (b : List Byte) (w : Nat) (f : RollFrame) : Outcome × Nat :=
  match planPeer b w with
  | none => (.unexpected, 0)
  | some serial =>
    if !planKnows b f.serial then (.unexpected, 0)
    else if f.serial = serial ∧ f.straw.toNat = planStraw b w then (.matched, 0)
    else
      let swap := (List.range 32).find? (fun v =>
        decide (v ≠ w) && (s.sheafOf w).isSome && decide (s.sheafOf v = s.sheafOf w) &&
        decide (planPeer b v = some serial) &&
        decide (f.serial = serial) && decide (planStraw b v = f.straw.toNat) &&
        (match (s.straw v).heard with
         | some h => decide (h.serial = serial) && decide (h.straw.toNat = planStraw b w)
         | none => false))
      match swap with
      | some v => (.swapped, v)
      | none => (.miswired, 0)

/-- The EC of the package that a frame names. -/
def rollEc (f : RollFrame) : Ec := f.rack ++ f.x ++ f.y ++ f.z ++ (0 : BitVec 24)

/-- A straw in ROLL_CALL acts on its outcome (Table 8-6). -/
def State.rollDecide (s : State) (b : List Byte) (w : Nat) (f : RollFrame) : State :=
  let x := s.straw w
  match s.outcomeOf b w f with
  | (.matched, _) => s.enterUp w .matched
  | (.swapped, v) =>
    let join := fun (s : State) (i j : Nat) =>
      ((s.setStraw i { s.straw i with exchWith := BitVec.ofNat 5 j }).enterUp i .swapped).fabricEvent 0x0203 0 0 i
    let s := join s w v
    if (s.straw v).state = .rollCall ∨ (s.straw v).state = .held then join s v w else s
  | (.miswired, _) =>
    (s.setStraw w { x with state := .held, outcome := .miswired }).fabricEvent 0x0204 1 (rollEc f) w
  | (.unexpected, _) =>
    (s.setStraw w { x with state := .quarantined, outcome := .unexpected }).fabricEvent 0x0205 1 (rollEc f) w
  | _ => s

/-- PLAN_SKEW (R301): plan versions that differ, told once while the bit is set. -/
def State.skewCheck (s : State) (w : Nat) (f : RollFrame) : State :=
  let x := s.straw w
  if s.fab.plan.isSome ∧ f.holdsPlan = true ∧ f.plan ≠ s.planVersion ∧ x.planSkew = false then
    (s.setStraw w { x with planSkew := true }).fabricEvent 0x0206 0 0 w
  else s

/-- A ROLL_CALL frame is heard (R300 to R303, R440): the frame is kept as the last heard; two consecutive frames of one
identity that echo this straw decide the outcome, under the plan in force. An UP straw that hears another
identity, or that the plan no longer gives its peer, goes back to ROLL_CALL. -/
def State.rollHeard (s : State) (w : Nat) (fr : RollFrame) : State :=
  let x := s.straw w
  if !x.trained then s
  else
    let changed := match x.heard with
      | some h => decide (rollId h ≠ rollId fr)
      | none => true
    let good := fr.echoValid && decide (fr.echoSerial = s.sec.otp.serial) && decide (fr.echoStraw.toNat = w)
    let same := if !good then 0 else if changed then 1 else x.same + 1
    let y := { x with heard := some fr, same := same }
    match x.state, changed with
    | .up, true => (s.leaveUp w { y with state := .rollCall }).skewCheck w fr
    | .up, false =>
      let s := (s.setStraw w y).skewCheck w fr
      match s.fab.plan with
      | some b =>
        let o := (s.outcomeOf b w fr).1
        if same ≥ 2 ∧ o ≠ .matched ∧ o ≠ .swapped then
          s.leaveUp w { s.straw w with state := .rollCall, same := 0 }
        else s
      | none => s
    | .rollCall, _ =>
      let s := (s.setStraw w y).skewCheck w fr
      match s.fab.plan with
      | some b => if same ≥ 2 then s.rollDecide b w fr else s
      | none => s
    | _, _ => (s.setStraw w y).skewCheck w fr

/-- ROLL_CALL (R300, Table 8-5). -/
def execRollCall (w : StrawId) (data : BitVec 512) (s : State) : Out := .next (s.rollHeard w.val (rollOf data))

/-- A sequenced frame of the straw of sheaf `n` in its order (R263, R285, R291): packets are put together from their frames
and go to the sheaf engine; TAIL_ABORT ends one that is discarded. -/
def State.strawTake (s : State) (n w : Nat) (f : Frame) : State :=
  let x := s.straw w
  let low := frameLow f
  let bs := toLE 64 (frameData f).toNat
  let part := fun (v : Option (BitVec 10 × List Byte)) => s.setStraw w { x with partly := v }
  match low.extractLsb' 2 3 with
  | 1 => part (some (low.extractLsb' 8 10, bs))
  | 2 => part (x.partly.map (fun q => (q.1, q.2 ++ bs)))
  | 3 => match x.partly with
    | some q => (part none).strawPkt n w q.1 (pktOf (q.2 ++ bs))
    | none => s
  | 4 => (part none).strawPkt n w (low.extractLsb' 8 10) (pktOf bs)
  | _ => part none

/-- STRAW_FRAME_RECEIVE (R285, R286, R291, R296, Table 8-2): a frame that fails its check is discarded and NAKed, and so are
those after it until the replay, which come out of order; one that arrives on a straw of no sheaf is discarded and counted.
A frame taken in its order is acknowledged. `fec` codewords were corrected (R309). A straw that is not UP carries ROLL_CALL
frames only (R302). -/
def execStrawFrameReceive (w : StrawId) (fec : Nat) (data : BitVec 512) (seq : BitVec 14) (sseq : BitVec 10)
    (vc typ : BitVec 3) (resv : BitVec 2) (crc : W32) (s : State) : Out :=
  let frame := strawFrame data seq sseq vc typ resv crc
  let s := s.setStraw w.val { s.straw w.val with fec := satAdd (s.straw w.val).fec fec }
  let x := s.straw w.val
  let up := decide (x.state = .up)
  if !x.trained then .next s
  else if !frameOk frame then
    let x := { x with crc := satAdd x.crc 1 }
    .next (s.setStraw w.val (if up then { (x.driveCtl 0 x.rxNext) with naks := satAdd x.naks 1 } else x))
  else if typ = 5 then
    if fld data 3 0 = 4 then .next (s.rollHeard w.val (rollOf data))
    else .next (if up then s.linkCtl w.val data else s)
  else if !up || !seqdType typ || decide (seq ≠ x.rxNext) then .next s
  else
    let x := { (x.driveCtl 1 x.rxNext) with rxNext := x.rxNext + 1 }
    match s.sheafOf w.val with
    | none => .next (s.setStraw w.val { x with crc := satAdd x.crc 1, partly := none })
    | some n => .next ((s.setStraw w.val x).strawTake n w.val frame)

/-- ROLL_CALL_TIMEOUT (R301): no frame within 10 ms of training. Without a plan no outcome is decided
(R440). -/
def execRollCallTimeout (w : StrawId) (s : State) : Out :=
  if (s.straw w.val).state = .rollCall ∧ s.expectsPeer w.val = true then .next (s.strawMissing w.val)
  else .next s

/-- STRAW_AUTO_RETRY (R303): 1 s after the last attempt, with AUTO set. -/
def execStrawAutoRetry (w : StrawId) (s : State) : Out :=
  let x := s.straw w.val
  if x.state = .down ∧ x.auto = true then .next (s.setStraw w.val x.train) else .next s

/-- SHF_STRAW_CTRL.EN (R303, R604): a set bit starts an OFF straw's training, a cleared one turns it
off. -/
def State.setStrawEn (s : State) (w : Nat) (en : Bool) : State :=
  let x := { s.straw w with en := en }
  match en, x.state with
  | true, .off => s.setStraw w x.train
  | true, _ => s.setStraw w x
  | false, .off => s.setStraw w x
  | false, .up => s.leaveUp w { x with state := .off, lambda := 0 }
  | false, _ => s.setStraw w { x with state := .off, lambda := 0 }

/-- STRAW_EN (R303). -/
def execStrawEn (w : StrawId) (en : Bool) (s : State) : Out := .next (s.setStrawEn w.val en)

/-- RETRAIN of a straw: from DOWN or HELD (R303). -/
def State.retrainStraw (s : State) (w : Nat) : State :=
  let x := s.straw w
  if x.state = .down ∨ x.state = .held then s.setStraw w x.train else s

/-- STRAW_RETRAIN (R303). -/
def execStrawRetrain (w : StrawId) (s : State) : Out := .next (s.retrainStraw w.val)

/-! ### Registers of sheaves, shares and rings -/

/-- A write of SHF_SHEAF_MEMBERS (R288, R296): refused where a straw would be in two sheaves or the sheaf
would have more than 16. -/
def State.writeMembers (s : State) (n : Nat) (v : W32) : State :=
  let clash := (List.range 32).any (fun m => decide (m ≠ n) && decide ((s.sheaf m).members &&& v ≠ 0))
  if clash || decide (popc v > 16) then s.setSheaf n { s.sheaf n with cfgErr := true }
  else s.withLive (fun s => s.setSheaf n { s.sheaf n with members := v })

/-- SHEAF_MEMBERS_WRITE (R288). -/
def execSheafMembersWrite (n : SheafId) (v : W32) (s : State) : Out := .next (s.writeMembers n.val v)

/-- SHEAF_DEGRADED (R295): a member has been outside the live set for 1 s; raised once per episode. -/
def execSheafDegraded (n : SheafId) (s : State) : Out :=
  let sh := s.sheaf n.val
  if (s.live n.val).length < popc sh.members ∧ sh.degraded = false then
    .next ((s.setSheaf n.val { sh with degraded := true }).fabricEvent 0x020B 0 0 n.val)
  else .next s

/-- SHF_SHARE of a straw; its reset value is weight 1, slice 0 (Table 9-20). -/
def Straw.shareAt (x : Straw) (i : Nat) : W32 := Tab.get 0x00010000 x.share i

/-- The share of a straw that a slice belongs to (R339): its own entry, else entry 0; with an OWNER, the OWNER's or entry 0. -/
def Straw.shareOf (x : Straw) (slice : BitVec 16) : Nat :=
  let own := (List.range 15).filter (fun i => (x.shareAt (i + 1)).getLsbD 31)
  let mine := fun (i : Nat) => decide ((x.shareAt (i + 1)).setWidth 16 = slice)
  match own with
  | [] => match (List.range 15).find? (fun i => mine i && decide (Tab.get 0x00010000 x.share (i + 1) ≠ 0x00010000)) with
    | some i => i + 1
    | none => 0
  | i :: _ => if mine i then i + 1 else 0

/-- Weight of a share (R339). -/
def Straw.weight (x : Straw) (i : Nat) : Nat :=
  if (List.range 15).any (fun j => (x.shareAt (j + 1)).getLsbD 31) then (if i = 0 then 1 else 255)
  else fld (x.shareAt i) 23 16

/-- Deficit round robin on bytes among the shares that have packets waiting (R339): the packet that is next, and the straw
with its deficits. A share whose turn comes gets the bytes of one largest packet times its weight (assumption 176). -/
def Straw.nextShare (x : Straw) (ps : List Packet) : Nat → Straw × Option Packet
  | 0 => (x, ps.head?)
  | k + 1 =>
    let left := Tab.get 0 x.deficit x.turn
    match ps.find? (fun p => x.shareOf p.slice = x.turn) with
    | some p =>
      if pktSize p ≤ left then ({ x with deficit := Tab.set 0 x.deficit x.turn (left - pktSize p) }, some p)
      else
        let j := (x.turn + 1) % 16
        Straw.nextShare { x with turn := j, deficit := Tab.upd 0 x.deficit j (· + 2080 * x.weight j) } ps k
    | none =>
      let j := (x.turn + 1) % 16
      let d := Tab.set 0 x.deficit x.turn 0
      Straw.nextShare { x with turn := j, deficit := Tab.upd 0 d j (· + 2080 * x.weight j) } ps k

/-- A write of SHF_SHARE (R338, R339, Table 9-20): a second OWNER is refused with CFG_ERR of the straw's
sheaf; a weight of 0 leaves the weight. -/
def State.writeShare (s : State) (w i : Nat) (v : W32) : State :=
  let x := s.straw w
  let second := v.getLsbD 31 && (List.range 16).any (fun j => decide (j ≠ i) && (x.shareAt j).getLsbD 31)
  if second then
    match s.sheafOf w with
    | some n => s.setSheaf n { s.sheaf n with cfgErr := true }
    | none => s
  else
    let wt := if fld v 23 16 = 0 then fld (x.shareAt i) 23 16 else fld v 23 16
    s.setStraw w { x with share := Tab.set 0x00010000 x.share i (setFld (v &&& 0x8000FFFF) 23 16 wt) }

/-- SHARE_WRITE (R339). -/
def execShareWrite (w : StrawId) (i : Fin 16) (v : W32) (s : State) : Out := .next (s.writeShare w.val i.val v)

/-- COORD_ABSENT is told over VC6 to every other package of the rack (R304): those of the plan's directory. -/
def State.tellRack (s : State) (axis : Fin 3) (coord : Fin 4) : State :=
  match s.fab.plan with
  | none => s
  | some b =>
    ((List.range 64).filter (fun i =>
      decide (leAt b (32 + 16 * i + 8) 1 % 2 = 1) && decide (i ≠ coordIx s.fab.coord))).foldl
      (fun s i => s.sendStw (ecOf (s.pkgOfIx i) 0 0 0 0x7F) (.absent axis coord)) s

/-- COORD_ABSENT (R304): the four torus straws toward a neighbour have been out of UP for the hold time,
and one of them has reported MISSING. -/
def execCoordAbsent (axis : Fin 3) (coord : Fin 4) (s : State) : Out :=
  let r := s.ring axis.val
  match s.torusTo axis.val coord.val with
  | none => .next s
  | some ws =>
    if ws.all (fun w => decide ((s.straw w).state ≠ .up)) && ws.any (fun w => (s.straw w).missingSeen) &&
        !r.absent.getLsbD coord.val then
      let s := s.setRing axis.val { r with absent := putBit r.absent coord.val true }
      .next (((s.fabricEvent 0x0207 1 0 (ringDetail axis.val coord.val)).tellRack axis coord).scanRing axis.val)
    else .next s

/-- ABSENT bits cleared by writing ones (R307, Table 8-15). -/
def State.clearAbsent (s : State) (a : Nat) (mask : BitVec 4) : State :=
  let r := s.ring a
  (s.setRing a { r with absent := r.absent &&& ~~~mask }).scanRing a

/-- RING_ABSENT_CLEAR (R307). -/
def execRingAbsentClear (axis : Fin 3) (mask : BitVec 4) (s : State) : Out :=
  .next (s.clearAbsent axis.val mask)

end Sys2Proof.Machine
end

