-- ==== Sys2Proof/Machine/Contexts.lean ====
section
/-! DEFINITION. Contexts: page tables made and unmade, frames, creation and teardown (R177 to R179, R185,
R186, R199, R204, R365, R389, R390, R415 to R422). -/

namespace Sys2Proof.Machine

/-! ### Frames -/

/-- Frames of a run. -/
def Extent.has (e : Extent) (f : Nat) : Bool := decide (e.first ≤ f) && decide (f < e.first + e.count)

/-- Whether a context holds a frame. -/
def Ctx.hasFrame (c : Ctx) (f : Nat) : Bool :=
  c.pages.any (fun e => e.has f) || c.tabs.contains f || c.farPool.contains f ||
  c.unmapped.any (fun u => u.ext.has f)

/-- Whether a frame is in the free pool (R247, R390, R415, R419): of the granary, not retired, not of the
floor map, held by no context, and not waiting to be scrubbed or returned. -/
def State.frameFree (s : State) (f : Nat) : Bool :=
  decide (f < granaryEnd / 65536) && !s.floor.retired.contains f &&
  (!s.floor.published || decide (f ≠ Config.floorAddr / 65536)) &&
  !(decide (Config.dumpAddr / 65536 ≤ f) && decide (f < Config.dumpAddr / 65536 + 4096)) &&
  !(Config.stagedFrames.take 256).contains f &&
  !s.host.ctxs.any (fun e => e.2.hasFrame f) && !s.host.scrubs.any (fun e => e.2.has f) &&
  !s.host.invals.any (fun v => v.frames.any (fun e => e.has f))

/-- Frames become zeros, with good check bits. -/
def State.zeroFrames (s : State) (f n : Nat) : State :=
  let s := (s.wipe (f * 65536) (n * 65536)).pfForget (f * 65536) (n * 65536)
  { s with mem := { s.mem with line := Tab.wipe s.mem.line (f * 1024) (n * 1024) } }

/-- Frames that count against a context's quota (R415). -/
def Ctx.frames (c : Ctx) : Nat :=
  c.pages.foldl (fun n e => n + e.count) 0 + c.tabs.length + c.farPool.length

/-- Whether a context is within its quota; 0 is none. -/
def Ctx.within (c : Ctx) : Bool := decide (c.quota = 0) || decide (c.frames * 65536 ≤ c.quota.toNat)

/-! ### Page tables -/

/-- What lies at an address of a context's tables: the leaf that maps it, if any, and the distance to the
next address worth looking at. -/
def State.probe (s : State) (c va : Nat) : Option Leaf × Nat :=
  match s.walk (BitVec.ofNat 12 c) va with
  | .leaf l => (some l, 2 ^ l.size - va % 2 ^ l.size)
  | .refuse _ =>
    let e1 := ofLE (s.read ((s.ctx c).l1 + 8 * fieldOf va 42 30) 8)
    if fieldOf e1 63 63 = 0 then (none, 2 ^ 30 - va % 2 ^ 30)
    else
      let e2 := ofLE (s.read (fieldOf e1 43 0 + 8 * fieldOf va 29 21) 8)
      if fieldOf e2 63 63 = 0 then (none, 2 ^ 21 - va % 2 ^ 21) else (none, 2 ^ 16 - va % 2 ^ 16)

/-- The mapped pages that a range touches: base and leaf of each. -/
def State.pagesIn (s : State) (c : Nat) : Nat → Nat → Nat → List (Nat × Leaf)
  | 0, _, _ => []
  | k + 1, va, stop =>
    if va ≥ stop then []
    else
      let r := s.probe c va
      let rest := s.pagesIn c k (va + r.2) stop
      match r.1 with
      | some l => (va / 2 ^ l.size * 2 ^ l.size, l) :: rest
      | none => rest

/-- Steps that cover a range at 64 KiB each. -/
def stepsOf (len : Nat) : Nat := len / 65536 + 2

/-- A table of `size` bytes for a context, in its last table frame where that has room, else in the next of
`tabs` (assumption 10). -/
def State.newTable (s : State) (c : Nat) (tabs : List Nat) (size : Nat) : Option (Nat × State × List Nat) :=
  let x := s.ctx c
  let a := (x.tabAt + size - 1) / size * size
  if x.tabAt % 65536 ≠ 0 ∧ a / 65536 = x.tabAt / 65536 then
    some (a, s.setCtx c { x with tabAt := a + size }, tabs)
  else match tabs with
    | f :: rest =>
      if s.frameFree f then
        let s := s.zeroFrames f 1
        some (f * 65536, s.setCtx c { x with tabs := x.tabs ++ [f], tabAt := f * 65536 + size }, rest)
      else none
    | [] => none

/-- The table below an entry, made where there is none. -/
def State.tableAt (s : State) (c : Nat) (tabs : List Nat) (entry size : Nat) : Option (Nat × State × List Nat) :=
  let e := ofLE (s.read entry 8)
  if fieldOf e 63 63 = 1 then some (fieldOf e 43 0, s, tabs)
  else match s.newTable c tabs size with
    | none => none
    | some (a, s, tabs) => some (a, s.paPut entry (toLE 8 (2 ^ 63 + a)), tabs)

/-- One page's leaf is written (Tables 5-3, 5-4): `size` is 30, 21 or 16. -/
def State.mapPage (s : State) (c : Nat) (tabs : List Nat) (va size pte : Nat) : Option (State × List Nat) :=
  let e1 := (s.ctx c).l1 + 8 * fieldOf va 42 30
  if size = 30 then some (s.paPut e1 (toLE 8 pte), tabs)
  else match s.tableAt c tabs e1 4096 with
    | none => none
    | some (t2, s, tabs) =>
      let e2 := t2 + 8 * fieldOf va 29 21
      if size = 21 then some (s.paPut e2 (toLE 8 pte), tabs)
      else match s.tableAt c tabs e2 256 with
        | none => none
        | some (t3, s, tabs) => some (s.paPut (t3 + 8 * fieldOf va 20 16) (toLE 8 pte), tabs)

/-! ### MAP and UNMAP -/

/-- Page size of a MAP, in address bits. -/
def HCmd.pageBits (c : HCmd) : Option Nat :=
  match c.p 2 % 4 with
  | 0 => some 16 | 1 => some 21 | 2 => some 30 | _ => none

/-- The leaf flags that a MAP gives: V, LEAF, R, W, NSPEC. -/
def HCmd.leafFlags (c : HCmd) : Nat :=
  let b := fun (i k : Nat) => c.p 2 / 2 ^ i % 2 * 2 ^ k
  2 ^ 63 + 2 ^ 62 + b 2 61 + b 3 60 + b 4 58

/-- FAR of a MAP. -/
def HCmd.far (c : HCmd) : Bool := decide (c.p 2 / 32 % 2 = 1)

/-- Pages of a MAP backed by frames: the steward takes the first frame of each from the free pool and
zeroes the page. -/
def State.mapNear (s : State) (c : Nat) (flags bits : Nat) : Nat → Nat → List Nat → List Nat → Option State
  | 0, _, _, _ => some s
  | k + 1, va, pages, tabs =>
    let n := 2 ^ bits / 65536
    match pages with
    | [] => none
    | f :: rest =>
      if f % n ≠ 0 ∨ ((List.range n).all (fun i => s.frameFree (f + i))) = false then none
      else
        let s := s.zeroFrames f n
        let x := s.ctx c
        let s := s.setCtx c { x with pages := x.pages ++ [{ first := f, count := n }] }
        match s.mapPage c tabs va bits (flags + f * 65536) with
        | none => none
        | some (s, tabs) => s.mapNear c flags bits k (va + 2 ^ bits) rest tabs

/-- Far pages of a MAP, by slot (R199). -/
def State.mapFar (s : State) (c : Nat) (flags : Nat) : Nat → Nat → Nat → List Nat → Option State
  | 0, _, _, _ => some s
  | k + 1, va, slot, tabs =>
    match s.mapPage c tabs va 16 (flags + 2 ^ 59 + slot * 65536) with
    | none => none
    | some (s, tabs) => s.mapFar c flags k (va + 65536) (slot + 1) tabs

/-- Frames added to a context's far pool. -/
def State.addFar (s : State) (c : Nat) : Nat → List Nat → Option State
  | 0, _ => some s
  | k + 1, fs =>
    match fs with
    | [] => none
    | f :: rest =>
      if s.frameFree f then
        let x := s.ctx c
        ((s.zeroFrames f 1).setCtx c { x with farPool := x.farPool ++ [f] }).addFar c k rest
      else none

/-- Everything that a MAP writes, or none where the pool or the quota cannot supply its frames (R415). -/
def State.mapAll (s : State) (m : HCmd) (bits : Nat) (pages tabs far : List Nat) : Option State :=
  let c := m.ctx.toNat
  let n := m.p 1 / 2 ^ bits
  match s.addFar c (m.p 4) far with
  | none => none
  | some s =>
    let r := if m.far then
        let x := s.ctx c
        let slot := x.farMaps.foldl (fun k e => k + e.count) 0
        let s := s.setCtx c { x with farMaps := x.farMaps ++ [{ first := slot, count := n, host := BitVec.ofNat 64 (m.p 3) }] }
        s.mapFar c m.leafFlags n (m.p 0) slot tabs
      else s.mapNear c m.leafFlags bits n (m.p 0) pages tabs
    match r with
    | some s => if (s.ctx c).within then some s else none
    | none => none

/-- Panicles whose translation units hold a context (R185). -/
def State.unitsOf (s : State) (ctx : BitVec 12) : List PanId :=
  (s.panKeys.filter (fun p =>
    let x := s.pan p
    (match x.bound with
     | some o => decide (o.1 = ctx)
     | none => false) ||
    x.tlb.any (fun e => decide (e.ctx = ctx)) || (x.walks ++ x.misses).any (fun e => decide (e.ctx = ctx)))).map
    (Fin.ofNat 1536)

/-- An invalidation goes to the units that hold the context; MAP and UNMAP complete once all have
acknowledged (R185, R186), at once where there is none. -/
def State.invalidate (s : State) (q : QueueId) (m : HCmd) (pages : Nat) (frames : List Extent) : State :=
  let s := s.setCmd q { m with step := 1 }
  let waits := s.unitsOf m.ctx
  if waits.isEmpty then
    let x := s.ctx m.ctx.toNat
    let us := frames.map (fun f => ({ ext := f, at_ := s.refcnt } : Unmapped))
    (s.setCtx m.ctx.toNat { x with unmapped := x.unmapped ++ us }).finish q m.seq 0 pages
  else { s with host := { s.host with invals := s.host.invals ++
    [{ queue := q, seq := m.seq, ctx := m.ctx, va := m.p 0, len := m.p 1, waits := waits, pages := pages, frames := frames }] } }

/-- Whether another MAP or UNMAP of the context that started earlier is outstanding (R415). -/
def State.mapTurn (s : State) (m : HCmd) : Bool :=
  !s.allCmds.any (fun e => (decide (e.2.opcode = 7) || decide (e.2.opcode = 8)) && e.2.started &&
    decide (e.2.ctx = m.ctx) && e.2.local_ && decide (e.2.startNo < m.startNo))

/-- Whether a range of a MAP or UNMAP lies in the virtual range. -/
def HCmd.rangeOk (m : HCmd) : Bool := decide (0 < m.p 1) && decide (m.p 0 + m.p 1 ≤ 0x80000000000)

/-- MAP (R177 to R179, R199, R413, R415). `pages`, `tabs` and `far` are the frames that the steward takes
from the free pool, in order; where they do not suffice the pool cannot supply them. -/
def execMap (q : QueueId) (seq : W32) (pages tabs far : List Nat) (s : State) : Out :=
  match s.running q seq 7 with
  | none => .next s
  | some m =>
    if m.step ≠ 0 ∨ s.mapTurn m = false then .next s
    else match m.pageBits with
      | none => .next (s.finish q seq 0x101 0)
      | some bits =>
        if m.rangeOk = false ∨ m.p 0 % 2 ^ bits ≠ 0 ∨ m.p 1 % 2 ^ bits ≠ 0 ∨ (m.far = true ∧ bits ≠ 16) then
          .next (s.finish q seq 0x101 0)
        else if !(s.pagesIn m.ctx.toNat (stepsOf (m.p 1)) (m.p 0) (m.p 0 + m.p 1)).isEmpty then
          .next (s.finish q seq 0x107 0)
        else match s.mapAll m bits pages tabs far with
          | none => .next (s.finish q seq 0x106 0)
          | some s => .next (s.invalidate q m (m.p 1 / 2 ^ bits) [])

/-- A page is unmapped: its entry is cleared, and its frames leave the context unless they belong to the far
pool. -/
def State.unmapPage (s : State) (c : Nat) (va : Nat) (l : Leaf) : State × List Extent :=
  let s := s.paPut l.at_ (toLE 8 0)
  let x := s.ctx c
  if l.pte.getLsbD 59 then (s, [])
  else if x.farHeld.any (fun h => h.va = va) then
    (s.setCtx c { x with farHeld := x.farHeld.filter (fun h => h.va ≠ va) }, [])
  else
    let e : Extent := { first := pteAddr l.pte / 65536, count := 2 ^ l.size / 65536 }
    (s.setCtx c { x with pages := x.pages.filter (· ≠ e) }, [e])

/-- UNMAP (R186, R390, R413, R415): whole pages only. -/
def execUnmap (q : QueueId) (seq : W32) (s : State) : Out :=
  match s.running q seq 8 with
  | none => .next s
  | some m =>
    let c := m.ctx.toNat
    let lo := m.p 0
    let hi := m.p 0 + m.p 1
    if m.step ≠ 0 ∨ s.mapTurn m = false then .next s
    else if m.rangeOk = false then .next (s.finish q seq 0x101 0)
    else
      let ps := s.pagesIn c (stepsOf (m.p 1)) lo hi
      if ps.any (fun e => decide (e.1 < lo) || decide (hi < e.1 + 2 ^ e.2.size)) then .next (s.finish q seq 0x101 0)
      else
        let r := ps.foldl (fun (r : State × List Extent) e =>
          let u := r.1.unmapPage c e.1 e.2
          (u.1, r.2 ++ u.2)) (s, [])
        .next (r.1.invalidate q m ps.length r.2)

/-- UNMAPPED_FRAME_RETURN (R390): 20 ms after its UNMAP, an unmapped page's frames return to the free
pool. -/
def execUnmappedFrameReturn (c : CtxId) (frame : Nat) (s : State) : Out :=
  let x := s.ctx c.val
  .next (s.setCtx c.val { x with unmapped := x.unmapped.filter (fun u => u.ext.first ≠ frame) })

/-! ### Creation -/

/-- The parameters of a context's life (R417). -/
structure CtxParams where
  fn    : Nat
  slice : BitVec 16
  seed  : W64
  spb   : W64
  quota : W64
deriving DecidableEq, Repr

/-- A FREE entry becomes LIVE with an empty L1 table in frame `l1` (R418); none where the pool or the quota
cannot supply that frame. -/
def State.makeCtx (s : State) (c : Nat) (p : CtxParams) (l1 : Nat) : Option State :=
  if s.frameFree l1 && (decide (p.quota = 0) || decide (65536 ≤ p.quota.toNat)) then
    let x := s.ctx c
    some ((s.zeroFrames l1 1).setCtx c
      { st := .live, gen := x.gen, fn := p.fn, slice := p.slice, seed := p.seed, spb := p.spb,
        quota := p.quota, tabs := [l1], tabAt := (l1 + 1) * 65536, l1 := l1 * 65536, unmapped := x.unmapped })
  else none

/-- The ID that a CTX_CREATE takes, or the status that refuses it (R418). -/
def State.pickCtx (s : State) (id : Nat) (any : Bool) : Except Nat Nat :=
  if any then
    match (List.range 4096).find? (fun c => decide ((s.ctx c).st = .free)) with
    | some c => .ok c
    | none => .error 0x105
  else match (s.ctx id).st with
    | .free => .ok id
    | .destroying => .error 0x116
    | .live => .error 0x105

/-- CTX_CREATE (R413, R417, R418). `l1` is the frame that the steward takes for the L1 table. -/
def execCtxCreate (q : QueueId) (seq : W32) (l1 : Nat) (s : State) : Out :=
  match s.running q seq 9 with
  | none => .next s
  | some m =>
    if m.p 1 % 65536 ≠ 0 ∨ m.p 1 ≥ 0x80000000000 then .next (s.finish q seq 0x101 0)
    else match s.pickCtx (fieldOf (m.p 2) 11 0) (decide (fieldOf (m.p 2) 12 12 = 1)) with
      | .error st => .next (s.finish q seq st 0)
      | .ok c =>
        let slice : BitVec 16 := BitVec.ofNat 16 (fieldOf (m.p 2) 31 16)
        let p : CtxParams := ⟨m.fn, slice, BitVec.ofNat 64 (m.p 0), BitVec.ofNat 64 (m.p 1), BitVec.ofNat 64 (m.p 3)⟩
        match s.makeCtx c p l1 with
        | none => .next (s.finish q seq 0x106 0)
        | some s => .next (s.finish q seq 0 (c + (s.ctx c).gen.toNat * 4096))

/-! ### Teardown (Table 12-11) -/

/-- A panicle leaves a destroyed context (R420). -/
def State.unbindPan (s : State) (p : Nat) : State :=
  let s := s.stopPan p
  let s := (List.range 64).foldl (fun s k => s.setSpk (p * 64 + k) { s.spk (p * 64 + k) with bound := none }) s
  s.setPan p { s.pan p with bound := none, toClear := true }

/-- Translations and far waits of a context at a panicle are dropped (R204). -/
def State.dropCtxXl (s : State) (p : Nat) (ctx : BitVec 12) : State :=
  s.keepXl p (fun x => decide (x.ctx ≠ ctx))

/-- Queues of a context, and the commands that a master has forwarded for its queues. -/
def State.queuesOf (s : State) (ctx : BitVec 12) : List Nat :=
  (s.host.queues.filter (fun e =>
    !e.2.cfg.getLsbD 30 && decide (e.2.cfg.extractLsb' 12 12 = ctx))).map (fun e => e.1)

/-- Commands that stand in proxy queues of a context (R425). -/
def State.proxiesOf (s : State) (ctx : BitVec 12) : List (QueueId × HCmd) :=
  s.allCmds.filter (fun e => e.2.via.isSome && !e.2.admin && decide (e.2.ctx = ctx))

/-- Trees of a context. -/
def State.treesOf (s : State) (ctx : BitVec 12) : List (BitVec 8) :=
  (s.red.combiners.flatMap (fun e => (e.2.nodes.filter (fun n => n.ctx = ctx)).map (fun n => n.tree)) ++
   s.red.leaves.flatMap (fun e => (e.2.leaves.filter (fun n => n.ctx = ctx)).map (fun n => n.tree))).eraseDups

/-- Waits that requests of a context have registered go: their generation has ended. -/
def State.dropCtxWaits (s : State) (ctx : BitVec 12) : State :=
  { s with mem := { s.mem with waits := s.mem.waits.filter (fun w => match w.who with
    | .packet p => decide (p.ctx ≠ ctx)
    | .queue _ _ => true) } }

/-- Orders 1 to 3 of the teardown (Table 12-11). `owner` is the command that completes at its end. -/
def State.teardown (s : State) (c : Nat) (cause : BitVec 4) (owner : Option (QueueId × W32)) : State :=
  let ctx : BitVec 12 := BitVec.ofNat 12 c
  let x := s.ctx c
  let s := s.setCtx c { x with st := .destroying, gen := x.gen + 1, owner := owner }
  let s := (s.queuesOf ctx).foldl (fun s q => s.disableQueue q cause) s
  let s := (s.launches.filter (fun l => decide (l.ctx = ctx))).foldl (fun s l => s.stopLaunch l) s
  let s := (s.proxiesOf ctx).foldl (fun s e =>
    if s.launches.any (fun l => decide (l.queue = e.1) && decide (l.seq = e.2.seq)) then s
    else s.complete e.1 e.2.seq 0x104 e.2.got) s
  let mine := s.panKeys.filter (fun p => match (s.pan p).bound with
    | some o => decide (o.1 = ctx)
    | none => false)
  let s := mine.foldl (fun s p => s.unbindPan p) s
  let s := s.panKeys.foldl (fun s p => s.dropCtxXl p ctx) s
  let s := s.bndDestroy ctx
  let s := (s.treesOf ctx).foldl (fun s t => s.releaseTree t false) s
  let s := s.dropCtxWaits ctx
  { s with host := { s.host with farMisses := s.host.farMisses.filter (fun m => decide (m.ctx ≠ ctx)) } }

/-- CTX_DESTROY (R413, R419): an admin queue of a VF destroys its own function's contexts only. -/
def execCtxDestroy (q : QueueId) (seq : W32) (s : State) : Out :=
  match s.running q seq 0x0A with
  | none => .next s
  | some m =>
    let c := m.p 0 % 4096
    let x := s.ctx c
    if m.step ≠ 0 then .next s
    else match x.st with
      | .free => .next (s.finish q seq 0x103 0)
      | .destroying => .next (s.finish q seq 0x116 0)
      | .live =>
        if m.fn ≠ 0 ∧ m.fn ≠ x.fn then .next (s.finish q seq 0x102 0)
        else .next ((s.setCmd q { m with step := 1 }).teardown c 4 (some (q, seq)))

/-- Mover descriptors of a context that are left at the end of the drain go, and what waited for them goes on (Table
12-11, order 4). -/
def State.dropCtxMovs (s : State) (ctx : BitVec 12) : State :=
  s.panKeys.foldl (fun s p =>
    let pn := s.pan p
    let keep := fun (l : List MovDesc) => l.filter (fun m => decide (m.ctx ≠ ctx))
    s.setPan p { pn with movs := keep pn.movs, movPosts := keep pn.movPosts }) s |>.settleAll

/-- The frames that a destroyed context leaves. -/
def State.framesLeft (s : State) (c : Nat) : List Extent :=
  let x := s.ctx c
  let one := fun (f : Nat) => ({ first := f, count := 1 } : Extent)
  x.pages ++ x.tabs.map one ++ x.farPool.map one ++ x.unmapped.map (fun u => u.ext) ++
  (s.host.invals.filter (fun v => v.ctx.toNat = c)).flatMap (fun v => v.frames)

/-- CTX_DRAIN_DONE (R413, R419, Table 12-11, orders 4 and 5): the context's movers have drained, or 2 ms have
passed. A RESET_DOMAIN of the context then creates it again, with the L1 table in frame `l1` (Table
12-9). -/
def execCtxDrainDone (c : CtxId) (l1 : Nat) (s : State) : Out :=
  let x := s.ctx c.val
  let ctx : BitVec 12 := BitVec.ofNat 12 c.val
  if x.st ≠ .destroying then .next s
  else
    let fs := s.framesLeft c.val
    let bytes := fs.foldl (fun n e => n + e.count * 65536) 0
    let resetting := x.owner.bind (fun o => s.running o.1 o.2 0x12)
    let s := s.dropCtxMovs ctx
    let s := { s with host := { s.host with
      scrubs := s.host.scrubs ++ fs.map (fun e => (ctx, e))
      invals := s.host.invals.filter (fun v => decide (v.ctx ≠ ctx)) } }
    let s := s.setCtx c.val { gen := x.gen }
    match x.owner with
    | none => .next s
    | some (q, seq) =>
      match resetting with
      | none => .next (s.finish q seq 0 bytes)
      | some _ =>
        let p : CtxParams := { fn := x.fn, slice := x.slice, seed := x.seed, spb := x.spb, quota := x.quota }
        match s.makeCtx c.val p l1 with
        | none => .next (s.finish q seq 0x106 0)
        | some s => .next (s.finish q seq 0 0)

/-- CTX_SCRUB (R419, Table 12-11, order 6): the frames are zeroed and return to the free pool. -/
def execCtxScrub (c : CtxId) (s : State) : Out :=
  let ctx : BitVec 12 := BitVec.ofNat 12 c.val
  let mine := s.host.scrubs.filter (fun e => decide (e.1 = ctx))
  let s := mine.foldl (fun s e => s.zeroFrames e.2.first e.2.count) s
  .next { s with host := { s.host with scrubs := s.host.scrubs.filter (fun e => decide (e.1 ≠ ctx)) } }

/-! ### Functions (R422) -/

/-- LIVE contexts that a function owns; the PF stands for every function. -/
def State.ctxsOf (s : State) (fn : Nat) : List Nat :=
  (s.host.ctxs.filter (fun e => decide (e.2.st = .live) && (decide (fn = 0) || decide (e.2.fn = fn)))).map
    (fun e => e.1)

/-- FLR (R422): the function's contexts are destroyed and its queues disabled; for the PF, those of every
function, and the host ceiling is cleared (Table 16-1). -/
def execFlr (fn : Fin 64) (s : State) : Out :=
  let s := (s.ctxsOf fn.val).foldl (fun s c => s.teardown c 5 none) s
  let qs := (s.host.queues.filter (fun e => decide (fn.val = 0) || decide (fld e.2.cfg 5 0 = fn.val))).map
    (fun e => e.1)
  let s := qs.foldl (fun s q => s.disableQueue q 5) s
  .next (if fn = 0 then { s with pwr := { s.pwr with host := 0 } } else s)

end Sys2Proof.Machine
end

