-- ==== Sys2Proof/Machine/Detector.lean ====
section
/-! DEFINITION. The wait-cycle detector (R487 to R492). -/

namespace Sys2Proof.Machine

/-- The EC of the steward of the stook's master (R425, R491). -/
def State.masterEc (s : State) : Ec := ecOf (s.pkgOfIx s.stook.2) 0 0 0 0x7F

/-- Paths along held edges from a vertex to `goal`, by arrival numbers, each vertex once. -/
def pathsTo (es : List (Nat × Edge)) (goal : Vertex) : Nat → Vertex → List Vertex → List (List Nat)
  | 0, _, _ => []
  | n + 1, v, seen =>
    if v = goal then [[]]
    else es.flatMap (fun e =>
      if e.2.src = v ∧ ¬ seen.contains e.2.dst then
        (pathsTo es goal n e.2.dst (e.2.dst :: seen)).map (fun p => e.1 :: p)
      else [])

/-- An edge is recorded, unless 8,192 are held (R492); each cycle that it closes begins a hold (R489). -/
def State.recordEdge (s : State) (e : Edge) : State :=
  let d := s.det
  if d.edges.length ≥ 8192 then { s with det := { d with full := true } }
  else
    let paths := pathsTo d.edges e.src (d.edges.length + 1) e.dst [e.dst]
    let holds := paths.map (fun p => ({ closing := d.next, cycle := d.next :: p } : EdgeHold))
    { s with det := { d with
      edges := d.edges ++ [(d.next, e)], next := d.next + 1, holds := d.holds ++ holds } }

/-- An edge is removed, with the holds whose cycle it is part of (R489). -/
def State.removeEdge (s : State) (e : Edge) : State :=
  let d := s.det
  match d.edges.find? (fun x => x.2 = e) with
  | none => s
  | some (k, _) =>
    { s with det := { d with
      edges := d.edges.filter (fun x => x.1 ≠ k)
      holds := d.holds.filter (fun h => !h.cycle.contains k) } }

/-- What a member of a stook posts or removes goes to the master's detector too (R491). -/
def State.forwardEdge (s : State) (post : Bool) (e : Edge) : State :=
  if s.isMaster then s else s.sendStw s.masterEc (.edge post e)

/-- EDGE_POST (R487, R489, R491, R492). -/
def execEdgePost (e : Edge) (s : State) : Out :=
  let s := { s with det := { s.det with posts := s.det.posts.erase e } }
  .next ((s.recordEdge e).forwardEdge true e)

/-- EDGE_REMOVE (R487, R491): an edge that has not yet arrived is not recorded any more. -/
def execEdgeRemove (e : Edge) (s : State) : Out :=
  let d := s.det
  let s := { s with det := { d with removals := d.removals.erase e } }
  if d.posts.contains e then
    .next { s with det := { s.det with posts := s.det.posts.erase e } }
  else .next ((s.removeEdge e).forwardEdge false e)

/-- EDGE_REPOST (R492): a waiter posts its edge again; it is recorded unless it is held. -/
def execEdgeRepost (e : Edge) (s : State) : Out :=
  if s.det.edges.any (fun x => x.2 = e) then .next s
  else .next ((s.recordEdge e).forwardEdge true e)

/-- Panicles of the step of a context that runs on a tiller. -/
def State.stepPans (s : State) (t : Nat) (c : CtxId) : List Nat :=
  s.launches.flatMap (fun l =>
    if l.ctx.toNat = c.val ∧ l.running = true then
      match l.current with
      | some d => (d.panicles.map (·.val)).filter (fun p => tillerOfPan p = t)
      | none => []
    else [])

/-- Whether a vertex counts as waiting (R488). One of another member of the stook is known by its edges
only, and counts as waiting while they are held. -/
def State.vertexWaits (s : State) : Vertex → Bool
  | .cell _ _ _ => true
  | .queue pkg q =>
    decide (pkg ≠ s.fab.coord) ||
    (match (s.queue q.val).cmds with
     | c :: _ => decide (c.opcode = 6)
     | [] => false)
  | .step pkg t c =>
    decide (pkg ≠ s.fab.coord) ||
    (let ps := s.stepPans t.val c
     !ps.isEmpty &&
     s.cores.florets.all (fun e => !ps.contains (panOfSpk (spkOfFloret e.1)) ||
       (match e.2.status with
        | .idle => true
        | .waiting (.sync _ _) => true
        | _ => false)) &&
     s.cores.spikelets.all (fun e => !ps.contains (panOfSpk e.1) ||
       (e.2.latQ.isEmpty && e.2.drains.isEmpty)) &&
     ps.all (fun p => (s.pan p).movs.isEmpty && (s.pan p).movPosts.isEmpty))

/-- Edges of a hold's cycle. -/
def State.cycleOf (s : State) (h : EdgeHold) : List Edge :=
  (s.det.edges.filter (fun x => h.cycle.contains x.1)).map (·.2)

/-- The code of a vertex's kind (Table 15-20). -/
def vertexKind : Vertex → BitVec 3
  | .queue _ _ => 0
  | .step _ _ _ => 1
  | .cell _ _ _ => 2

/-- FLT_KNOT_EDGE for the vertex of an edge that is a queue or a step (Table 15-15). -/
def vertexWord : Vertex → Option (BitVec 16)
  | .queue _ q => some (BitVec.ofNat 16 q.val)
  | .step _ t c => some (BitVec.ofNat 16 (t.val * 2 ^ 13 + c.val))
  | .cell _ _ _ => none

/-- Package-local address of a cell: a virtual one goes through the tables of its context. -/
def State.cellLocal (s : State) : Vertex → Option Local
  | .cell _ c a =>
    match ctxAddr a.toNat with
    | .virtual => match s.walk (BitVec.ofNat 12 c.val) a.toNat with
      | .leaf l => some (BitVec.ofNat 44 (pteAddr l.pte + a.toNat % 2 ^ l.size))
      | .refuse _ => some a
    | _ => some a
  | _ => none

/-- A KNOT is recorded (Tables 15-20, 15-21): the first stays. An edge between steps has no cell, and
what the cell registers then show is open. -/
def State.recordKnot (s : State) (e : Edge) (owners : List (BitVec 12)) : State :=
  let k := s.det.knot
  if k.valid then { s with det := { s.det with knot := { k with ovf := true } } }
  else
    let own : BitVec 12 := BitVec.ofNat 12 e.owner.val
    let all := own :: (owners.eraseDups.filter (· ≠ own))
    let word := match vertexWord e.src with
      | some w => w
      | none => (vertexWord e.dst).getD 0
    let cell := match s.cellLocal e.src with
      | some a => some a
      | none => s.cellLocal e.dst
    let (v, s) := match cell with
      | some a => (a, s)
      | none => let (w, s) := s.draw; (w.setWidth 44, s)
    { s with det := { s.det with knot :=
      { valid := true, ovf := k.ovf || decide (all.length > 8), src := vertexKind e.src, dst := vertexKind e.dst
        ctx := own, ctxs := all.take 8, edge := word, cell := v } } }

/-- The owner of a closing edge is faulted (R490): its queues stop with CAUSE 3 and their commands
complete with ABORTED; its running steps are cancelled. -/
def State.faultOwner (s : State) (c : BitVec 12) : State :=
  let s := (s.queuesOf c).foldl (fun s q =>
    if (s.queue q).live then s.stopQueue q 3 else s) s
  (s.launches.filter (fun l => l.ctx = c)).foldl (fun s l => s.stopLaunch l) s

/-- KNOT (R489, R490): the hold that edge `e` began has lasted 1 ms with every vertex waiting. A hold on a vertex that has
stopped waiting in the meantime has ended already. -/
def execKnot (e : Edge) (s : State) : Out :=
  match s.det.edges.find? (fun x => decide (x.2 = e) && s.det.holds.any (fun h => h.closing = x.1)) with
  | none => .next s
  | some (k, _) =>
    let mine := s.det.holds.filter (fun h => h.closing = k)
    let good := mine.filter (fun h => (s.cycleOf h).all (fun x => s.vertexWaits x.src && s.vertexWaits x.dst))
    let s := { s with det := { s.det with holds := s.det.holds.filter (fun h => h.closing ≠ k) } }
    if good.isEmpty then .next s
    else
      let own : BitVec 12 := BitVec.ofNat 12 e.owner.val
      let owners := good.flatMap (fun h => (s.cycleOf h).map (fun x => BitVec.ofNat 12 x.owner.val))
      let s := s.recordKnot e owners
      let s := s.log 0x0404 2 (some own) (s.stewardEc 0) 0 own.toNat
      .next (s.faultOwner own)

/-- KNOT_INFO_CLEAR (R506, Table 15-20): VALID goes, and FLT_KNOT_CTX with it. -/
def execKnotInfoClear (s : State) : Out :=
  .next { s with det := { s.det with knot := { s.det.knot with valid := false, ctxs := [] } } }

end Sys2Proof.Machine
end

