-- ==== Sys2Proof/Machine/Requester.lean ====
section
/-! DEFINITION. What requesters learn: replies, peers that are unreachable, steward messages, and grants
that stall (R226, R49, R334, R335, R425, R426, R491). -/

namespace Sys2Proof.Machine

/-! ### Replies -/

/-- The descriptor of a mover that awaits a reply under an RTAG: its place and that place's use parity (R335). -/
def Panicle.awaits (pn : Panicle) (rtag : BitVec 9) : Option MovDesc :=
  pn.movs.find? (fun m => decide (m.tag = fld rtag 7 0) && decide (pn.movParity.getLsbD m.tag = rtag.getLsbD 8) &&
    decide (m.out ≠ 0))

/-- A reply to a panicle mover (R158, R335): a failed transfer fails its descriptor. -/
def State.moverReply (s : State) (pkt : Packet) : State :=
  let p := ecPanIx pkt.dst
  if s.ctxStale pkt then s.chaffCtx (8 + tillerOfPan p) else
  match (s.pan p).awaits pkt.rtag with
  | none => s
  | some m => if pkt.status = 0 then s.movGoOn p m else s.movBroke p m

/-- REPLY (R315, R335, R483): by the function of the EC that it goes to. Steward messages, stream sequencers and
controllers ask for their domain. -/
def execReply (pkt : Packet) (s : State) : Out :=
  let s := s.consume pkt
  let fn := ecFn pkt.dst
  if fn < 16 then .next (s.floretReply pkt)
  else if fn = 0x41 then .next (s.moverReply pkt)
  else if fn = 0x7F then .next (if pkt.op.toNat % 128 = 0x50 then s.unitReply 0 pkt else s.stewReply pkt)
  else if fn = 0x60 then .next (s.unitReply (8 + ecTil pkt.dst) pkt)
  else if 0x50 ≤ fn ∧ fn < 0x53 then .next (s.unitReply (16 + ecTil pkt.dst * 3 + (fn - 0x50)) pkt)
  else .next s

/-! ### Retries -/

/-- The members that a master's commands still wait for, in commands that it has sent to one of them, fail
with UNREACHABLE (R426). -/
def State.memberLost (s : State) (m : Fin 64) : State :=
  (s.allCmds.filter (fun e => e.2.via.isNone && e.2.away.contains m)).foldl (fun s e =>
    s.memberDone e.1 e.2.seq m 0x10E 0) s

/-- The work of a request that did not go through fails at the florets, movers and bundles of this package
(R138, R334, R376): with `fault` for a floret, `code` for a bundle. -/
def State.workLost (s : State) (p : Packet) (fault code : Nat) : State :=
  let fn := ecFn p.src
  if 0x20 ≤ p.op.toNat ∧ p.op.toNat ≤ 0x2F then s.bndLost p code
  else if p.kind ≠ 0 then s
  else if fn < 16 then
    let i := ecSpkIx p.src
    let n := fld p.rtag 7 0
    match (s.spk i).slot n with
    | some x =>
      if x.stage = .sent ∧ p.rtag.getLsbD 8 = (s.spk i).parity.getLsbD n then (s.failRop i n x fault).pump i else s
    | none => s
  else if fn = 0x41 then
    let q := ecPanIx p.src
    match (s.pan q).awaits p.rtag with
    | some m => s.movBroke q m
    | none => s
  else s

/-- The work of one unacknowledged packet to an unreachable peer fails (R334, R376). The reply status of a
command's access that got no reply is open. -/
def State.packetLost (s : State) (p : Packet) : State :=
  if p.op = 0x50 then s
  else if p.kind = 0 ∧ ecFn p.src = 0x7F then
    match s.host.stwReqs.find? (fun r => r.1 = p.rtag.toNat) with
    | some (tag, q, seq) =>
      let (v, s) := s.draw
      s.tagDone tag q seq (2 + v.toNat % 254)
    | none => s
  else s.workLost p 0x28 0x06

/-- Packets in ascending order of the EC that sent them: of the florets of a spikelet that fail at once, the lowest is
recorded (R167). -/
def bySrc (l : List Packet) : List Packet :=
  l.foldr (fun p t => t.takeWhile (fun q => decide (q.src.toNat < p.src.toNat)) ++
    p :: t.dropWhile (fun q => decide (q.src.toNat < p.src.toNat))) []

/-- RETRY_TIMER (R334): the oldest unacknowledged packet has had no acknowledgement for 1 ms. After the
third retry the peer is unreachable: what was sent to it fails, commands forwarded
to it among that (R426), and the entry goes. -/
def execRetryTimer (ep : EpId) (peer : Ec) (s : State) : Out :=
  let key := peerKey peer
  match s.peer ep.val key with
  | none => .next s
  | some x =>
    match x.unacked with
    | [] => .next s
    | p :: _ =>
      if x.retries < 3 then
        let s := (s.setPeer { x with retries := x.retries + 1 }).resend ep.val key p.tseq
        .next (s.countTp ep.val (fun c => { c with tpRetry := satAdd c.tpRetry 1 }))
      else
        let s := (s.dropPeer ep.val key).countTp ep.val (fun c => { c with tpUnreach := satAdd c.tpUnreach 1 })
        let s := (bySrc x.unacked).foldl (fun s q => s.packetLost q) s
        let s := if ep.val = 1568 ∧ ecFn key = 0x7F then
          s.memberLost (Fin.ofNat 64 (coordIx (ecPkg key))) else s
        .next (s.unstall ep.val)

/-! ### Steward messages -/

/-- STEWARD_MSG (R424, R425, R491): a forwarded command enters its proxy queue, a completion reaches the
master, an edge its detector. Any other payload is Camnik firmware's. With 4,096 commands in flight a forwarded one waits
(R28, R425). -/
def execStewardMsg (pkt : Packet) (m : StwMsg) (s0 : State) : Out :=
  let s := (s0.consume pkt).reply pkt 0 0
  match m with
  | .forward src q seq cfg bytes =>
    if 4096 ≤ s0.inflight then .next s0 else
    let gen := (s.ctx (cfg.extractLsb' 12 12).toNat).gen
    .next (s.addCmd q.val { seq := seq, bytes := bytes, cfg := cfg, gen := gen, via := some src })
  | .completion q seq member status result =>
    match s.cmd q seq with
    | some c =>
      if c.via.isNone && c.away.contains member then .next (s.memberDone q seq member status result)
      else .next s
    | none => .next s
  | .edge post e =>
    if s.isMaster then .next (if post then s.recordEdge e else s.removeEdge e) else .next s
  | .firmware _ _ | .absent _ _ => .next s

/-! ### Stalled grants -/

/-- A stalled grant of a bank (R49): it is withdrawn, and the operation that it was for fails: a lattice operation, a
drain, a mover's descriptor, an incoming request, a panicle reduction, or the florets' oldest access. -/
def State.bankStall (s : State) (i : SpkId) : State :=
  match s.withdraw (.bank i) with
  | (s, none) => s
  | (s, some g) =>
    let sp := s.spk i.val
    match g.aim, g.who with
    | .latOp k, _ => s.failLat i.val k 0x09
    | .latDrain n, _ => match sp.drains.find? (fun d => d.order = n) with
      | some d => s.failDrain i.val d 0x09
      | none => s
    | .mov p id, _ => match s.mov p id with
      | some m => s.movBroke p m
      | none => s
    | .pkt q, _ => if s.fab.delivered.contains q then (s.consume q).reply q 7 0 else s
    | .red tag, _ => match (s.pan (panOfSpk i.val)).red tag with
      | some r =>
        let p := panOfSpk i.val
        let s := s.setPan p { s.pan p with reds := (s.pan p).reds.filter (fun q => q.1 ≠ tag) }
        s.raiseRun (spkOfFloret r.poster.val) (floretNo r.poster.val) r.run .lattice 0x09 r.pc 0
      | none => s
    | _, 2 => match sp.bankQ with
      | r :: t =>
        ((s.setSpk i.val { sp with bankQ := t }).dropRest i.val r).raise i.val r.floret .sync 0x09 r.pc
          (BitVec.ofNat 64 r.off)
      | [] => s
    | _, _ => s

/-- BANK_GRANT_STALL (R49). -/
def execBankGrantStall (i : SpkId) (s : State) : Out := .next (s.bankStall i)

/-- A stalled grant of a pseudo-channel (R226, Table 6-2): the requests that it was for complete with TIMEOUT, which
names their context, and the stall is recorded as KIND 01; a scrub read, a write-back or a refresh has no requester to
fail. -/
def State.channelStall (s : State) (n : StackId) (pc : Fin 64) : State :=
  match s.withdraw (.hbm n pc) with
  | (s, none) => s
  | (s, some g) =>
    let ids := match g.aim with
      | .lines ids => ids
      | _ => []
    let os := (s.stack n.val).openReqs.filter (fun o => ids.contains o.id)
    let k := s.stack n.val
    let k := if k.errValid then { k with errOvf := true }
      else { k with errValid := true, errKind := 1, errPc := BitVec.ofNat 6 pc.val,
                    errCtx := match os with
                      | o :: _ => o.req.ctx
                      | [] => 0 }
    os.foldl (fun s o => (s.setStack n.val ((s.stack n.val).reply o.id o.req.ctx 7 [])).grnClose n o.id)
      (s.setStack n.val k)

/-- The requester of a panicle's injection arbiter that a packet belongs to (Table 7-3). -/
def injClass (p : Packet) : Nat :=
  let op := p.op.toNat
  if p.kind = 1 then 0
  else if 0x30 ≤ op ∧ op ≤ 0x3F then 3
  else if p.kind ≠ 2 ∧ (0x20 ≤ op ∧ op ≤ 0x2F ∨ ecFn p.src < 16 ∧ op ≠ 0x11) then 1
  else 2

/-- Whether a packet is one of a panicle's injection class. -/
def State.injects (s : State) (p r : Nat) (q : Packet) : Bool :=
  decide (ecPkg q.src = s.fab.coord) && decide (ecFn q.src < 0x50) && decide (ecPanIx q.src = p) && decide (injClass q = r)

/-- The packet whose injection has stalled: the one of the holder's class that was granted last. -/
def State.injPkt (s : State) (p r : Nat) : Option Packet :=
  ((s.arb (.inject (Fin.ofNat 1536 p))).given.filter (fun q => s.injects p r q && s.fab.sent.contains q)).getLast?

/-- The operation of a packet whose injection was withdrawn fails with INJ_STALL (R259). No table gives that
status a number: it is an open one, not 0. A reply or an acknowledgement is no operation of its panicle. -/
def State.injFail (s : State) (p : Packet) : State :=
  let (v, s) := s.draw
  let code := 1 + v.toNat % 255
  if p.op = 0x30 ∧ ecFn p.src = 0x41 then s.chunkFail (ecPanIx p.src) (pktKey p) code
  else s.workLost p code code

/-- The stall watchdog of an injection arbiter (R259): the grant is withdrawn, STALL is set, the packet ends
with an aborted tail that its destination discards, and its source's operation fails. -/
def State.injStall (s : State) (p : PanId) : State :=
  match s.withdraw (.inject p) with
  | (s, none) => s
  | (s, some g) =>
    let s := s.setPanArb p.val { s.panArb p.val with stall := true }
    match s.injPkt p.val g.who with
    | some q => (s.takePkt q).injFail q
    | none => s

/-- INJ_STALL (R259). -/
def execInjStall (p : PanId) (s : State) : Out := .next (s.injStall p)

/-- GRANT_STALL_WATCHDOG (R226, Table 6-2): the grant is withdrawn and its holder's operation fails, as the
instance's own rule says. -/
def execGrantStallWatchdog (a : ArbId) (s : State) : Out :=
  match a with
  | .bank i => .next (s.bankStall i)
  | .hbm n pc => .next (s.channelStall n pc)
  | .inject p => .next (s.injStall p)
  | .sheaf w => .next (s.sheafStall w)

end Sys2Proof.Machine
end

