-- ==== Sys2Proof/Machine/Gleaner.lean ====
section
/-! DEFINITION. Dumps: the gleaner's reads, shadows, the dump region and its summary (R493 to R499). -/

namespace Sys2Proof.Machine

/-- A dump begins (R493); one that runs absorbs it (R560). -/
def State.startDump (s : State) (trigger : BitVec 16) : State :=
  if s.glean.running then s
  else { s with glean := { s.glean with running := true, trigger := trigger, start := s.refcnt, recs := [] } }

/-- A dump header (Table 15-10). -/
def dumpHeader (recs : Nat) (incomplete : Bool) (start stop : W64) (trigger : BitVec 16)
    (failed : BitVec 24) : List Byte :=
  toLE 4 1 ++ toLE 4 (recs % 65536 + (if incomplete then 2 ^ 31 else 0)) ++ toLE 8 start.toNat ++
  toLE 8 stop.toNat ++ toLE 4 trigger.toNat ++ toLE 4 failed.toNat

/-- A unit's record with its header (Table 15-10). -/
def DumpRec.bytesOf (r : DumpRec) : List Byte :=
  toLE 4 r.item ++ toLE 4 r.status ++ toLE 8 r.time.toNat ++ toLE 8 r.unit.toNat ++
  toLE 4 r.bytes.length ++ toLE 4 0 ++ r.bytes

/-- Bytes written to the dump region, but for those on stacks whose writes fail (R498). -/
def State.dumpWrite (s : State) (failed : BitVec 24) : Nat → List Byte → State
  | _, [] => s
  | a, b :: bs =>
    let s := if failed.getLsbD (hashPa a).1 then s else s.write a [b]
    s.dumpWrite failed (a + 1) bs

/-- The dump so far is written to its region (R498). -/
def State.putDump (s : State) (incomplete : Bool) (failed : BitVec 24) : State :=
  let g := s.glean
  let bytes := dumpHeader g.recs.length incomplete g.start s.refcnt g.trigger failed ++
    g.recs.flatMap (fun r => r.bytesOf)
  let s := s.dumpWrite failed Config.dumpAddr bytes
  { s with glean := { s.glean with running := false, valid := true, length := bytes.length } }

/-- The registers of a KNOT as words (Table 15-15). -/
def State.knotWords (s : State) : List W32 :=
  let k := s.det.knot
  let info := (if k.valid then 2 ^ 31 else 0) + (if k.ovf then 2 ^ 30 else 0) + k.src.toNat * 2 ^ 27 +
    k.dst.toNat * 2 ^ 24 + k.ctx.toNat * 2 ^ 12 + k.ctxs.length
  [BitVec.ofNat 32 info, k.edge.setWidth 32, k.cell.setWidth 32, (k.cell >>> 32).setWidth 32] ++
  (List.range 8).map (fun i => match k.ctxs[i]? with
    | some c => BitVec.ofNat 32 (2 ^ 31 + c.toNat)
    | none => 0)

/-- The 4 KiB summary of a dump (R499): the header, a line for each unresponsive unit, the record of a KNOT.
How a KNOT is written is not in the source: its registers in order (assumption 14); what follows is open. -/
def State.dumpSummary (s : State) (incomplete : Bool) (failed : BitVec 24) : List Byte × State :=
  let g := s.glean
  let lines := (g.recs.filter (fun r => r.status = 1)).flatMap (fun r => toLE 8 r.unit.toNat)
  let knot := if s.det.knot.valid then s.knotWords.flatMap (fun w => toLE 4 w.toNat) else []
  let body := dumpHeader g.recs.length incomplete g.start s.refcnt g.trigger failed ++ lines ++ knot
  let (pad, s) := s.drawBytes (4096 - body.length)
  ((body ++ pad).take 4096, s)

/-- A DUMP command's copy of the dump region to its host buffer (Table 12-8). -/
def State.copyDump (s : State) (q : QueueId) (c : HCmd) : State :=
  if s.hostGone c then s.finish q c.seq 0x109 0
  else
    let n := if s.glean.valid then Nat.min (c.p 2) s.glean.length else 0
    (s.hostPut c.via c.fn (c.p 1) (s.read Config.dumpAddr n)).finish q c.seq 0 n

/-- The summary of a dump is in place: GLEAN_DONE is logged and the PF gets its vector 1 (R499). -/
def State.dumpDone (s : State) (summary : List Byte) (silent : Nat) : State :=
  State.log { s with
    glean := { s.glean with summary := summary }
    host := { s.host with msix := s.host.msix ++ [(0, 1)] } } 0x0803 0 none (s.stewardEc 0) 0 (silent % 65536)

/-- The DUMP commands that wait for a dump take their copies of it (Table 12-8). -/
def State.serveDumps (s : State) : State :=
  s.glean.waiting.foldl (fun (s : State) (w : QueueId × W32) => match s.running w.1 w.2 0x11 with
    | some c => s.copyDump w.1 c
    | none => s) { s with glean := { s.glean with waiting := [] } }

/-- A dump ends (R498, R499): it is written with its summary, and the DUMP commands that wait for it are served. -/
def State.endDump (s : State) (incomplete : Bool) (failed : BitVec 24) : State :=
  let silent := (s.glean.recs.filter (fun r => r.status = 1)).length
  let r := s.dumpSummary incomplete failed
  ((r.2.putDump incomplete failed).dumpDone r.1 silent).serveDumps

/-- A dump that is ended at once, by a thermal trip or after 150 ms: its header shows INCOMPLETE (R493, assumption
118). -/
def State.cutDump (s : State) : State := if s.glean.running then s.endDump true 0 else s

/-- DUMP (R413, R493): the last dump is copied, or one is taken and then copied. -/
def execDump (q : QueueId) (seq : W32) (s : State) : Out :=
  match s.running q seq 0x11 with
  | none => .next s
  | some c =>
    if c.p 0 % 2 = 0 then .next (s.copyDump q c)
    else if s.glean.waiting.contains (q, seq) then .next s
    else
      let s := s.startDump 0xFFFF
      .next { s with glean := { s.glean with waiting := s.glean.waiting ++ [(q, seq)] } }

/-- Whether the dump under way has found a unit unresponsive (R496). -/
def Gleaner.skips (g : Gleaner) (unit : Ec) : Bool :=
  g.recs.any (fun r => decide (r.unit = unit) && decide (r.status = 1))

/-- What the debug port reads (R45, R52): a row of a bank of this package as it stands, whatever its shadow bit; of any
other unit what it answers. -/
def State.debugRead (s : State) (unit : Ec) (data : GleanData) : List Byte :=
  match data.row with
  | some r =>
    if ecFn unit = 0x10 ∧ ecPkg unit = s.fab.coord then s.bankRead (ecSpkIx unit) (128 * r.val) 128 else data.bytes
  | none => data.bytes

/-- Whether the dump under way collects an item of a unit (R494, Table 15-9): the hub's items in every dump; the others of
a domain's own units before its reset, of every unit otherwise. -/
def State.collects (s : State) (item : Nat) (unit : Ec) : Bool :=
  let t := s.glean.trigger.toNat
  let all := decide (t = 0xFFFF) || decide (t = 0)
  match item with
  | 1 | 2 | 3 => true
  | 4 | 5 => all || decide (t = 0x10 + ecTil unit)
  | 6 => all || (List.range 24).any (fun n => decide (t = 0x20 + n) && decide (unit = s.stackEc n))
  | 7 => all || decide (t = 1)
  | _ => false

/-- Whether a read of a unit belongs to the dump under way (R494, R496). -/
def State.gleans (s : State) (item : Nat) (unit : Ec) : Bool :=
  s.glean.running && !s.glean.skips unit && s.collects item unit

/-- GLEAN_READ (R494, R497): a unit's answer is recorded. -/
def execGleanRead (item : Fin 8) (unit : Ec) (whole : Bool) (data : GleanData) (s : State) : Out :=
  let g := s.glean
  if !s.gleans item.val unit then .next s
  else
    let r : DumpRec := { item := item.val, status := if whole then 0 else 2, time := s.refcnt,
                         unit := unit, bytes := s.debugRead unit data }
    .next { s with glean := { g with recs := g.recs ++ [r] } }

/-- GLEAN_UNRESPONSIVE (R496): the unit's last shadow is recorded; where it has sent none, the shadow's time
and contents are open. -/
def execGleanUnresponsive (item : Fin 8) (unit : Ec) (s : State) : Out :=
  if !s.gleans item.val unit then .next s
  else
    let last := s.glean.shadows.find? (fun x => x.unit = unit)
    let r : DumpRec × State := match last with
      | some x => ({ item := item.val, status := 1, time := x.time, unit := unit, bytes := x.bytes }, s)
      | none =>
        let (t, s) := s.draw
        let (bs, s) := s.drawBytes 64
        ({ item := item.val, status := 1, time := t, unit := unit, bytes := bs }, s)
    .next { r.2 with glean := { r.2.glean with recs := r.2.glean.recs ++ [r.1] } }

/-- UNIT_SHADOW (R496). -/
def execUnitShadow (unit : Ec) (bytes : List Byte) (s : State) : Out :=
  let x : Shadow := { unit := unit, time := s.refcnt, bytes := slice bytes 0 64 }
  .next { s with glean := { s.glean with
    shadows := s.glean.shadows.filter (fun y => y.unit ≠ unit) ++ [x] } }

/-- DUMP_COMPLETE (R498, R499): `failed` are the stacks on which writes to the region failed. -/
def execDumpComplete (failed : BitVec 24) (s : State) : Out :=
  .next (if s.glean.running then s.endDump false failed else s)

end Sys2Proof.Machine
end

