-- ==== Sys2Proof/Machine/Power.lean ====
section
/-! DEFINITION. Power contract and thermal management (chapter 16, R237). -/

namespace Sys2Proof.Machine

/-! ### Ceilings (R507 to R514) -/

/-- Table 0-1: core clock ceiling in MHz and TDP in W of an SKU code. -/
def skuRow : Nat → Option (Nat × Nat)
  | 1 => some (1400, 2800)
  | 2 => some (1250, 2200)
  | 3 => some (1050, 1600)
  | _ => none

/-- A limit of the configuration generation, no higher than its SKU's (R2, R4). A code that Table 0-1 does not list keeps the
generation's own limit. -/
def CfgGen.limit (c : CfgGen) (own : Nat) (row : Nat × Nat → Nat) : Nat :=
  match skuRow c.sku.toNat with
  | some r => Nat.min own (row r)
  | none => own

/-- TDP in W (R2). -/
def State.tdp (s : State) : Nat := s.sec.cfg.limit s.sec.cfg.tdp.toNat (·.2)

/-- Flow of 70 %, 75 % and 20 % of the rated 3.0 L/min, in units of 0.05 L/min (R533, R534). -/
def flow70 : Nat := 42
/-- Flow of 75 % of rated. -/
def flow75 : Nat := 45
/-- Flow of 20 % of rated. -/
def flow20 : Nat := 12

/-- The cooling-degraded value of the thermal emergency floor (R533). -/
def State.degradedFloor (s : State) : Nat :=
  let c := s.pwr.coolant
  let byFlow := if c.flow.toNat < flow70 then s.tdp * c.flow.toNat / flow70 else s.tdp
  let byInlet := if c.inlet.toNat > 40 then s.tdp * (60 - c.inlet.toNat) / 20 else s.tdp
  Nat.min byFlow byInlet

/-- The thermal emergency floor while it is active (Table 16-1). -/
def State.thermalFloor (s : State) : Option Nat :=
  match s.pwr.degraded, s.pwr.emergency with
  | false, false => none
  | true, false => some s.pwr.degradedW
  | false, true => some (s.tdp / 4)
  | true, true => some (Nat.min s.pwr.degradedW (s.tdp / 4))

/-- The entry of the cap schedule with number `i`, where it holds a cap (R511). -/
def State.capEntry (s : State) (i : Nat) : Option Nat :=
  match s.pwr.sched[i]? with
  | some v => if v = 0xFFFF then none else some v.toNat
  | none => none

/-- The orphan cap in W (Table 16-1). -/
def State.orphanW (s : State) : Nat := s.sec.cfg.orphan.toNat * s.tdp / 100

/-- A ceiling below 20 % of TDP is treated as 20 % of TDP (R508). -/
def State.floor20 (s : State) (w : Nat) : Nat := Nat.max w (s.tdp / 5)

/-- The active ceilings with their GOVERN codes, in code order, when the rack cap is `rack` (Table 16-1). -/
def State.ceilings (s : State) (rack : Option Nat) : List (Nat × Nat) :=
  let opt := fun (c : Nat) (w : Option Nat) => match w with
    | some v => [(c, s.floor20 v)]
    | none => []
  [(0, s.tdp)] ++ opt 1 rack ++
  opt 2 (if s.pwr.host = 0 then none else some s.pwr.host.toNat) ++
  opt 3 (if s.pwr.orphan then some s.orphanW else none) ++ opt 4 s.thermalFloor

/-- The lowest of some ceilings, with the lower code where two are equal (R507). -/
def lowest (l : List (Nat × Nat)) (tdp : Nat) : Nat × Nat :=
  l.foldl (fun (m : Nat × Nat) e => if e.2 < m.2 then e else m) (0, tdp)

/-- The governing ceiling and the effective limit (R29, R507). -/
def State.governing (s : State) : Nat × Nat := lowest (s.ceilings (s.capEntry s.pwr.entry)) s.tdp

/-- The effective limit in W. -/
def State.limit (s : State) : Nat := s.governing.2

/-- CAP_ENTRY_BOUNDARY (R512, R513). -/
def execCapEntryBoundary (s : State) : Out :=
  if s.pwr.sched.isEmpty then .next s
  else .next { s with pwr := { s.pwr with entry := Nat.min 15 (s.pwr.entry + 1) } }

/-- TRAY_SILENCE (R510): 30 s without a valid tray message. -/
def execTraySilence (s : State) : Out :=
  if s.mgt.silent then .next s
  else
    let s := { s with
      mgt := { s.mgt with silent := true }
      pwr := { s.pwr with orphan := true } }
    .next (s.log 0x0703 1 none (s.stewardEc 0) 0 s.orphanW)

/-- POWER_SCHEDULE (R416, R509): the host's value is kept as written; CAPPED where it exceeds the lowest of
the other active ceilings. -/
def execPowerSchedule (q : QueueId) (seq : W32) (s : State) : Out :=
  match s.running q seq 0x0F with
  | none => .next s
  | some c =>
    let v : BitVec 16 := BitVec.ofNat 16 (c.p 0)
    let others := (s.ceilings (s.capEntry s.pwr.entry)).filter (fun e => e.1 ≠ 2)
    let low := (lowest others s.tdp).2
    let s := { s with pwr := { s.pwr with host := v } }
    .next (s.finish q seq (if v ≠ 0 ∧ low < v.toNat then 1 else 0) s.limit)

/-! ### Enforcement (R515 to R522) -/

/-- Core clock ceiling of the SKU in kHz (R2). -/
def State.maxClk (s : State) : Nat := s.sec.cfg.limit s.sec.cfg.fmax.toNat (·.1) * 1000

/-- The emergency clock in kHz (Table 16-2). -/
def State.emergencyClk (s : State) : Nat := s.maxClk / 4

/-- F_cap in kHz (R518). -/
def State.fcap (s : State) : Nat := s.maxClk - s.pwr.drop

/-- P_base in W (R519). -/
def State.pBase (s : State) : Nat := s.pwr.pBase.getD (s.tdp * 15 / 100)

/-- POWER_SAMPLE (R515): ten samples of 10 µs make a 100 µs average. -/
def execPowerSample (watts : Nat) (s : State) : Out :=
  let p := s.pwr
  let l := watts :: p.samples
  if l.length < 10 then .next { s with pwr := { p with samples := l } }
  else
    let avg := l.foldl (· + ·) 0 / l.length
    .next { s with pwr := { p with samples := [], avgs := (avg :: p.avgs).take 100 } }

/-- The last 100 µs average in W. -/
def Power.avg100 (p : Power) : Nat := p.avgs.headD 0

/-- The 10 ms rolling average in W. -/
def Power.avg10 (p : Power) : Nat :=
  if p.avgs.isEmpty then 0 else p.avgs.foldl (· + ·) 0 / p.avgs.length

/-- The F_cap, in kHz, that brings the estimate of R518 within the limit: whole steps of 50 MHz, not below
the emergency clock (R520). -/
def State.fcapFor (s : State) (p limit : Nat) : Nat :=
  let b := s.pBase
  if p ≤ b ∨ limit ≤ b then s.emergencyClk
  else
    let f := s.fcap * (limit - b) / (p - b)
    Nat.max s.emergencyClk (f / 50000 * 50000)

/-- FCAP_UPDATE (R518, R520): a 100 µs average above the limit lowers F_cap; at the emergency clock the
granary is throttled, and then CAP_UNMET is raised, once per episode. -/
def execFcapUpdate (s : State) : Out :=
  let p := s.pwr.avg100
  let l := s.limit
  if p ≤ l then .next { s with pwr := { s.pwr with unmet := false } }
  else if s.fcap > s.emergencyClk then
    .next { s with pwr := { s.pwr with drop := s.maxClk - Nat.min s.fcap (s.fcapFor p l) } }
  else if s.pwr.grnThrottle = false then
    .next { s with pwr := { s.pwr with grnThrottle := true } }
  else if s.pwr.unmet then .next s
  else
    let s := { s with pwr := { s.pwr with unmet := true, capUnmet := true } }
    .next (s.log 0x0702 1 none (s.stewardEc 0) 0 (l % 65536 + 65536 * (p % 65536)))

/-- FCAP_RAISE (R518, R520): one step, where the estimate stays within the limit; the granary throttle ends
with it. -/
def execFcapRaise (s : State) : Out :=
  if s.pwr.drop = 0 then .next s
  else
    let drop := (s.pwr.drop - 1) / 50000 * 50000
    let f : Int := s.fcap
    let f' : Int := s.maxClk - drop
    let b : Int := s.pBase
    let p : Int := s.pwr.avg100
    let l : Int := s.limit
    if b * f + (p - b) * f' ≤ l * f then
      .next { s with pwr := { s.pwr with drop := drop, grnThrottle := false } }
    else .next s

/-- Whether a command of some queue runs. -/
def State.anyRunning (s : State) : Bool := s.allCmds.any (fun e => e.2.started)

/-- P_BASE_UPDATE (R519): the 1 s average of a second in which no command ran. -/
def execPBaseUpdate (watts : Nat) (s : State) : Out :=
  if s.anyRunning then .next s else .next { s with pwr := { s.pwr with pBase := some watts } }

/-- FAST_THROTTLE_RELEASE (R522): 1 ms after deassertion. -/
def execFastThrottleRelease (s : State) : Out :=
  if s.pwr.ftAsserted then .next s else .next { s with pwr := { s.pwr with ftActive := false } }

/-! ### Zones and clocks (R521, R527 to R532) -/

/-- Zone `z`. -/
def State.zone (s : State) (z : Nat) : Zone := Tab.get {} s.pwr.zones z

/-- Write a zone. -/
def State.setZone (s : State) (z : Nat) (v : Zone) : State :=
  { s with pwr := { s.pwr with zones := Tab.set {} s.pwr.zones z v } }

/-- A zone without a trusted sensor (R529). -/
def Zone.blind (x : Zone) : Bool := x.suspA && x.suspB

/-- A zone's control temperature in 0.125 °C (R528); none where both sensors are suspect. -/
def Zone.ctl (x : Zone) : Option Int :=
  match x.suspA, x.suspB with
  | false, false => some (max x.ta.toInt x.tb.toInt)
  | false, true => some x.ta.toInt
  | true, false => some x.tb.toInt
  | true, true => none

/-- Whether a zone reads at least a temperature in 0.125 °C. -/
def Zone.atLeast (x : Zone) (t : Int) : Bool :=
  match x.ctl with
  | some c => decide (t ≤ c)
  | none => false

/-- Tiller of a zone (R19). -/
def zoneTiller (z : Nat) : Nat := z / 12

/-- Whether a stack of a tiller is hot (R532). -/
def State.tillerHot (s : State) (t : Nat) : Bool :=
  (List.range 3).any (fun k => s.pwr.hot.getLsbD (3 * t + k))

/-- Whether a bound of Table 16-2 holds a zone at the emergency clock. -/
def State.zoneEmergency (s : State) (z : Nat) : Bool :=
  s.pwr.emergency || (s.zone z).blind || s.tillerHot (zoneTiller z)

/-- The clock of a zone in kHz (R521, Table 16-2); it stands still after a thermal trip (R535). -/
def State.zoneClk (s : State) (z : Nat) : Nat :=
  if s.pwr.stopped then 0
  else
    let therm := s.maxClk - (s.zone z).drop
    let ft := if s.pwr.ftActive then s.maxClk * s.pwr.ftLevel.toNat / 100 else s.maxClk
    let em := if s.zoneEmergency z then s.emergencyClk else s.maxClk
    Nat.min (Nat.min s.fcap therm) (Nat.min ft em)

/-! ### Step budgets (R410, R501, R536) -/

/-- The panicles of the step of a launch that runs, or that comes next. -/
def Launch.panicles (l : Launch) : List PanId :=
  match l.graph[if l.running then l.step - 1 else l.step]? with
  | some d => d.panicles
  | none => []

/-- The budget timer of a step pauses while a zone of the step runs at the emergency clock (R501, R536), whatever bound
holds it there; a mesh row of a tiller is a zone (R19). -/
def State.budgetPaused (s : State) (l : Launch) : Bool :=
  l.panicles.any (fun p => decide (s.zoneClk (p.val / 16) ≤ s.emergencyClk))

/-- STEP_BUDGET (R410): the command fails, and RESULT reports the steps committed (R412). A budget does not end while its
timer pauses. -/
def execStepBudget (q : QueueId) (seq : W32) (s : State) : Out :=
  match s.launches.find? (fun l => decide (l.queue = q) && decide (l.seq = seq) && l.outcome.isNone) with
  | none => .next s
  | some l =>
    if s.budgetPaused l then .next s
    else
      let n := if l.running then l.index - 1 else l.index
      .next ((s.log 0x0403 2 (some l.ctx) (s.seqEc (leadTiller l.graph)) 0 n.toNat).failLaunch l 0x10B l.step)

/-- THERM_TRIP (R535): the trip latches, zone clocks stop, the heartbeat stops (R545), and a dump under way
ends incomplete (R493). -/
def State.trip (s : State) (detail : Nat) : State :=
  if s.mgt.trip then s
  else
    let s := s.cutDump
    let s := { s with
      mgt := { s.mgt with trip := true, heartbeat := false }
      pwr := { s.pwr with stopped := true } }
    s.log 0x070C 4 none (s.stewardEc 0) 0 detail

/-- Flow in percent of the rated 3.0 L/min, as the eight bits of an event's detail hold it (Table 16-6). -/
def Coolant.percent (c : Coolant) : Nat := Nat.min 255 (c.flow.toNat * 100 / 60)

/-- Sudden loss of coolant (R534): `zone` is the zone that rose, 0x7F if none. -/
def State.coolantLoss (s : State) (zone : Nat) : State :=
  if s.pwr.emergency then s
  else
    let s := { s with pwr := { s.pwr with emergency := true } }
    s.log 0x0707 1 none (s.stewardEc 0) 0 (s.pwr.coolant.percent + zone * 256)

/-- Whether a sample is implausible beside the sensor's previous one, if it has one (R527, assumption 161). -/
def implausible (last : Option (BitVec 12)) (new : BitVec 12) : Bool :=
  decide (new.toInt < -160) || decide (1200 < new.toInt) ||
  (match last with
   | some old => decide (160 < (new.toInt - old.toInt).natAbs)
   | none => false)

/-- One sensor's new sample against its partner's reading: the reading, whether it is suspect, since when
it reads well (R527). -/
def State.sense (s : State) (bad susp : Bool) (good : Option W64) (old new partner : BitVec 12) :
    BitVec 12 × Bool × Option W64 :=
  if bad then (old, true, none)
  else if !susp then (new, false, none)
  else if (new.toInt - partner.toInt).natAbs ≤ 40 then
    match good with
    | none => (new, true, some s.refcnt)
    | some t => if s.since t 10000000000 then (new, false, none) else (new, true, good)
  else (new, true, none)

/-- Whether a control temperature has risen by more than 0.5 °C within the last 100 ms (R534). -/
def Zone.rising (x : Zone) (now : Int) : Bool := x.past.any (fun e => decide (e.2 + 4 < now))

/-- SENSOR_SAMPLE (R527 to R529, R534, R535). -/
def execSensorSample (z : ZoneId) (a b : BitVec 12) (s : State) : Out :=
  let x := s.zone z.val
  let badA := implausible x.lastA a
  let badB := implausible x.lastB b
  let ra := s.sense badA x.suspA x.goodA x.ta a (if badB then x.tb else b)
  let rb := s.sense badB x.suspB x.goodB x.tb b (if badA then x.ta else a)
  let apart := decide (40 < (ra.1.toInt - rb.1.toInt).natAbs)
  let differ := if apart then (match x.differ with
    | some t => some t
    | none => some s.refcnt) else none
  let y : Zone := { x with
    ta := ra.1
    tb := rb.1
    lastA := some a
    lastB := some b
    suspA := ra.2.1
    suspB := rb.2.1
    goodA := ra.2.2
    goodB := rb.2.2
    differ := differ
    told := x.told && apart }
  let recent := x.past.filter (fun e => decide ((s.refcnt - e.1).toNat ≤ 100 * ms1))
  let rise := match y.ctl with
    | some c => ({ y with past := recent } : Zone).rising c
    | none => false
  let y := match y.ctl with
    | some c => { y with
        past := recent ++ [(s.refcnt, c)]
        tmax := BitVec.ofNat 8 (Nat.max y.tmax.toNat (c / 8).toNat) }
    | none => { y with past := recent }
  let s := s.setZone z.val y
  let s := if ra.2.1 && !x.suspA then s.log 0x0709 1 none (s.stewardEc 0) 0 z.val else s
  let s := if rb.2.1 && !x.suspB then s.log 0x0709 1 none (s.stewardEc 0) 0 (z.val + 128) else s
  let s := if y.blind && !x.blind then s.log 0x070A 1 none (s.stewardEc 0) 0 z.val else s
  let s := if rise then s.coolantLoss z.val else s
  .next (if y.atLeast 880 then s.trip z.val else s)

/-- SENSOR_DISAGREE (R528): the readings have differed for more than 50 ms; once per episode. -/
def execSensorDisagree (z : ZoneId) (s : State) : Out :=
  let x := s.zone z.val
  if x.differ.isNone || x.told then .next s
  else
    let s := s.setZone z.val { x with told := true, disagree := true }
    .next (s.log 0x0708 1 none (s.stewardEc 0) 0 z.val)

/-- FTHERM_STEP (R530). -/
def execFthermStep (z : ZoneId) (s : State) : Out :=
  let x := s.zone z.val
  match x.ctl with
  | none => .next s
  | some c =>
    if 760 ≤ c then
      .next (s.setZone z.val { x with drop := Nat.min (x.drop + 50000) (s.maxClk - s.emergencyClk) })
    else if c ≤ 736 then .next (s.setZone z.val { x with drop := x.drop - 50000 })
    else .next s

/-- STACK_TEMP_READ (R237, R532, R535, Table 6-4). -/
def execStackTempRead (n : StackId) (temp : BitVec 8) (s : State) : Out :=
  let k := s.stack n.val
  let t := temp.toNat
  let k := { k with
    temp := temp
    tmax := BitVec.ofNat 8 (Nat.max k.tmax.toNat t)
    trefi := if t < 85 then 0 else if t < 95 then 1 else 2
    throttled := if 95 ≤ t then true else if t < 92 then false else k.throttled }
  let s := s.setStack n.val k
  let was := s.pwr.hot.getLsbD n.val
  let hot := if 105 ≤ t then true else if t < 100 then false else was
  let s := { s with pwr := { s.pwr with hot := putBit s.pwr.hot n.val hot } }
  let s := if hot && !was then s.log 0x070B 1 none (s.stackEc n.val) 0 (n.val + t * 256) else s
  .next (if 110 ≤ t then s.trip (n.val + 128) else s)

/-- Whether THERM_ALERT_N is asserted (R536). -/
def State.alert (s : State) : Bool :=
  s.pwr.emergency || decide (s.pwr.hot ≠ 0) || s.pwr.zones.any (fun e => e.2.atLeast 840)

/-! ### Coolant (R533, R534) -/

/-- A coolant report takes effect (R533, R534): a slow-loss episode begins below 70 % flow or above 40 °C at
the inlet, sudden loss below 20 %. -/
def State.coolantTaken (s : State) (inlet outlet : BitVec 8) (flow : BitVec 16) : State :=
  let s := { s with pwr := { s.pwr with coolant :=
    { inlet := inlet, outlet := outlet, flow := flow, stale := false } } }
  let low := decide (flow.toNat < flow70) || decide (40 < inlet.toNat)
  let s := if low && !s.pwr.degraded then
      ({ s with pwr := { s.pwr with degraded := true } }).log 0x0706 1 none (s.stewardEc 0) 0
        (s.pwr.coolant.percent + inlet.toNat * 256)
    else s
  let s := { s with pwr := { s.pwr with degradedW := if s.pwr.degraded then s.degradedFloor else 0 } }
  if flow.toNat < flow20 then s.coolantLoss 0x7F else s

/-- COOLANT_STALE (R533): no report for 1 s. -/
def execCoolantStale (s : State) : Out :=
  .next { s with pwr := { s.pwr with coolant := { s.pwr.coolant with stale := true } } }

/-- COOLANT_LOSS_END (R534): for 5 s the flow has been at least 70 %, no zone has risen fast and every zone
is below 95 °C. -/
def execCoolantLossEnd (s : State) : Out :=
  let calm := s.pwr.zones.all (fun e => !e.2.atLeast 760 && (match e.2.ctl with
    | some c => !e.2.rising c
    | none => true))
  if s.pwr.emergency && decide (flow70 ≤ s.pwr.coolant.flow.toNat) && calm then
    .next { s with pwr := { s.pwr with emergency := false } }
  else .next s

/-- COOLING_DEGRADED_END (R533): for 10 s the flow has been at least 75 % and the inlet at most 40 °C. -/
def execCoolingDegradedEnd (s : State) : Out :=
  let c := s.pwr.coolant
  if s.pwr.degraded && decide (flow75 ≤ c.flow.toNat) && decide (c.inlet.toNat ≤ 40) then
    .next { s with pwr := { s.pwr with degraded := false, degradedW := 0 } }
  else .next s

/-! ### Forecasts (R523 to R526) -/

/-- What a command of class c draws above P_base, times 16 (R523). -/
def State.classPower (s : State) (c : HCmd) : Nat := c.eclass * s.tdp

/-- Time in µs that a command is still forecast to take (R523, R524). -/
def State.leftUs (s : State) (c : HCmd) : Nat :=
  let est := if c.est = 0 then 1000000 else c.est
  if c.started then est - (s.refcnt - c.startAt).toNat / 1000 else est

/-- Windows in µs from now in which the commands of a queue run, with their power (R524). -/
def State.windows (s : State) : Nat → List HCmd → List (Nat × Nat × Nat)
  | _, [] => []
  | t, c :: cs => (t, t + s.leftUs c, s.classPower c) :: s.windows (t + s.leftUs c) cs

/-- Forecast power of the interval from `a` to `b` µs, before it is clipped (R524). -/
def State.forecastPower (s : State) (a b : Nat) : Nat :=
  let all := s.host.queues.flatMap (fun e => s.windows 0 e.2.cmds)
  let sum := all.foldl (fun (k : Nat) w => k + w.2.2 * (Nat.min b w.2.1 - Nat.max a w.1)) 0
  s.pBase + sum / (16 * (b - a))

/-- The cap of the schedule's entry in force `us` µs from now (R512, R513, R524). -/
def State.capAhead (s : State) (us : Nat) : Option Nat :=
  s.capEntry (Nat.min 15 ((s.refcnt.toNat + 1000 * us - s.pwr.t0.toNat) / 60000000000))

/-- Inlet temperature of the forecast (R525). -/
def State.inletC (s : State) : Int := if s.pwr.coolant.stale then 40 else s.pwr.coolant.inlet.toNat

/-- One forecast entry (R524, R525, Table 16-4). -/
def State.forecastEntry (s : State) (a b : Nat) : W64 :=
  let p := s.forecastPower a b
  let l := (lowest (s.ceilings (s.capAhead a)) s.tdp).2
  let clipped := Nat.min p l
  let temp : Int := s.inletC + s.pwr.rFit * clipped / 10000
  let tp := (BitVec.ofInt 8 temp).toNat
  BitVec.ofNat 64 ((if l < p then 2 ^ 49 else 0) + (if 95 ≤ temp then 2 ^ 48 else 0) +
    tp * 2 ^ 32 + (l % 65536) * 65536 + clipped % 65536)

/-- FORECAST_REBUILD (R524): the per-second part, or the per-minute part. -/
def execForecastRebuild (minutes : Bool) (s : State) : Out :=
  if minutes then
    let l := (List.range 16).map (fun j => s.forecastEntry (j * 60000000) ((j + 1) * 60000000))
    .next { s with pwr := { s.pwr with mins := l } }
  else
    let l := (List.range 60).map (fun i => s.forecastEntry (i * 1000000) ((i + 1) * 1000000))
    .next { s with pwr := { s.pwr with secs := l, builtAt := s.refcnt } }

/-- The hottest zone and its control temperature in 0.125 °C; the lowest number where two are equal. -/
def State.hottest (s : State) : Nat × Int :=
  (List.range 96).foldl (fun (m : Nat × Int) z => match (s.zone z).ctl with
    | some c => if m.2 < c then (z, c) else m
    | none => m) (0, match (s.zone 0).ctl with
    | some c => c
    | none => -160)

/-- THERMAL_FORECAST_REFIT (R525): `watts` is the average of the last second. For a power of 0 the spec gives
no value: an open value. -/
def execThermalForecastRefit (watts : Nat) (s : State) : Out :=
  if watts = 0 then
    let (v, s) := s.draw
    .next { s with pwr := { s.pwr with rFit := (v.setWidth 32).toInt } }
  else
    .next { s with pwr := { s.pwr with rFit := (s.hottest.2 - 8 * s.inletC) * 1250 / (watts : Int) } }

/-- The forecast's 640 bytes (Table 16-3). -/
def State.forecastBytes (s : State) : List Byte :=
  let pad := fun (n : Nat) (l : List W64) => (l ++ List.replicate (n - l.length) 0).take n
  toLE 4 1 ++ toLE 4 (s.pBase % 65536 + 65536 * (s.limit % 65536)) ++ toLE 8 s.pwr.builtAt.toNat ++
  toLE 4 (BitVec.ofInt 32 s.pwr.rFit).toNat ++ List.replicate 12 0 ++
  (pad 60 s.pwr.secs).flatMap (fun w => toLE 8 w.toNat) ++
  (pad 16 s.pwr.mins).flatMap (fun w => toLE 8 w.toNat)

end Sys2Proof.Machine
end

