-- ==== Sys2Proof/Machine/SelfTest.lean ====
section
/-! DEFINITION. Self-test findings, repair, the reconciliation of the floor map and repair generations
(R44, R245 to R247, R448 to R454, R456 to R466). -/

namespace Sys2Proof.Machine

/-! ### Repair generations (R448, R449, Table 13-6) -/

/-- The latest valid generation of a block with its number (R449): an interrupted one is not valid. -/
def lastValid {α : Type} (l : List (Option α)) : Option (Nat × α) :=
  (l.zipIdx.filterMap (fun e => e.1.map (fun g => (e.2, g)))).getLast?

/-- Number and entries of the repair generation in force. -/
def Otp.repair (o : Otp) : Nat × List W32 := (lastValid o.rep).getD (0, [])

/-- A repair entry from its kind and index fields (Table 13-6). -/
def repEntry (kind index : Nat) : W32 := BitVec.ofNat 32 (kind * 2 ^ 28 + index)

/-- KIND of a repair entry. -/
def repKind (e : W32) : Nat := fld e 31 28

/-- Failing rows of a spikelet's bank that a list of entries repairs. -/
def fusedRows (es : List W32) (i : Nat) : List Nat :=
  (es.filter (fun e => decide (repKind e = 3) && decide (fld e 25 9 = i))).map (fun e => fld e 8 0)

/-- Failing rows of a panicle store that a list of entries repairs. -/
def fusedStoreRows (es : List W32) (p : Nat) : List Nat :=
  (es.filter (fun e => decide (repKind e = 4) && decide (fld e 21 11 = p))).map (fun e => fld e 10 0)

/-- What a repair entry marks dead, in the floor map; row repairs mark nothing dead. -/
def Floor.fuse (m : Floor) (e : W32) : Floor :=
  match repKind e with
  | 1 => { m with deadSpk := Tab.set false m.deadSpk (fld e 16 0) true }
  | 2 => { m with deadPan := Tab.set false m.deadPan (fld e 10 0) true, cause := Tab.set 0 m.cause (fld e 10 0) 1 }
  | 5 =>
    let n := fld e 9 5
    { m with deadChan := Tab.set 0 m.deadChan n (putBit (Tab.get 0 m.deadChan n) (fld e 4 0) true) }
  | 6 => { m with deadStraw := putBit m.deadStraw (fld e 4 0) true }
  | 7 => { m with deadTil := putBit m.deadTil (fld e 2 0) true }
  | _ => m

/-- The floor map as the repair generation in force gives it (R450), with the frames retired so far
(R247). -/
def State.fusedFloor (s : State) : Floor :=
  let (n, es) := s.sec.otp.repair
  es.foldl (fun m e => m.fuse e) { retired := s.floor.retired, repairGen := BitVec.ofNat 4 n }

/-- The fused row repairs of a panicle's memories are loaded (R463, step 1): each row takes the
lowest-numbered spare that is free. -/
def State.loadRepairs (s : State) (p : Nat) : State :=
  let es := s.sec.otp.repair.2
  let s := (List.range 64).foldl (fun s k =>
    let i := p * 64 + k
    let rows := fusedRows es i
    s.setSpk i { s.spk i with
      remap := ((rows.take 8).zipIdx).map (fun e => (Fin.ofNat 512 e.1, Fin.ofNat 8 e.2)) }) s
  s.setPan p { s.pan p with
    storeMap := (((fusedStoreRows es p).take 16).zipIdx).map (fun e => (Fin.ofNat 2048 e.1, Fin.ofNat 16 e.2)) }

/-! ### Units that fall dead (R450, R452, Table 13-7) -/

/-- A repair entry that this boot adds. -/
def State.newEntry (s : State) (e : W32) : State :=
  { s with boot := { s.boot with news := s.boot.news ++ [e] } }

/-- A spikelet falls dead. -/
def State.killSpk (s : State) (i : Nat) : State :=
  if s.floor.spkDead i then s
  else State.newEntry { s with floor := { s.floor with
    deadSpk := Tab.set false s.floor.deadSpk i true, soft := Tab.set false s.floor.soft i true } } (repEntry 1 i)

/-- A panicle falls dead for a cause (Table 13-8); a firmware failure adds no entry (R451). -/
def State.killPan (s : State) (p : Nat) (cause : Byte) : State :=
  if s.floor.panDead p then s
  else
    let s := { s with floor := { s.floor with
      deadPan := Tab.set false s.floor.deadPan p true, cause := Tab.set 0 s.floor.cause p cause } }
    if cause = 3 then s else s.newEntry (repEntry 2 p)

/-- A tiller falls dead. -/
def State.killTil (s : State) (t : Nat) (fw : Bool) : State :=
  if s.floor.deadTil.getLsbD t then s
  else
    let s := { s with floor := { s.floor with deadTil := putBit s.floor.deadTil t true } }
    if fw then s else s.newEntry (repEntry 7 t)

/-- A granary channel falls dead. -/
def State.killChan (s : State) (n c : Nat) : State :=
  if (s.floor.channels n).getLsbD c then s
  else State.newEntry { s with floor := { s.floor with
    deadChan := Tab.set 0 s.floor.deadChan n (putBit (Tab.get 0 s.floor.deadChan n) c true) } }
    (repEntry 5 (n * 32 + c))

/-- A stack falls dead: its 32 channels with it. -/
def State.killStack (s : State) (n : Nat) : State :=
  let s := (List.range 32).foldl (fun s c => s.killChan n c) s
  { s with floor := { s.floor with deadStack := putBit s.floor.deadStack n true } }

/-- A straw falls dead. -/
def State.killStraw (s : State) (w : Nat) : State :=
  if s.floor.deadStraw.getLsbD w then s
  else State.newEntry { s with floor := { s.floor with deadStraw := putBit s.floor.deadStraw w true } } (repEntry 6 w)

/-! ### Memory repair (R463) -/

/-- The spares that replace failing rows: none where the memory is dead, because it carries a fused repair or
has fewer passing spares than failing rows. -/
def repairRows (size spares : Nat) (fused rows bad : List Nat) : Option (List (Nat × Nat)) :=
  let rows := (List.range size).filter (fun r => rows.contains r)
  let good := (List.range spares).filter (fun k => !bad.contains k)
  if rows.isEmpty && bad.isEmpty then some []
  else if !fused.isEmpty || decide (good.length < rows.length) then none
  else some (rows.zip good)

/-- What memory self-test finds in a bank. -/
def State.bankFind (s : State) (i : Nat) (rows bad : List Nat) : State :=
  if s.floor.spkDead i then s
  else match repairRows 512 8 (fusedRows s.sec.otp.repair.2 i) rows bad with
    | none => s.killSpk i
    | some [] => s
    | some m =>
      let s := s.setSpk i { s.spk i with remap := m.map (fun e => (Fin.ofNat 512 e.1, Fin.ofNat 8 e.2)) }
      m.foldl (fun s e => s.newEntry (repEntry 3 (i * 512 + e.1))) s

/-- What memory self-test finds in a panicle store. -/
def State.storeFind (s : State) (p : Nat) (rows bad : List Nat) : State :=
  if s.floor.panDead p then s
  else match repairRows 2048 16 (fusedStoreRows s.sec.otp.repair.2 p) rows bad with
    | none => s.killPan p 2
    | some [] => s
    | some m =>
      let s := s.setPan p { s.pan p with storeMap := m.map (fun e => (Fin.ofNat 2048 e.1, Fin.ofNat 16 e.2)) }
      m.foldl (fun s e => s.newEntry (repEntry 4 (p * 2048 + e.1))) s

/-- A failing row of a stack is repaired by the procedure of R244 or its frames are retired (R247, R464). -/
def State.grnFind (s : State) (n : Nat) (a : Nat) : State :=
  let k := s.stack n
  if k.rowsTaken (bankKey a) < 2 then
    (s.setStack n { k with soft := k.soft ++ [rowKey a] }).log 0x0303 0 none (s.stackEc n) 0 (n * 2 ^ 36 + a)
  else s.retire (s.stackEc n) (rowFrames n a)

/-- The CLASS of a scan domain that mismatches (Table 14-2); 0 for what no scan domain finds. -/
def scanClass : Finding → BitVec 4
  | .spikelet _ => 1
  | .panicle _ => 2
  | .tiller _ => 3
  | .stack _ => 4
  | _ => 0

/-- A sensor fails against its diode (R465): a zone with both sensors suspect loses its 16 panicles. -/
def State.sensorFind (s : State) (z : Nat) (b : Bool) : State :=
  let x := s.zone z
  let y := if b then { x with suspB := true } else { x with suspA := true }
  let s := s.setZone z y
  let s := s.log 0x0709 1 none (s.stewardEc 0) 0 (z + (if b then 128 else 0))
  if y.suspA && y.suspB then
    (List.range 16).foldl (fun s k => s.killPan (z / 12 * 192 + z % 12 * 16 + k) 2)
      (s.log 0x070A 1 none (s.stewardEc 0) 0 z)
  else s

/-- A bridge direction whose end's PLL does not lock is down (R465). -/
def State.bridgePllFail (s : State) (d : Nat) : State :=
  { s with fab := { s.fab with dirs := Tab.set {} s.fab.dirs d { s.dir d with down := true, failed := true, ready := false } } }

/-- What one finding does (R458, R462, R463, R465, Table 13-7). The hub's own are the package's (R461). -/
def State.find (s : State) (x : Finding) : State :=
  let s := { s with
    boot := { s.boot with finds := s.boot.finds ++ [x] }
    bist := if s.bist.classFail = 0 then { s.bist with classFail := scanClass x } else s.bist }
  match x with
  | .spikelet i | .array i => s.killSpk i.val
  | .panicle p | .panArray p => s.killPan p.val 2
  | .tiller t | .tillerPll t => s.killTil t.val false
  | .stack n | .stackPll n => s.killStack n.val
  | .channel n c => s.killChan n.val c.val
  | .straw w => s.killStraw w.val
  | .bankRows i rows bad => s.bankFind i.val (rows.map (·.val)) (bad.map (·.val))
  | .storeRows p rows bad => s.storeFind p.val (rows.map (·.val)) (bad.map (·.val))
  | .sensor z b => s.sensorFind z.val b
  | .grnRows n rows => rows.foldl (fun (s : State) (a : BitVec 36) => s.grnFind n.val a.toNat) s
  | .bridgePll d => s.bridgePllFail d.val
  | .hub | .hubClock => s

/-! ### Test effects (R457) -/

/-- A panicle's memories after their test: zeros with valid check bits, the fused repairs loaded. -/
def State.testPan (s : State) (p : Nat) : State :=
  let s := (s.clearPan p).loadRepairs p
  s.setPan p { s.pan p with fixWords := [] }

/-- Every line of a stack becomes zeros with valid check bits. -/
def State.zeroStack (s : State) (n : Nat) : State :=
  { s with mem := { s.mem with
    bytes := s.mem.bytes.filter (fun e => !(decide (e.1 < granaryEnd) && decide ((hashPa e.1).1 = n)))
    line := s.mem.line.filter (fun e => decide ((hashPa (e.1 * 64)).1 ≠ n)) } }

/-- Training converts a stack's soft repairs into hard ones (R245). -/
def State.hardenStack (s : State) (n : Nat) : State :=
  let k := s.stack n
  s.setStack n { k with
    soft := []
    hardUsed := k.soft.foldl (fun t r => Tab.upd 0 t (r / 65536) (· + 1)) k.hardUsed }

/-! ### Reconciliation (R450, R451, Table 13-7) -/

/-- Whether a finding of this boot concerns the unit that a repair entry marks dead. -/
def findingHits (e : W32) : Finding → Bool
  | .spikelet i | .array i | .bankRows i _ _ => decide (repKind e = 1) && decide (fld e 16 0 = i.val)
  | .panicle p | .panArray p | .storeRows p _ _ => decide (repKind e = 2) && decide (fld e 10 0 = p.val)
  | .tiller t | .tillerPll t => decide (repKind e = 7) && decide (fld e 2 0 = t.val)
  | .stack n | .stackPll n => decide (repKind e = 5) && decide (fld e 9 5 = n.val)
  | .channel n c => decide (repKind e = 5) && decide (fld e 9 5 = n.val) && decide (fld e 4 0 = c.val)
  | .straw w => decide (repKind e = 6) && decide (fld e 4 0 = w.val)
  | _ => false

/-- Reports of the entries that a test adds: NEW_DEAD and NEW_REPAIR (Table 13-7). -/
def State.reportNews (s : State) : State :=
  let row := fun (e : W32) => decide (repKind e = 3) || decide (repKind e = 4)
  let dead := s.boot.news.filter (fun e => !row e)
  let soft := s.boot.news.filter row
  let s := { s with boot := { s.boot with newDead := s.boot.newDead || !dead.isEmpty } }
  let s := dead.foldl (fun (s : State) (e : W32) => s.log 0x0603 1 none (s.stewardEc 0) 0 e.toNat) s
  soft.foldl (fun (s : State) (e : W32) => s.log 0x0604 0 none (s.stewardEc 0) 0 e.toNat) s

/-- Reports of the boot's reconciliation: FUSE_STRICTER for each unit that is fused dead and passed, then the
entries that this boot adds. Under COMPAT_H3 fused dead units are not tested (R466). -/
def State.reportFloor (s : State) : State :=
  let fused := if s.boot.compat then [] else s.sec.otp.repair.2.filter (fun e =>
    [1, 2, 5, 6, 7].contains (repKind e) && !s.boot.finds.any (fun x => findingHits e x))
  let s := { s with boot := { s.boot with fuseStricter := s.boot.fuseStricter || !fused.isEmpty } }
  let s := fused.foldl (fun (s : State) (e : W32) => s.log 0x0602 0 none (s.stewardEc 0) 0 e.toNat) s
  s.reportNews

/-- New entries are written into the next repair generation, at most one in a boot and where one is spare;
otherwise they stay in the soft part (R451, R471). -/
def State.fuseNews (s : State) : State :=
  let es := s.sec.otp.repair.2
  let new := s.boot.news.eraseDups
  let s := { s with boot := { s.boot with news := [] } }
  if new.isEmpty || s.boot.compat || s.boot.fuseWritten || s.sec.otp.writing.isSome ||
      decide (4 ≤ s.sec.otp.rep.length) || decide (424 < es.length + new.length) then s
  else { s with sec := { s.sec with otp := { s.sec.otp with writing := some (.rep (es ++ new)) } } }

end Sys2Proof.Machine
end

