-- ==== Sys2Proof/Machine/Recovery.lean ====
section
/-! DEFINITION. What a reset of a domain or of the package loses and keeps, and how a reset is decided
(R17, R422, R433, R481 to R486, R504, R569, R573, R590). -/

namespace Sys2Proof.Machine

/-! ### Cells and endpoints of a domain -/

/-- Waits at cells of a domain that resets go (Table 15-6); a queue's WAIT ends with DOMAIN_RESET (R484). -/
def State.loseWaits (s : State) (lost : Nat → Bool) : State :=
  let gone := s.mem.waits.filter (fun w => lost w.addr)
  let s := { s with mem := { s.mem with waits := s.mem.waits.filter (fun w => !lost w.addr) } }
  gone.foldl (fun s w => match w.who with
    | .queue q seq => s.finish q seq 0x10D 0
    | .packet _ => s) s

/-- The transport state of endpoints that a reset loses, with the packets that wait there. -/
def State.loseEps (s : State) (lost : Nat → Bool) : State :=
  { s with fab := { s.fab with
    peers := s.fab.peers.filter (fun x => !lost x.ep)
    stalled := s.fab.stalled.filter (fun e => !lost e.1.val)
    delivered := s.fab.delivered.filter (fun p => !lost (epOf p.dst)) } }

/-- Arbiter instances of a range of keys lose their state. -/
def State.loseArbs (s : State) (lo n : Nat) : State :=
  { s with grn := { s.grn with arbs := Tab.wipe s.grn.arbs lo n } }

/-! ### TILLER[t] (Table 15-6) -/

/-- Launches that run on a tiller, or whose sequencer is its own, fail with DOMAIN_RESET at every tiller
(R484). -/
def State.loseLaunches (s : State) (t : Nat) : State :=
  let mine := s.launches.filter (fun l =>
    decide (leadTiller l.graph = t) || l.holds.any (fun p => decide (tillerOfPan p.val = t)))
  mine.foldl (fun s l => s.failLaunch (s.launch l) 0x10D (s.launch l).step) s

/-- Edges of the florets of a tiller that wait at a cell go. -/
def State.loseFloretWaits (s : State) (t : Nat) : State :=
  s.cores.florets.foldl (fun s e =>
    if tillerOfSpk (spkOfFloret e.1) = t then
      match e.2.status with
      | .waiting (.sync _ cell) => s.dropWait (spkOfFloret e.1) cell
      | _ => s
    else s) s

/-- Waits that the florets of a tiller have registered anywhere in the package go with them. -/
def State.loseFloretRequests (s : State) (t : Nat) : State :=
  { s with mem := { s.mem with waits := s.mem.waits.filter (fun w => match w.who with
    | .packet p => !(decide (ecPkg p.src = s.fab.coord) && decide (ecTil p.src = t) && decide (ecFn p.src < 16))
    | .queue _ _ => true) } }

/-- Invalidations no longer wait for the translation units of a tiller. -/
def State.loseInvals (s : State) (t : Nat) : State :=
  s.host.invals.foldl (fun s v =>
    (v.waits.filter (fun p => decide (tillerOfPan p.val = t))).foldl (fun (s : State) (p : PanId) =>
      s.ackInval p v.ctx v.va v.len) s) s

/-- Records of homes and agents in a tiller are lost (R388). -/
def State.loseBundles (s : State) (t : Nat) : State :=
  let s := (s.holders.filter (fun h => match h with
    | .store p | .agent p => decide (tillerOfPan p.val = t)
    | .stack _ => false)).foldl (fun s h => s.bndLose h) s
  { s with bnd := { s.bnd with pans := Tab.wipe s.bnd.pans (t * 192) 192 } }

/-- The registers of a panicle's injection arbiter, without those of its bank arbiters: the routers' L ports are TRANSIT's
(Table 1-3). -/
def PanArb.noBank (x : PanArb) : PanArb := { x with barbPrio := 0x39, barbSel := 0 }

/-- The registers of a panicle's bank arbiters alone. -/
def PanArb.noInj (x : PanArb) : PanArb := { barbPrio := x.barbPrio, barbSel := x.barbSel }

/-- What a reset of TILLER[t] loses (Table 15-6). -/
def State.tillerDown (s : State) (t : Nat) : State :=
  let s := s.loseFloretWaits t
  let s := s.loseLaunches t
  let s := s.loseFloretRequests t
  let s := s.loseWaits (fun a =>
    (decide (0x80000000000 + t * 2 ^ 30 ≤ a) && decide (a < 0x80000000000 + (t + 1) * 2 ^ 30)) ||
    (decide (0x90000000000 + t * 2 ^ 27 ≤ a) && decide (a < 0x90000000000 + (t + 1) * 2 ^ 27)))
  let s := s.loseInvals t
  let s := s.loseBundles t
  let s := s.loseEps (fun e => (decide (e < 1536) && decide (tillerOfPan e = t)) || decide (e = 1560 + t))
  let s := s.loseArbs (t * 12288) 12288
  let s := (s.wipe (0x80000000000 + t * 2 ^ 30) (2 ^ 30)).wipe (0x90000000000 + t * 2 ^ 27) (2 ^ 27)
  let s := { s with
    cores := { s.cores with
      florets := Tab.wipe s.cores.florets (t * 196608) 196608
      spikelets := Tab.wipe s.cores.spikelets (t * 12288) 12288
      panicles := Tab.wipe s.cores.panicles (t * 192) 192
      seqs := Tab.wipe s.cores.seqs t 1 }
    fab := { s.fab with panArbs := s.fab.panArbs.filterMap (fun (e : Nat × PanArb) =>
      let v := if e.1 / 192 = t then e.2.noBank else e.2
      if v = ({} : PanArb) then none else some (e.1, v)) }
    red := { s.red with leaves := Tab.wipe s.red.leaves (t * 192) 192 }
    boot := { s.boot with
      waves := Tab.wipe s.boot.waves t 1
      blocks := Tab.wipe (Tab.wipe s.boot.blocks t 1) (8 + t * 192) 192
      running := s.boot.running.filter (fun u =>
        !(decide (u = t) || (decide (8 ≤ u) && decide (tillerOfPan (u - 8) = t)))) } }
  s.settleAll

/-! ### GRANARY[n], TRANSIT, HOSTFN (Table 15-6) -/

/-- What a stack keeps across a reset of its controller: its repairs (R245, R246) and its temperature; the replies that
it has sent have left it. -/
def Stack.kept (k : Stack) : Stack :=
  { soft := k.soft, hardUsed := k.hardUsed, temp := k.temp, nextId := k.nextId, replies := k.replies }

/-- What a reset of GRANARY[n] loses (Table 15-6): the contents are kept in self-refresh. Requests that wait by credit
are answered DOMAIN_RESETTING (R224). -/
def State.granaryDown (s : State) (n : Nat) : State :=
  let s := s.loseWaits (fun a => decide (a < granaryEnd) && decide ((hashPa a).1 = n))
  let s := s.bndLose (.stack (Fin.ofNat 24 n))
  let s := s.setStackBnd n {}
  let s := s.loseEps (fun e => decide (e = 1536 + n))
  let s := s.loseArbs (98304 + n * 64) 64
  s.setStack n (s.stack n).refuseAll.kept

/-- What a reset of TRANSIT loses (R340, Table 15-6): the steward keeps the tables and their states. -/
def State.transitDown (s : State) : State :=
  let up := (List.range 32).filter (fun w => (s.straw w).state = .up)
  let s := up.foldl (fun (s : State) (w : Nat) => s.fabricEvent 0x0201 0 0 w) s
  let s := s.loseArbs 99840 1568
  { s with
    fab := { s.fab with
      panArbs := s.fab.panArbs.filterMap (fun (e : Nat × PanArb) => if e.2.noInj = ({} : PanArb) then none else some (e.1, e.2.noInj))
      saved := s.fab.dies, savedInj := s.fab.inj, dies := [], drainAt := none
      mesh := [], dirs := [], straws := [], sheaves := defaultSheaves, rings := [], reshape := 5, schedSel := 0
      sent := [], ingress := [], routed := [], parked := [] }
    red := { s.red with
      combiners := [], sel := []
      slots := s.red.slots.map (fun e => (e.1, { parts := e.2.parts })) } }

/-- A HOSTFN reset (R422, R590): queues are disabled without completions and their registers take their reset
values, but for CAUSE. In RESET it is down already. -/
def State.hostFnDown (s : State) : State :=
  if (s.dom 2).st = .reset then s else
  let s := s.hostFnQueues
  let blank := fun (x : Queue) => ({ cause := x.cause, gen := x.gen, cmds := x.cmds } : Queue)
  let d := s.dom 2
  let s := s.setDom 2 { d with st := .reset, gen := d.gen + 1, resets := satAdd d.resets 1 }
  { s with
    host := { s.host with
      queues := (s.host.queues.map (fun e => (e.1, blank e.2))).filter (fun e => decide (e.2 ≠ {}))
      dbIgnored := 0, peak := 0, bar4Lo := 0, bar4Hi := 0, bar4Valid := false, bar4Ovf := false, bar4Kind := 0
      bar4Write := false, bar4Addr := 0 }
    sec := { s.sec with conn := Tab.set 0 s.sec.conn 1 0 } }

/-! ### The whole package (R433, R504) -/

/-- An OTP write that a reset interrupts leaves an invalid generation (R449, R571). -/
def Otp.interrupted (o : Otp) : Otp :=
  match o.writing with
  | none => o
  | some (.cfg _) => { o with cfg := o.cfg ++ [none], writing := none }
  | some (.rep _) => { o with rep := o.rep ++ [none], writing := none }

/-- What a stop of the package keeps whatever its cause: the OTP, the boot flash, wear and retired frames, host
memory, pin levels, the trip latch (R545), the readings of the sensors. -/
def State.cold (s : State) : State :=
  { State.reset with
    pending := s.pending
    freeIx := s.freeIx
    mem := { host := s.mem.host }
    grn := { ctrls := (s.grn.ctrls.map (fun e => (e.1, e.2.kept))).filter (fun e => decide (e.2 ≠ {})) }
    floor := { retired := s.floor.retired }
    sec := { otp := s.sec.otp.interrupted }
    boot := { slotA := s.boot.slotA, slotB := s.boot.slotB }
    pwr := { zones := (s.pwr.zones.map (fun e =>
              (e.1, ({ ta := e.2.ta, tb := e.2.tb, lastA := e.2.lastA, lastB := e.2.lastB } : Zone)))).filter
                (fun e => decide (e.2 ≠ {})),
             stopped := s.mgt.trip }
    mgt := { pwrOk := s.mgt.pwrOk, hostRstN := s.mgt.hostRstN, evtN := s.mgt.evtN, sel0 := s.mgt.sel0
             sel1 := s.mgt.sel1, compat := s.mgt.compat, trip := s.mgt.trip } }

/-- Soft repairs of the stacks end with their power (R245). -/
def State.dropSoft (s : State) : State :=
  { s with grn := { s.grn with
    ctrls := (s.grn.ctrls.map (fun e => (e.1, { e.2 with soft := [] }))).filter (fun e => decide (e.2 ≠ {})) } }

/-- Phase ROM begins (Table 13-1, R569, R573): the generations in force are read; the floor map starts from the
fused map (R450). A SCRAPPED part stops with PHASE 0xF. -/
def State.romStart (s : State) : State :=
  let (no, cfg) : Nat × CfgGen := (lastValid s.sec.otp.cfg).getD (0, {})
  let s := { s with
    sec := { s.sec with cfg := cfg, cfgNo := no }
    boot := { s.boot with phase := 1, inReset := false, start := s.refcnt }
    mgt := { s.mgt with heartbeat := !s.mgt.trip } }
  let s := { s with floor := s.fusedFloor }
  if s.sec.cfg.lc = 4 then
    { s with boot := { s.boot with phase := 0xF }, flt := { s.flt with fatal := true } }
  else s

/-- Every domain's generation advances with the package's reset (R483). -/
def Flt.bump (f : Flt) : Flt :=
  { f with doms := ([0, 1, 2] ++ (List.range 32).map (· + 8)).foldl (fun (t : Tab Dom) (d : Nat) =>
      let x := Tab.get ({} : Dom) t d
      let y : Dom := { st := .run, gen := x.gen + 1, resets := satAdd x.resets 1, trigger := x.trigger,
                       ctxStale := x.ctxStale, domStale := x.domStale }
      Tab.set ({} : Dom) t d y) f.doms }

/-- Order 3 of a full package recovery (Table 15-13): stacks go to self-refresh, every domain but the reference
counter is held in reset, and bring-up starts from phase ROM. -/
def State.recover (s : State) : State :=
  let lost := decide (s.mgt.evtMode = 2)
  let c := s.cold
  let s := { c with
    refcnt := s.refcnt
    flt := s.flt.bump
    mem := { c.mem with
      bytes := s.mem.bytes.filter (fun e => decide (e.1 < granaryEnd)), line := s.mem.line }
    glean := { valid := s.glean.valid, length := s.glean.length, summary := s.glean.summary }
    boot := { c.boot with
      src := s.boot.src, source := s.boot.src, compat := s.boot.compat, sampled := s.boot.sampled, recovery := true
      recoveries := s.boot.recoveries, recCount := s.boot.recCount }
    mgt := { c.mgt with strapChanged := s.mgt.strapChanged } }
  let s := s.romStart
  if lost then s.log 0x0405 0 none (s.stewardEc 0) 0 0 else s

/-- Whether a third recovery within one hour of the first has been decided (R505). -/
def State.thirdRecovery (s : State) : Bool :=
  match s.boot.recoveries with
  | a :: _ :: c :: _ => decide ((a - c).toNat ≤ 3600000000000)
  | _ => false

/-- A recovery fails (R505): the package logs it, asserts ERR_FATAL_N and holds in phase ROM; one that has only been
decided goes there at once. -/
def State.recoveryFails (s : State) : State :=
  let s := s.cutDump.log 0x0805 4 none (s.stewardEc 0) 0 s.boot.phase.toNat
  let s := if (s.dom 0).st = .glean then s.recover else s
  let s := s.setDom 0 { s.dom 0 with st := .run }
  { s with boot := { s.boot with hold := true, phase := 1 } }

/-- A full package recovery is decided (R486, R504): it is logged, fetching stops and the dump begins. -/
def State.pkgRecovery (s : State) (trigger : Nat) : State :=
  let d := s.dom 0
  if d.st ≠ .run then s
  else
    let s := s.log 0x0804 3 none (s.stewardEc 0) 0 trigger
    let s := s.setDom 0 { d with st := .glean, trigger := BitVec.ofNat 4 trigger }
    let s := { s with boot := { s.boot with
      recovery := true, recoveries := s.refcnt :: s.boot.recoveries, recCount := satAdd s.boot.recCount 1 } }
    s.startDump 0

/-! ### Deciding a reset (R481, Tables 12-9, 15-5) -/

/-- The domain code of a domain index (Table 12-9). -/
def domCode (d : Nat) : Nat := if d < 8 then d else if d < 16 then 0x10 + (d - 8) else 0x20 + (d - 16)

/-- A domain code of Table 12-9. -/
inductive DomSel where
  | whole
  | hostFn
  | dom (d : Nat)
  | context (c : Nat)
deriving DecidableEq, Repr

/-- P0 as a domain code, matched as a whole (R614). -/
def domSel (p0 : Nat) : Option DomSel :=
  if p0 = 0 then some .whole
  else if p0 = 2 then some .hostFn
  else if p0 = 1 then some (.dom 1)
  else if 0x10 ≤ p0 ∧ p0 < 0x18 then some (.dom (p0 - 0x10 + 8))
  else if 0x20 ≤ p0 ∧ p0 < 0x38 then some (.dom (p0 - 0x20 + 16))
  else if p0 % 65536 = 0x40 ∧ p0 / 65536 < 4096 then some (.context (p0 / 65536))
  else none

/-- A reset of a domain is decided (Table 15-5): only in RUN. A package-initiated one within 1 s of the end of
the last re-entry makes that re-entry a failed one; the second in a row leads to recovery. -/
def State.decideReset (s : State) (d : Nat) (trigger : BitVec 4) (owner : Option (QueueId × W32))
    (test : Option (BitVec 4)) : State :=
  let x := s.dom d
  if x.st ≠ .run then s
  else
    let soon := match x.backAt with
      | some t => !s.since t 1000000000
      | none => false
    let again := owner.isNone && decide (1 ≤ trigger.toNat) && decide (trigger.toNat ≤ 5) && soon
    let fails := if again then x.fails + 1 else 0
    if 2 ≤ fails then (s.setDom d { x with fails := 0 }).pkgRecovery 8
    else
      let s := s.setDom d { x with st := .glean, fails := fails, trigger := trigger, owner := owner, test := test }
      s.startDump (BitVec.ofNat 16 (domCode d))

/-- What the reset of a domain loses, by its index. -/
def State.domainDown (s : State) (d : Nat) : State :=
  if d = 1 then s.transitDown
  else if 8 ≤ d ∧ d < 16 then s.tillerDown (d - 8)
  else if 16 ≤ d ∧ d < 40 then s.granaryDown (d - 16)
  else s

/-! ### COMPAT_H3 (R466) -/

/-- A domain is held in reset, with what it loses. -/
def State.holdDom (s : State) (d : Nat) : State :=
  let x := s.dom d
  (s.setDom d { x with st := .reset, gen := x.gen + 1, resets := satAdd x.resets 1 }).domainDown d

/-- The first failure of a test under COMPAT_H3 (R466): every domain except PKG is held in reset, PHASE
shows 0xF and ERR_FATAL_N asserts. -/
def State.holdH3 (s : State) : State :=
  let s := { s with
    boot := { s.boot with held := true, phase := 0xF }
    flt := { s.flt with fatal := true } }
  State.hostFnDown (((List.range 32).map (· + 8) ++ [1]).foldl (fun (s : State) (d : Nat) => s.holdDom d) s)

/-- The findings of a test; under COMPAT_H3 nothing is repaired and the first one holds the package (R466). -/
def State.findAll (s : State) (xs : List Finding) : State :=
  if s.boot.compat then
    if xs.isEmpty then s
    else
      let c := xs.foldl (fun (c : BitVec 4) x => if c = 0 then scanClass x else c) s.bist.classFail
      State.holdH3 { s with boot := { s.boot with finds := s.boot.finds ++ xs }, bist := { s.bist with classFail := c } }
  else xs.foldl (fun s x => s.find x) s

end Sys2Proof.Machine
end

