-- ==== Sys2Proof/Machine/Domains.lean ====
section
/-! DEFINITION. Reset domains: what decides a reset, its states, the recovery of the package and of a steward
(R422, R475, R479, R481 to R486, R502 to R505, R543, R614). -/

namespace Sys2Proof.Machine

/-! ### Watchdogs and triggers (R479, R486) -/

/-- The PC of the instruction that a floret holds or waits in (R479). -/
def State.heldPc (s : State) (x : Nat) : BitVec 20 :=
  let fl := s.floret x
  match fl.status with
  | .waiting _ => fl.pc - 4
  | .blocked .bank =>
    match (s.spk (spkOfFloret x)).bankQ.find? (fun r => r.floret = floretNo x) with
    | some r => r.pc
    | none => fl.pc
  | _ => fl.pc

/-- FLORET_WATCHDOG (R479): only florets BLOCKED, or WAITING in `pbar.wait` or `rop.wait`, are watched. -/
def execFloretWatchdog (f : FloretId) (s : State) : Out :=
  let x := f.val
  let hit := s.raiseOpen (spkOfFloret x) (floretNo x) .sync 0x40 (s.heldPc x)
  if !s.flt.wdogEn then .next s
  else match (s.floret x).status with
    | .blocked _ => .next hit
    | .waiting (.barrier _) => .next hit
    | .waiting (.rops _) => .next hit
    | _ => .next s

/-- HOUSEKEEPING_HEARTBEAT_MISS (R486, code 1). -/
def execHousekeepingHeartbeatMiss (t : TillerId) (s : State) : Out :=
  .next (s.decideReset (8 + t.val) 1 none none)

/-- CANCEL_TIMEOUT (R213, R486, code 2). -/
def execCancelTimeout (t : TillerId) (s : State) : Out :=
  .next (s.decideReset (8 + t.val) 2 none none)

/-- PHY_ERROR (R486, code 3): a PHY error is recorded with KIND 10 (Table 6-16); three request timeouts within
1 ms have been recorded as such. -/
def execPhyError (n : StackId) (pc : Fin 64) (timeouts : Bool) (s : State) : Out :=
  let k := s.stack n.val
  let k' := if k.errValid then { k with errOvf := true }
    else { k with errValid := true, errKind := 2, errPc := BitVec.ofNat 6 pc.val, errCtx := 0 }
  let s := if timeouts then s else s.setStack n.val k'
  .next (s.decideReset (16 + n.val) 3 none none)

/-- VC_STUCK (R486, code 4): only VC1, VC5 and VC7 are always consumed. -/
def execVcStuck (_d : DieId) (vc : BitVec 3) (s : State) : Out :=
  .next (if vc = 1 ∨ vc = 5 ∨ vc = 7 then s.decideReset 1 4 none none else s)

/-- ROUTE_TABLE_UE (R486, code 5). -/
def execRouteTableUe (_d : DieId) (s : State) : Out := .next (s.decideReset 1 5 none none)

/-- HUB_SRAM_UE (R486, code 7). -/
def execHubSramUe (s : State) : Out := .next (s.pkgRecovery 7)

/-- RESET_DOMAIN (R413, R468, R614, Tables 12-8, 12-9): it completes when the domain is back in RUN. -/
def execResetDomain (q : QueueId) (seq : W32) (s : State) : Out :=
  match s.running q seq 0x12 with
  | none => .next s
  | some m =>
    if m.step ≠ 0 then .next s
    else match domSel (m.p 0) with
      | none => .next (s.finish q seq 0x101 0)
      | some .whole => .next (s.finish q seq 0x102 0)
      | some .hostFn => .next (s.finish q seq 0x102 0)
      | some (.dom d) =>
        if (s.dom d).st ≠ .run then .next (s.finish q seq 0x116 0)
        else .next ((s.setCmd q { m with step := 1 }).decideReset d 6 (some (q, seq)) none)
      | some (.context c) =>
        match (s.ctx c).st with
        | .free => .next (s.finish q seq 0x103 0)
        | .destroying => .next (s.finish q seq 0x116 0)
        | .live => .next ((s.setCmd q { m with step := 1 }).teardown c 4 (some (q, seq)))

/-! ### The states of a domain (Table 15-5) -/

/-- GLEAN_END (R481, R484): the dump is written or 150 ms have passed. The generation advances, DOMAIN_RESET is
logged and the domain enters RESET; a full package recovery goes on to its third step (R504), unless it is the third
within an hour (R505). -/
def execGleanEnd (dom : Fin 40) (s : State) : Out :=
  let d := dom.val
  if (s.dom d).st ≠ .glean then .next s
  else
    let s := s.cutDump
    if d = 0 then .next (if s.thirdRecovery then s.recoveryFails else s.recover)
    else
      let x := s.dom d
      let g := x.gen + 1
      let s := s.setDom d { x with st := .reset, gen := g, resets := satAdd x.resets 1 }
      let s := s.log 0x0801 3 none (s.stewardEc 0) 0 (domCode d + g.toNat * 2 ^ 16 + x.trigger.toNat * 2 ^ 24)
      .next (s.domainDown d)

/-- Tables, epochs and node entries come back as TRANSIT leaves reset, and the straws are enabled (R341,
R364). -/
def State.transitBack (s : State) : State :=
  let bank := fun (b : BankSt) => if b = .draining then BankSt.retired else b
  let dies := s.fab.saved.map (fun e => (e.1, { e.2 with bank0 := bank e.2.bank0, bank1 := bank e.2.bank1 }))
  let nodes := s.red.savedNodes.foldl (fun (t : Tab Combiner) (e : Nat × List (List W32)) =>
    Tab.set {} t e.1 { nodes := e.2.map (fun w => { words := w }) }) []
  let s := { s with
    fab := { s.fab with
      dies := dies.map (fun e => (e.1, ({ bank0 := e.2.bank0, bank1 := e.2.bank1, tables := e.2.tables } : DieRoute)))
      inj := s.fab.savedInj }
    red := { s.red with combiners := nodes } }
  let live := (List.range 32).filter (fun w => (s.straw w).en && !s.floor.deadStraw.getLsbD w)
  live.foldl (fun s w => s.setStraw w (s.straw w).train) s

/-- DOMAIN_RESET_RELEASE (R481): re-entry starts. -/
def execDomainResetRelease (dom : Fin 40) (s : State) : Out :=
  let d := dom.val
  let x := s.dom d
  if x.st ≠ .reset ∨ s.boot.held = true then .next s
  else
    let s := s.setDom d { x with st := .reentry }
    .next (if d = 1 then s.transitBack
      else if d = 2 then { s with mgt := { s.mgt with hostRstN := true } }
      else s)

/-- Whether a tiller has passed the steps of R430 and its housekeeping controller runs its firmware (R435);
a dead one has nothing to pass. -/
def State.tillerReady (s : State) (t : Nat) : Bool :=
  s.floor.deadTil.getLsbD t || (decide (Tab.get 0 s.boot.waves t = 12) && s.boot.running.contains t)

/-- A tiller re-enters (R364, R435, R454): leaf entries come back, and the map is reconciled for
it and republished. -/
def State.tillerBack (s : State) (t : Nat) : State :=
  let mine := s.red.savedLeaves.filter (fun e => decide (tillerOfPan e.1 = t))
  let leaves := mine.foldl (fun (l : Tab LeafUnit) (e : Nat × List (List W32)) =>
    Tab.set {} l e.1 { leaves := e.2.map (fun w => { words := w }) }) s.red.leaves
  let s := s.reportNews
  State.floorChanged { s with red := { s.red with leaves := leaves }, boot := { s.boot with news := [] } }

/-- CONTENT_LOST (R485): every LIVE context is destroyed and the stack's lines become zeros. -/
def State.contentLost (s : State) (n : Nat) : State :=
  let s := s.setStack n { s.stack n with lost := true }
  let s := s.log 0x0305 3 none (s.stewardEc 0) 0 n
  let s := (s.ctxsOf 0).foldl (fun s c => s.teardown c 4 none) s
  s.zeroStack n

/-- A stack has trained (R245, R432). -/
def State.stackBack (s : State) (n : Nat) : State :=
  let s := s.hardenStack n
  s.setStack n { s.stack n with resetting := false, trained := true }

/-- Whether a domain in REENTRY can complete it. -/
def State.canReenter (s : State) (d : Nat) : Bool :=
  if 8 ≤ d ∧ d < 16 then s.tillerReady (d - 8) else true

/-- A domain returns to RUN with what its re-entry restores (Tables 15-5, 15-6). -/
def State.reenter (s : State) (d : Nat) (contentLost : Bool) : State :=
  let s := s.setDom d { s.dom d with st := .run, backAt := some s.refcnt, owner := none, test := none }
  if 8 ≤ d ∧ d < 16 then s.tillerBack (d - 8)
  else if 16 ≤ d then
    let s := s.stackBack (d - 16)
    if contentLost then s.contentLost (d - 16) else s
  else s

/-- DOMAIN_REENTRY_COMPLETE (R481, R485): the command that asked for the reset completes. A domain under test
ends its re-entry with BIST_COMPLETE (R469). -/
def execDomainReentryComplete (dom : Fin 40) (contentLost : Bool) (finds : List Finding) (s : State) : Out :=
  let d := dom.val
  let x := s.dom d
  if x.st ≠ .reentry ∨ x.test ≠ none then .next s
  else
    let s := s.findAll finds
    if s.boot.held || !s.canReenter d then .next s
    else
      let s := s.reenter d contentLost
      match x.owner with
      | some (q, seq) => .next (s.finish q seq 0 0)
      | none => .next s

/-- REENTRY_FAIL (R481): the second failure in a row leads to full package recovery. -/
def execReentryFail (dom : Fin 40) (s : State) : Out :=
  let d := dom.val
  let x := s.dom d
  if x.st ≠ .reentry then .next s
  else
    let s := s.setDom d { x with fails := x.fails + 1 }
    .next (if 2 ≤ x.fails + 1 then s.pkgRecovery 8 else s)

/-- RECOVERY_FAILED (R505): READY has not been reached within 4.0 s, or a third recovery has started within an hour. -/
def execRecoveryFailed (s : State) : Out :=
  .next (if !s.boot.recovery || s.boot.hold then s else s.recoveryFails)

/-! ### HOSTFN (R422, R543) -/

/-- HOST_RESET (R422, R543). -/
def execHostReset (s : State) : Out :=
  .next { s.hostFnDown with mgt := { s.mgt with hostRstN := false } }

/-- HOST_LINK_LOSS (R422). -/
def execHostLinkLoss (s : State) : Out := .next s.hostFnDown

/-! ### Stewards (R502) -/

/-- The command of a steward's turn ends with ABORTED. -/
def State.abortTurn (s : State) (e : QueueId × W32) : State :=
  let mine := s.launches.filter (fun l => decide (l.queue = e.1) && decide (l.seq = e.2))
  if mine.isEmpty then s.complete e.1 e.2 0x104 (((s.cmd e.1 e.2).map HCmd.got).getD 0) else mine.foldl (fun s l => s.stopLaunch l) s

/-- STW_WATCHDOG (R486, R502): the steward is reset alone; two stewards within 1 s lead to recovery. -/
def execStwWatchdog (w : Fin 4) (s : State) : Out :=
  let k := s.stew w.val
  if k.down then .next s
  else
    let s := match k.turn with
      | some e => s.abortTurn e
      | none => s
    let other := (List.range 4).any (fun v => decide (v ≠ w.val) && (match (s.stew v).downAt with
      | some t => !s.since t 1000000000
      | none => false))
    let s := s.setStew w.val { turn := none, turnAt := s.refcnt, down := true, downAt := some s.refcnt }
    let s := s.log 0x0802 3 none (s.stewardEc w.val) 0 w.val
    .next (if other then s.pkgRecovery 7 else s)

/-- STEWARD_RESTART_DONE (R502). -/
def execStewardRestartDone (w : Fin 4) (s : State) : Out :=
  .next (s.setStew w.val { s.stew w.val with down := false })

/-! ### The log's pin -/

/-- FLT_CORR_CLEAR (R475, R545). -/
def execFltCorrClear (s : State) : Out := .next { s with flt := { s.flt with corr := false } }

end Sys2Proof.Machine
end

