-- ==== Sys2Proof/Machine/Shake.lean ====
section
/-! DEFINITION. SHAKE256 (R442, R449, R553, R564, R580). PRESUMED: the function is FIPS 202's, which the spec
names and does not restate (assumption 11). -/

namespace Sys2Proof.Machine

/-- Lane `x + 5 y` of a state of 25 lanes. -/
def lane (a : List W64) (x y : Nat) : W64 := (a[x % 5 + 5 * (y % 5)]?).getD 0

/-- Rotation offsets of the 25 lanes. -/
def rotOffsets : List Nat :=
  [0, 1, 62, 28, 27, 36, 44, 6, 55, 20, 3, 10, 43, 25, 39, 41, 45, 15, 21, 8, 18, 2, 61, 56, 14]

/-- The constants of the 24 rounds. -/
def roundConsts : List W64 :=
  [0x0000000000000001, 0x0000000000008082, 0x800000000000808A, 0x8000000080008000,
   0x000000000000808B, 0x0000000080000001, 0x8000000080008081, 0x8000000000008009,
   0x000000000000008A, 0x0000000000000088, 0x0000000080008009, 0x000000008000000A] ++
  [0x000000008000808B, 0x800000000000008B, 0x8000000000008089, 0x8000000000008003,
   0x8000000000008002, 0x8000000000000080, 0x000000000000800A, 0x800000008000000A,
   0x8000000080008081, 0x8000000000008080, 0x0000000080000001, 0x8000000080008008]

/-- One round: theta, rho and pi, chi, iota. -/
def keccakRound (a : List W64) (rc : W64) : List W64 :=
  let col := fun (x : Nat) => (List.range 5).foldl (fun (w : W64) y => w ^^^ lane a x y) 0
  let cs := (List.range 5).map col
  let d := (List.range 5).map (fun x => (cs[(x + 4) % 5]?).getD 0 ^^^ ((cs[(x + 1) % 5]?).getD 0).rotateLeft 1)
  let t := (List.range 25).map (fun i => (a[i]?).getD 0 ^^^ (d[i % 5]?).getD 0)
  let b := (List.range 25).map (fun i =>
    let x := i % 5
    let y := i / 5
    let from_ := (x + 3 * y) % 5 + 5 * x
    ((t[from_]?).getD 0).rotateLeft ((rotOffsets[from_]?).getD 0))
  let c := (List.range 25).map (fun i =>
    let x := i % 5
    let y := i / 5
    lane b x y ^^^ ((~~~ lane b (x + 1) y) &&& lane b (x + 2) y))
  match c with
  | h :: r => (h ^^^ rc) :: r
  | [] => []

/-- The permutation. -/
def keccakF (a : List W64) : List W64 := roundConsts.foldl keccakRound a

/-- A block of 136 bytes taken into the state. -/
def absorb (a : List W64) (blk : List Byte) : List W64 :=
  keccakF ((List.range 25).map (fun i =>
    (a[i]?).getD 0 ^^^ (if i < 17 then BitVec.ofNat 64 (leAt blk (8 * i) 8) else 0)))

/-- Whole blocks of a padded message. -/
def absorbAll : Nat → List W64 → List Byte → List W64
  | 0, a, _ => a
  | n + 1, a, bs => absorbAll n (absorb a (bs.take 136)) (bs.drop 136)

/-- A message with its suffix and padding. -/
def shakePad (bs : List Byte) : List Byte :=
  let k := 136 - bs.length % 136
  bs ++ (if k = 1 then [0x9F] else 0x1F :: (List.replicate (k - 2) 0 ++ [0x80]))

/-- The first `n` bytes of SHAKE256, for `n` up to 136. -/
def shake256 (bs : List Byte) (n : Nat) : List Byte :=
  let m := shakePad bs
  let a := absorbAll (m.length / 136) (List.replicate 25 0) m
  (a.flatMap (fun w => toLE 8 w.toNat)).take n

end Sys2Proof.Machine
end

