-- ==== Sys2Proof/Machine/Image.lean ====
section
/-! DEFINITION. Images: the manifest, its checks, and the slots of the boot flash (R437 to R439, R441 to R443,
R460, R567, R568). -/

namespace Sys2Proof.Machine

/-! ### The manifest (Table 18-2) -/

/-- Bytes of an image. -/
def imgBytes (im : Tab Byte) (off n : Nat) : List Byte := Tab.getMany 0 im off n

/-- A little-endian field of an image. -/
def imgLE (im : Tab Byte) (off n : Nat) : Nat := ofLE (imgBytes im off n)

/-- OFFSET and LENGTH of the component of a type, 1 to 3; none where the manifest lists none. -/
def imgComp (im : Tab Byte) (type : Nat) : Option (Nat × Nat × List Byte) :=
  ((List.range 3).find? (fun k => decide (imgLE im (136 + 80 * k) 1 = type))).map (fun k =>
    (imgLE im (136 + 80 * k + 4) 4, imgLE im (136 + 80 * k + 8) 4, imgBytes im (136 + 80 * k + 16) 64))

/-- The bytes of a component. -/
def imgCompBytes (im : Tab Byte) (type : Nat) : List Byte :=
  match imgComp im type with
  | some (off, len, _) => imgBytes im off len
  | none => []

/-- Whether a component's SHAKE256 digest is the one that the manifest lists for it. -/
def imgDigestOk (im : Tab Byte) (type : Nat) : Bool :=
  match imgComp im type with
  | some (off, len, d) => decide (shake256 (imgBytes im off len) 64 = d)
  | none => false

/-- The form of a manifest (R568). -/
def imgFormOk (im : Tab Byte) : Bool :=
  decide (imgLE im 0 4 = 0x464D5848) && decide (imgLE im 4 2 = 1) && decide (imgLE im 6 1 = 3) &&
  [1, 2, 3].all (fun t => match imgComp im t with
    | some (off, len, _) => decide (off + len ≤ 16777216)
    | none => false)

/-- The owner key hash in the latest valid configuration generation (R442); empty where none is fused. -/
def State.ownerNow (s : State) : List Byte :=
  match lastValid s.sec.otp.cfg with
  | some (_, g) => g.owner
  | none => []

/-- Whether an owner key hash is fused: neither absent nor zero. -/
def ownerFused (h : List Byte) : Bool := h.any (fun b => decide (b ≠ 0))

/-- The check of an image (R442): 0 where it passes, else the step that fails. -/
def State.imageCheck (s : State) (im : Tab Byte) : Nat :=
  let key := imgBytes im 16 57
  let ownKey := imgBytes im 73 57
  let own := s.ownerNow
  if !imgFormOk im || decide (shake256 key 64 ≠ s.sec.otp.root) then 1
  else if !Config.ed448 key (imgBytes im 0 376) (imgBytes im 376 114) then 2
  else if ownerFused own && (decide (shake256 ownKey 64 ≠ own) ||
      !Config.ed448 ownKey (imgBytes im 0 490) (imgBytes im 490 114)) then 3
  else if !(imgLE im 12 4).testBit s.sec.cfg.sku.toNat || !(imgLE im 7 1).testBit s.sec.cfg.lc.toNat then 4
  else if !imgDigestOk im 1 then 5
  else 0

/-- Whether the golden table has the entries that this part's revision runs (R459, R460, Tables 14-2, 14-3). -/
def State.goldenOk (s : State) (im : Tab Byte) : Bool :=
  let b := imgCompBytes im 3
  let has := fun (cls sub : Nat) => (List.range (b.length / 32)).any (fun k =>
    decide (leAt b (32 * k) 1 = cls) && decide (leAt b (32 * k + 1) 1 = sub) &&
    decide (leAt b (32 * k + 2) 2 = s.sec.otp.rev.toNat))
  [1, 2, 3, 4].all (fun c => has c 0 && has c 1 && has c 2) && has 5 2

/-- What the steward checks before it uses the rest of an image (R442, R460). -/
def State.restOk (s : State) (im : Tab Byte) : Bool := imgDigestOk im 2 && imgDigestOk im 3 && s.goldenOk im

/-! ### The boot flash (Tables 13-3, 13-4) -/

/-- Slot states as STW_BOOT_FLASH codes them (Table 13-11). -/
def FlashSlot.code (x : FlashSlot) : Nat :=
  if x.state = 0xFFFFFFFF then 0 else if x.state = 0x77777777 then 1 else if x.state = 0x33333333 then 2 else 3

/-- Boots left to a TENTATIVE slot. -/
def FlashSlot.boots (x : FlashSlot) : Nat := popc x.tries

/-- A slot, A for false. -/
def Boot.flash (b : Boot) (slot : Bool) : FlashSlot := if slot then b.slotB else b.slotA

/-- Write a slot. -/
def Boot.setFlash (b : Boot) (slot : Bool) (x : FlashSlot) : Boot :=
  if slot then { b with slotB := x } else { b with slotA := x }

/-- TRIES with its lowest set bit cleared (R438). -/
def spendTry (t : W32) : W32 := t &&& (t - 1)

/-- An image written into a slot (R439): the slot is erased first, and ERASES counts it. -/
def FlashSlot.load (x : FlashSlot) (im : Tab Byte) (good : Bool) : FlashSlot :=
  { state := if good then 0x33333333 else 0x77777777
    tries := if good then 0xFFFFFFFF else 7
    erases := x.erases + 1
    version := BitVec.ofNat 32 (imgLE im 8 4)
    image := im }

/-- The outcome of a write of the slot that is not running (R439, R557), as a command status. -/
def State.writeSlot (s : State) (im : Tab Byte) (good : Bool) : State × Nat :=
  let run := s.boot.slot
  let x := s.boot.flash (!run)
  if s.imageCheck im ≠ 0 then (s, 0x113)
  else if good && decide ((s.boot.flash run).code ≠ 2) then (s, 0x102)
  else if 90000 ≤ x.erases.toNat then
    (State.log { s with boot := { s.boot with flashWear := true } } 0x0605 1 none (s.stewardEc 0) 0 0, 0x102)
  else ({ s with boot := s.boot.setFlash (!run) (x.load im good) }, 0)

/-- The next slot to try (R438): a TENTATIVE one with tries left, then the GOOD one with the higher VERSION; slot
A where nothing else decides. -/
def Boot.candidate (b : Boot) : Option Bool :=
  let tent := fun (k : Bool) => decide ((b.flash k).code = 1) && decide ((b.flash k).boots ≠ 0)
  let good := fun (k : Bool) => decide ((b.flash k).code = 2)
  if tent false then some false
  else if tent true then some true
  else if good false && good true then some (decide (b.slotA.version.toNat < b.slotB.version.toNat))
  else if good false then some false
  else if good true then some true
  else none

/-- A slot becomes BAD: every bit of STATE clears. -/
def Boot.spoil (b : Boot) (k : Bool) : Boot := b.setFlash k { b.flash k with state := 0 }

/-! ### Keys (R564 to R566, Table 18-1) -/

/-- The ASCII bytes of "HXDEVID". -/
def devIdLabel : List Byte := [0x48, 0x58, 0x44, 0x45, 0x56, 0x49, 0x44]

/-- The ASCII bytes of "HXALIAS". -/
def aliasLabel : List Byte := [0x48, 0x58, 0x41, 0x4C, 0x49, 0x41, 0x53]

/-- The DevID private key, which never changes. -/
def devIdKey (uds : List Byte) : List Byte := shake256 (uds ++ devIdLabel) 57

/-- The alias key, from the UDS and its other inputs. -/
def aliasKey (uds inputs : List Byte) : List Byte := shake256 (uds ++ aliasLabel ++ inputs) 57

/-- The SHAKE256 digest that a measurement and the inputs of the AK carry. -/
def digest64 (b : List Byte) : List Byte := shake256 b 64

/-- An owner key hash as 64 bytes, zero where there is none (Table 18-1). -/
def ownerBytes (h : List Byte) : List Byte := if ownerFused h then h else List.replicate 64 0

/-- The inputs of the AK other than the UDS (Table 18-1, R565): the life-cycle code, the owner key hash in force and the
digest of the steward firmware of the image that runs. -/
def State.akInputs (s : State) : List Byte :=
  toLE 1 s.sec.cfg.lc.toNat ++ ownerBytes s.sec.cfg.owner ++ digest64 (imgCompBytes s.sec.image 1)

/-- A certificate that the DevID key signs. -/
def signedCert (dev body : List Byte) : List Byte := Config.certificate body (Config.ed448Sign dev body)

/-- The ROM derives both keys and issues the two certificates (R565, R566). It erases the DevID key, which therefore no field
holds, and closes the UDS port. -/
def State.deriveKeys (s : State) : State :=
  if s.sec.udsOpen then
    let uds := s.sec.otp.uds
    let dev := devIdKey uds
    let key := aliasKey uds s.akInputs
    let chain := signedCert dev (Config.devIdBody s.sec.otp.serial (Config.ed448Public dev)) ++
      signedCert dev (Config.akBody (Config.ed448Public key) s.akInputs)
    { s with sec := { s.sec with ak := some { key := key, chain := chain }, udsOpen := false } }
  else s

/-- The image that passed is the one that runs; the keys are derived (R565). -/
def State.runImage (s : State) (im : Tab Byte) : State :=
  State.deriveKeys { s with sec := { s.sec with image := im }, boot := { s.boot with phase := 3 } }

/-- A check fails (R443): its step is recorded. The step of a failure that R442 does not number is open
(R460). -/
def State.failCheck (s : State) (step : Nat) : State :=
  let (v, s) := s.draw
  { s with boot := { s.boot with fail := if step = 0 then v.setWidth 3 else BitVec.ofNat 3 step } }

/-- Nothing is left to boot from: ERR_FATAL_N asserts and the ROM waits for an image on the management port
(R438). -/
def State.noSlot (s : State) : State :=
  { s with boot := { s.boot with source := 3 }, flt := { s.flt with fatal := true } }

/-- The ROM tries the slots in turn (R438). Each is tried once. -/
def State.trySlots (s : State) : Nat → State
  | 0 => s.noSlot
  | n + 1 =>
    match s.boot.candidate with
    | none => s.noSlot
    | some k =>
      let x := s.boot.flash k
      let step := s.imageCheck x.image
      if step ≠ 0 ∨ s.restOk x.image = false then
        let s := s.failCheck step
        State.trySlots { s with boot := s.boot.spoil k } n
      else
        let tent := decide (x.code = 1)
        let b := if tent then s.boot.setFlash k { x with tries := spendTry x.tries } else s.boot
        State.runImage { s with boot := { b with slot := k, tentative := tent } } x.image

/-- TENTATIVE slots without tries become BAD (R438). -/
def Boot.spoilSpent (b : Boot) : Boot :=
  [false, true].foldl (fun (b : Boot) (k : Bool) =>
    if (b.flash k).code = 1 ∧ (b.flash k).boots = 0 then b.spoil k else b) b

/-- A received image has failed its check: the package waits in phase VERIFY for one on the management port (R443). -/
def State.dropReceived (s : State) (step : Nat) : State :=
  let s := s.failCheck step
  { s with boot := { s.boot with phase := 2, source := 3, image := [], whole := false, got := [], had := 0 } }

/-- An image received whole is checked (R442, R443). -/
def State.tryReceived (s : State) : State :=
  let im := s.boot.image
  let step := s.imageCheck im
  if step ≠ 0 ∨ s.restOk im = false then s.dropReceived step else s.runImage im

/-- Whether a host push has brought the manifest and the steward firmware, which the ROM checks first (R440, R442). -/
def Boot.leadHere (b : Boot) : Bool :=
  decide (b.source = 1) && decide (604 ≤ b.had) && (match imgComp b.image 1 with
    | some (off, len, _) => decide (off + len ≤ b.had)
    | none => true)

/-- A steward asks for the chunk of a host push at an image offset: STW_PUSH_REQ and the PF's vector 0 (R440). -/
def State.pushAsk (s : State) (off : Nat) : State :=
  { s with
    boot := { s.boot with pushReq := BitVec.ofNat 32 (off / 1024) }
    host := { s.host with msix := s.host.msix ++ [(0, 0)] } }

/-- The first part of a pushed image is checked by the ROM; the stewards then ask for the rest (R440, R442, R443). -/
def State.tryLead (s : State) : State :=
  let step := s.imageCheck s.boot.image
  if step ≠ 0 then s.dropReceived step else (s.runImage s.boot.image).pushAsk s.boot.had

end Sys2Proof.Machine
end

