-- ==== Sys2Proof/Machine/Boot.lean ====
section
/-! DEFINITION. Bring-up, boot sources, firmware distribution and in-field self-test (R26, R429 to R447, R451,
R456 to R473, R541, R542, R573). -/

namespace Sys2Proof.Machine

/-! ### Resets and straps (R433, R436, R541, R542) -/

/-- Whether a stack or zone reads 110 °C or above (R545). -/
def State.tripHot (s : State) : Bool :=
  s.pwr.zones.any (fun e => e.2.atLeast 880) || s.grn.ctrls.any (fun e => decide (110 ≤ e.2.temp.toNat))

/-- PKG_RESET_RELEASE (R26, R429, R541, R545): the reference counter starts at 0 and the trip is released
unless a zone or stack is still that hot. -/
def execPkgResetRelease (s : State) : Out :=
  if !s.boot.inReset then .next s
  else
    let trip := s.mgt.trip && s.tripHot
    let s := { s with
      refcnt := 0
      mgt := { s.mgt with pwrOk := true, trip := trip }
      pwr := { s.pwr with stopped := trip } }
    .next s.romStart

/-- PKG_RESET_ASSERT (R433, R541). -/
def execPkgResetAssert (s : State) : Out := .next s.cold

/-- PWR_OK_FALL (R433, R541, R600): the stacks lose their soft repairs with their power (R245). -/
def execPwrOkFall (s : State) : Out :=
  let s := s.cold.dropSoft
  .next { s with mgt := { s.mgt with pwrOk := false } }

/-- STRAP_SAMPLE (R436, R542): once, after the release. -/
def execStrapSample (s : State) : Out :=
  if s.boot.inReset || s.boot.sampled then .next s
  else
    let sel : BitVec 2 := BitVec.ofNat 2 ((if s.mgt.sel1 then 2 else 0) + (if s.mgt.sel0 then 1 else 0))
    .next { s with boot := { s.boot with sampled := true, src := sel, source := sel, compat := s.mgt.compat } }

/-- STRAP_CHANGE (R542): a change after sampling is noted and has no other effect. -/
def execStrapChange (pin : StrapPin) (level : Bool) (s : State) : Out :=
  let m := s.mgt
  let m' := match pin with
    | .bootSel0 => { m with sel0 := level }
    | .bootSel1 => { m with sel1 := level }
    | .compatH3 => { m with compat := level }
  .next { s with mgt := { m' with strapChanged := m.strapChanged || (s.boot.sampled && decide (m' ≠ m)) } }

/-! ### Phases (R429, Table 13-1) -/

/-- The code of a phase (Table 13-1). -/
def phaseCode : Phase → BitVec 4
  | .rom => 1 | .verify => 2 | .transit => 3 | .tillers => 4 | .granary => 5 | .firmware => 6 | .floor => 7
  | .ready => 8 | .failed => 0xF

/-- Whether a tiller's bring-up is done: its 12 waves, or it is dead (R430). -/
def State.waved (s : State) (t : Nat) : Bool :=
  s.floor.deadTil.getLsbD t || decide (Tab.get 0 s.boot.waves t = 12)

/-- Loaders that must run their firmware (R444): of live tillers and live panicles. -/
def State.loaders (s : State) : List Nat :=
  (List.range 8).filter (fun t => !s.floor.deadTil.getLsbD t) ++
  ((List.range 1536).filter (fun p => !s.floor.panDead p)).map (· + 8)

/-- Loaders that have not started their firmware. -/
def State.lacking (s : State) : List Nat := s.loaders.filter (fun u => !s.boot.running.contains u)

/-- Bring-up stops with PHASE 0xF and ERR_FATAL_N (R461). -/
def State.bootStop (s : State) : State :=
  { s with boot := { s.boot with phase := 0xF }, flt := { s.flt with fatal := true } }

/-- The phase advances, unless a finding under COMPAT_H3 holds the package. -/
def State.phaseTo (s : State) (p : BitVec 4) : State :=
  if s.boot.held then s else { s with boot := { s.boot with phase := p } }

/-- Phase ROM ends (Table 13-1, R440, R461, R465): a hub that fails stops bring-up. For a fabric boot every straw
trains. -/
def State.endRom (s : State) (finds : List Finding) : State :=
  if !s.boot.sampled then s
  else if finds.contains .hub || finds.contains .hubClock then s.bootStop
  else
    let s := (s.findAll finds).phaseTo 2
    if s.boot.source = 2 then (List.range 32).foldl (fun s w => s.setStraw w (s.straw w).train) s else s

/-- Phase VERIFY ends (R438, R440, R442, R443, R565): a slot is selected, or the image received is checked, of a host push
the part that the ROM needs. -/
def State.endVerify (s : State) : State :=
  if s.boot.source = 0 then State.trySlots { s with boot := s.boot.spoilSpent } 2
  else if s.boot.whole then s.tryReceived
  else if s.boot.leadHere then s.tryLead
  else s

/-- Phase TRANSIT ends (Table 13-1): straw training has started. The tests that follow need the golden table, so a host
push must have brought the whole image (R440, R459). -/
def State.endTransit (s : State) (finds : List Finding) : State :=
  if s.boot.source = 1 ∧ s.boot.whole = false then s else
  let s := (s.findAll finds).phaseTo 4
  let live := (List.range 32).filter (fun w =>
    (s.straw w).en && !s.floor.deadStraw.getLsbD w && decide ((s.straw w).state = .off))
  live.foldl (fun s w => s.setStraw w (s.straw w).train) s

/-- Phase FLOOR ends (R3, R451, R453): the map is published with version 1, and a repair generation is written if
one is needed. READY follows: a TENTATIVE slot becomes GOOD and fetching begins (R434, R438). -/
def State.endFloor (s : State) : State :=
  let s := s.reportFloor.floorGuarantee
  let s := State.floorWrite { s with floor := { s.floor with version := 1 } }
  let s := s.fuseNews
  let b := s.boot
  let b := if b.tentative && decide (b.source = 0) then
    b.setFlash b.slot { b.flash b.slot with state := (b.flash b.slot).state &&& 0x33333333 } else b
  { s with boot := { b with phase := 8, recovery := false,
                            ms := BitVec.ofNat 32 ((s.refcnt - b.start).toNat / 1000000) } }

/-- BOOT_PHASE_COMPLETE (R429): the phase in force ends once what it does is done. -/
def execBootPhaseComplete (ph : Phase) (finds : List Finding) (s : State) : Out :=
  if s.boot.inReset || s.boot.hold || s.boot.held || decide ((s.dom 0).st ≠ .run) ||
      decide (s.boot.phase ≠ phaseCode ph) then .next s
  else match ph with
    | .rom => .next (s.endRom finds)
    | .verify => .next s.endVerify
    | .transit => .next (s.endTransit finds)
    | .tillers =>
      if (List.range 8).all (fun t => s.waved t) then .next ((s.findAll finds).phaseTo 5) else .next s
    | .granary => if s.boot.groups = 3 then .next ((s.findAll finds).phaseTo 6) else .next s
    | .firmware => if s.lacking.isEmpty then .next (s.phaseTo 7) else .next s
    | .floor => .next s.endFloor
    | .ready => .next s
    | .failed => .next s

/-- TILLER_WAVE (R430, R435, R457, R463): in phase TILLERS pair by pair, or in the re-entry of a tiller. The
wave's panicles hold zeros after their memory self-test. -/
def execTillerWave (t : TillerId) (wave : Fin 12) (finds : List Finding) (s : State) : Out :=
  let boot := decide (s.boot.phase = 4) && !s.boot.held && !s.boot.inReset &&
    (List.range 8).all (fun u => decide (t.val % 4 ≤ u % 4) || s.waved u)
  let again := decide ((s.dom (8 + t.val)).st = .reentry)
  if !(boot || again) || decide (Tab.get 0 s.boot.waves t.val ≠ wave.val) then .next s
  else
    let s := (List.range 16).foldl (fun s k => s.testPan (t.val * 192 + wave.val * 16 + k)) s
    let s := s.findAll finds
    .next { s with boot := { s.boot with waves := Tab.set 0 s.boot.waves t.val (wave.val + 1) } }

/-- HBM_GROUP_TRAINED (R245, R432): the groups train one after another. -/
def execHbmGroupTrained (g : Fin 3) (s : State) : Out :=
  if s.boot.phase ≠ 5 ∨ s.boot.held = true ∨ s.boot.groups ≠ g.val then .next s
  else
    let s := (List.range 8).foldl (fun (s : State) (t : Nat) =>
      let n := 3 * t + g.val
      if s.floor.deadStack.getLsbD n then s else s.stackBack n) s
    .next { s with boot := { s.boot with groups := g.val + 1 } }

/-- HBM_TRAINING_TIMEOUT (R432): a stack of the group that trains is dead. -/
def execHbmTrainingTimeout (n : StackId) (s : State) : Out :=
  if s.boot.phase ≠ 5 ∨ s.boot.groups ≠ n.val % 3 then .next s
  else .next (State.killStack { s with boot := { s.boot with finds := s.boot.finds ++ [.stackPll n] } } n.val)

/-! ### Firmware distribution (R444 to R447) -/

/-- Blocks of the controller firmware (R445). -/
def State.fwBlocks (s : State) : Nat :=
  match imgComp s.sec.image 2 with
  | some (_, len, _) => (len + 1023) / 1024
  | none => 0

/-- The tiller of a loader. -/
def loaderTiller (u : Nat) : Nat := if u < 8 then u else tillerOfPan (u - 8)

/-- Whether a loader takes firmware now: in phase FIRMWARE, or as its tiller re-enters (R435). -/
def State.loading (s : State) (u : Nat) : Bool :=
  s.lacking.contains u && (decide (s.boot.phase = 6) || decide ((s.dom (8 + loaderTiller u)).st = .reentry))

/-- FW_BLOCK (R445): a block whose bit is set is ignored. -/
def execFwBlock (u : Fin 1544) (block : Nat) (s : State) : Out :=
  let have_ := Tab.get [] s.boot.blocks u.val
  if !s.loading u.val || have_.contains block || decide (s.fwBlocks ≤ block) then .next s
  else .next { s with boot := { s.boot with blocks := Tab.set [] s.boot.blocks u.val (have_ ++ [block]) } }

/-- A loader with a complete bitmap computes its digest: it starts its firmware, or its bitmap is cleared
(R446). -/
def State.fwDigest (s : State) (bad : List Nat) (u : Nat) : State :=
  if (Tab.get [] s.boot.blocks u).length < s.fwBlocks then s
  else if bad.contains u then { s with boot := { s.boot with blocks := Tab.set [] s.boot.blocks u [] } }
  else { s with boot := { s.boot with running := s.boot.running ++ [u] } }

/-- A controller is out of service (R447): its panicle is dead, or its tiller at boot. -/
def State.fwOutOf (s : State) (u : Nat) : State :=
  let s := { s with boot := { s.boot with fwOut := satAdd s.boot.fwOut 1 } }
  if 8 ≤ u then s.killPan (u - 8) 3
  else if s.boot.phase = 6 then s.killTil u true
  else s

/-- FW_REPAIR_ROUND (R446, R447): the end of a round; the missing blocks have come as blocks of their own. The
third round leaves what still lacks its firmware out of service. A housekeeping controller that fails in a
re-entry fails the re-entry (R481). -/
def execFwRepairRound (bad : List (Fin 1544)) (s : State) : Out :=
  let bad := bad.map (·.val)
  if s.boot.phase = 6 then
    if 3 ≤ s.boot.rounds.toNat then .next s
    else
      let s : State := s.lacking.foldl (fun s u => s.fwDigest bad u) s
      let s : State := { s with boot := { s.boot with rounds := s.boot.rounds + 1 } }
      .next (if s.boot.rounds = 3 then s.lacking.foldl (fun s u => s.fwOutOf u) s else s)
  else
    let ts := (List.range 8).filter (fun t => decide ((s.dom (8 + t)).st = .reentry))
    .next (ts.foldl (fun (s : State) (t : Nat) =>
      let n := Tab.get 0 s.boot.reRounds t
      if 3 ≤ n then s
      else
        let mine := fun (s : State) => s.lacking.filter (fun u => decide (loaderTiller u = t))
        let s : State := (mine s).foldl (fun s u => s.fwDigest bad u) s
        let s : State := { s with boot := { s.boot with reRounds := Tab.set 0 s.boot.reRounds t (n + 1) } }
        if n + 1 = 3 then (mine s).foldl (fun s u => s.fwOutOf u) s else s) s)

/-! ### Host push and fabric boot (R440) -/

/-- A chunk of a host push is in its place in the image (R440). -/
def Boot.pushed (b : Boot) (v : W32) : Boot :=
  let len := fld v 16 0
  let off := fld v 28 17 * 65536
  { b with
    push := putBit (v &&& 0x3FFFFFFF) 30 true
    image := Tab.setMany 0 b.image off (Tab.getMany 0 b.window 0 len)
    had := if off ≤ b.had then Nat.max b.had (off + len) else b.had
    whole := b.whole || v.getLsbD 29 }

/-- A chunk in the push window is taken: it is copied. The stewards, where they run and the image is not whole, ask for
what follows it, and check the rest of the image once it is (R440, R442, R443). -/
def State.pushGo (s : State) (v : W32) : State :=
  let len := fld v 16 0
  let b := s.boot
  if b.source ≠ 1 ∨ len = 0 ∨ 65536 < len then { s with boot := { b with push := v &&& 0x3FFFFFFF } }
  else
    let s : State := { s with boot := b.pushed v }
    if b.whole = true ∨ b.phase.toNat < 3 then s
    else
      let s : State := { s with sec := { s.sec with image := s.boot.image } }
      if v.getLsbD 29 = false then s.pushAsk (fld v 28 17 * 65536 + len)
      else if s.restOk s.boot.image then s
      else s.dropReceived 0

/-- PUSH_GO (R440, Table 13-12). -/
def execPushGo (v : W32) (s : State) : Out := .next (s.pushGo v)

/-- PUSH_TIMEOUT (R440). -/
def execPushTimeout (s : State) : Out :=
  if s.boot.source = 1 ∧ s.boot.inReset = false ∧ s.boot.phase.toNat ≤ 3 ∧ s.boot.whole = false then
    .next { s with flt := { s.flt with fatal := true } }
  else .next s

/-- Bytes of the image that runs, up to the end of its last component. -/
def imgEnd (im : Tab Byte) : Nat :=
  [1, 2, 3].foldl (fun (n : Nat) (t : Nat) => match imgComp im t with
    | some (off, len, _) => Nat.max n (off + len)
    | none => n) 604

/-- BOOT_REQ (R440): a running steward answers with blocks of 1 KiB of its own image, on the straw that the request came
by: its sender has no coordinates (assumption 184). -/
def execBootReq (w : StrawId) (peer : Ec) (s : State) : Out :=
  if s.boot.phase.toNat < 3 ∨ s.boot.phase = 0xF then .next s
  else
    let im := s.sec.image
    .next ((List.range ((imgEnd im + 1023) / 1024)).foldl (fun (s : State) (k : Nat) =>
      s.sendStwBy (some w) peer (.firmware (s.stewardEc 0) (imgBytes im (k * 1024) 1024))) s)

/-- The next straw of a fabric boot: the lowest that has not been tried and whose peer's frames say that it holds
a rack plan; a BOOT_REQ goes out on it, without the routing tables and with an open SSEQ (assumption 184). With none
left ERR_FATAL_N asserts. -/
def State.nextBootStraw (s : State) (tried : List StrawId) : State :=
  let ok := fun (w : Nat) => !tried.contains (Fin.ofNat 32 w) && (match (s.straw w).heard with
    | some r => r.holdsPlan
    | none => false)
  match (List.range 32).find? ok with
  | none => { s with boot := { s.boot with straw := none, tried := tried }, flt := { s.flt with fatal := true } }
  | some w =>
    let s := { s with boot := { s.boot with straw := some (Fin.ofNat 32 w), tried := tried, image := [], got := [] } }
    match (s.straw w).heard with
    | some r =>
      let (v, s) := s.draw
      let dst := ecOf (r.rack ++ r.x ++ r.y ++ r.z) 0 0 0 0x7F
      (s.noteStw dst (.firmware (s.stewardEc 0) [])).onStraw w (v.setWidth 10) { s.stwPkt dst with vc := 6 }
    | none => s

/-- Whether the ROM boots over the fabric. -/
def State.fabricBoot (s : State) : Bool :=
  decide (s.boot.source = 2) && decide (s.boot.phase = 2) && !s.boot.whole && !s.boot.inReset

/-- BOOT_DATA (R440): the image is whole once every block up to the end of its last component has come. -/
def execBootData (w : StrawId) (block : Nat) (bytes : List Byte) (s : State) : Out :=
  if !s.fabricBoot || decide (s.boot.straw ≠ some w) || decide (bytes.length ≠ 1024) ||
      decide (16384 ≤ block) || s.boot.got.contains block then .next s
  else
    let im := Tab.setMany 0 s.boot.image (block * 1024) bytes
    let got := block :: s.boot.got
    let whole := got.contains 0 && (List.range ((imgEnd im + 1023) / 1024)).all (fun k => got.contains k)
    .next { s with boot := { s.boot with image := im, got := got, whole := whole } }

/-- BOOT_DATA_TIMEOUT (R440): the ROM moves to the next straw. -/
def execBootDataTimeout (s : State) : Out :=
  if !s.fabricBoot then .next s
  else .next (s.nextBootStraw (match s.boot.straw with
    | some w => w :: s.boot.tried
    | none => s.boot.tried))

/-- FABRIC_BOOT_RETRY (R440): every straw is tried again. -/
def execFabricBootRetry (s : State) : Out :=
  if s.fabricBoot && s.boot.straw.isNone then .next (s.nextBootStraw []) else .next s

/-! ### Images and OTP -/

/-- LOAD_FW (R413, R439). The write is one step, so no PLDM update meets it (R557). -/
def execLoadFw (q : QueueId) (seq : W32) (s : State) : Out :=
  match s.running q seq 0x0D with
  | none => .next s
  | some m =>
    if 1 < m.p 2 ∨ 16777216 < m.p 1 then .next (s.finish q seq 0x101 0)
    else if s.hostGone m then .next (s.finish q seq 0x109 0)
    else
      let (s, bs) := s.hostGet m.via m.fn (m.p 0) (m.p 1)
      let im := Tab.setMany 0 [] 0 bs
      let (s, st) := s.writeSlot im (decide (m.p 2 = 1))
      .next (s.finish q seq st 0)

/-- OTP_GENERATION_WRITTEN (R451, R571). -/
def execOtpGenerationWritten (s : State) : Out :=
  let o := s.sec.otp
  match o.writing with
  | none => .next s
  | some (.cfg g) =>
    .next { s with sec := { s.sec with otp := { o with cfg := o.cfg ++ [some g], writing := none } } }
  | some (.rep es) => .next { s with
    sec := { s.sec with otp := { o with rep := o.rep ++ [some es], writing := none } }
    boot := { s.boot with fuseWritten := true } }

/-! ### In-field self-test (R456, R467 to R472) -/

/-- Whether the state in force permits the full subset (Table 14-1). -/
def State.fullOk (s : State) : Bool := decide (s.sec.cfg.lc = 0) || decide (s.sec.cfg.lc = 3)

/-- Whether a domain is drained (R468). -/
def State.drained (s : State) (d : Nat) : Bool :=
  if 8 ≤ d ∧ d < 16 then
    let t := d - 8
    (s.panKeys.filter (fun p => decide (tillerOfPan p = t))).all (fun p =>
      (s.pan p).bound.isNone && (s.pan p).movs.isEmpty && (s.pan p).movPosts.isEmpty) &&
    !s.launches.any (fun l => decide (leadTiller l.graph = t) || l.holds.any (fun p => decide (tillerOfPan p.val = t)))
  else if 16 ≤ d then !s.host.ctxs.any (fun e => decide (e.2.st ≠ .free))
  else true

/-- Panicles that are dead. -/
def Floor.deadPans (m : Floor) : Nat := (List.range 1536).countP (fun p => m.panDead p)

/-- Rows of the stacks that have been repaired. -/
def State.softRows (s : State) : Nat := s.grn.ctrls.foldl (fun n e => n + e.2.soft.length) 0

/-- BIST (R413, R456, R467, R468, R614). -/
def execBist (q : QueueId) (seq : W32) (s : State) : Out :=
  match s.running q seq 0x0E with
  | none => .next s
  | some m =>
    if m.step ≠ 0 then .next s
    else
      let p1 := m.p 1
      match domSel (m.p 0) with
      | some (.dom d) =>
        if 16 ≤ p1 then .next (s.finish q seq 0x101 0)
        else if s.sec.cfg.lc = 4 ∨ ((8 ≤ p1 ∨ d = 1) ∧ s.fullOk = false) then .next (s.finish q seq 0x114 0)
        else if (s.dom d).st ≠ .run ∨ s.bist.running = true then .next (s.finish q seq 0x116 0)
        else if !s.drained d then .next (s.finish q seq 0x115 0)
        else
          let sub : BitVec 4 := if p1 = 0 then 7 else BitVec.ofNat 4 p1
          let base := (s.floor.usable, s.floor.deadPans, s.softRows)
          let (v, s) := s.draw
          let s := (s.setCmd q { m with step := 1 }).decideReset d (v.setWidth 4) (some (q, seq)) (some sub)
          .next { s with
            boot := { s.boot with news := [] }
            bist := { s.bist with running := true, domain := BitVec.ofNat 8 (domCode d), subset := sub, base := base } }
      | some .whole => .next (s.finish q seq 0x101 0)
      | some .hostFn => .next (s.finish q seq 0x101 0)
      | some (.context _) => .next (s.finish q seq 0x101 0)
      | none => .next (s.finish q seq 0x101 0)

/-- Domains, by index. -/
def domIndices : List Nat := [1] ++ (List.range 32).map (· + 8)

/-- The domain under test. -/
def State.tested (s : State) : Option Nat := domIndices.find? (fun d => (s.dom d).test.isSome)

/-- RESULT of a BIST command (R472). -/
def bistResult (outcome : Nat) (sub : BitVec 4) (spks rows pans analog : Nat) : W64 :=
  BitVec.ofNat 64 (outcome * 2 ^ 56 + sub.toNat * 2 ^ 48 + spks % 65536 * 2 ^ 32 + rows % 65536 * 2 ^ 16 +
    pans % 256 * 2 ^ 8 + analog % 256)

/-- The test's command completes with its RESULT, which the registers keep. -/
def State.bistEnd (s : State) (owner : Option (QueueId × W32)) (r : W64) (whole : Bool) : State :=
  let b := s.bist
  let s := { s with bist := { b with running := false, result := r, count := if whole then satAdd b.count 1 else b.count } }
  match owner with
  | some (q, seq) => s.finish q seq 0 r.toNat
  | none => s

/-- BIST_COMPLETE (R464, R466, R469, R471, R472): the domain under test has re-entered. What a GRANARY test
overwrites is staged again. -/
def execBistComplete (finds : List Finding) (analog : Nat) (s : State) : Out :=
  match s.tested with
  | none => .next s
  | some d =>
    let x := s.dom d
    let sub := x.test.getD 0
    if x.st ≠ .reentry then .next s
    else if s.boot.compat && !finds.isEmpty then
      .next ((s.bistEnd x.owner (bistResult 3 sub 0 0 0 analog) true).findAll finds)
    else
      let (usable0, pans0, rows0) := s.bist.base
      let s := s.findAll finds
      if !s.canReenter d then .next s
      else
        let rowNews := s.boot.news.countP (fun e => decide (repKind e = 3) || decide (repKind e = 4))
        let rows := rowNews + (s.softRows - rows0)
        let spks := usable0 - s.floor.usable
        let pans := s.floor.deadPans - pans0
        let lost := decide (rowNews < s.boot.news.length)
        let r := bistResult (if lost then 2 else if 0 < rows then 1 else 0) sub spks rows pans analog
        let s := if 16 ≤ d ∧ (sub.getLsbD 1 || sub.getLsbD 3) = true then s.zeroStack (d - 16) else s
        let s := s.reportNews.fuseNews
        let s := s.reenter d false
        let s := if 16 ≤ d then
          State.wipe { s with glean := { s.glean with valid := false, length := 0 } } Config.dumpAddr (2 ^ 28) else s
        let s := if 8 ≤ d ∧ d < 16 then s else s.floorChanged
        .next (s.bistEnd x.owner r true)

/-- BIST_ABANDON (R470): a zone of the tiller under test reaches its throttle temperature. The domain re-enters
without a change to the floor map. -/
def execBistAbandon (z : ZoneId) (s : State) : Out :=
  let d := 8 + zoneTiller z.val
  let x := s.dom d
  match x.test with
  | none => .next s
  | some sub =>
    if x.st = .glean then .next s
    else
      let s := s.setDom d { x with test := none, owner := none }
      .next (s.bistEnd x.owner (bistResult 4 sub 0 0 0 0) false)

end Sys2Proof.Machine
end

