-- ==== Sys2Proof/Machine/Decision.lean ====
section
/-! DEFINITION. Who waits at each arbiter instance, and its decisions (R45, R48, R225 to R237, R257 to R260, R297). -/

namespace Sys2Proof.Machine

/-- The rows that the lattice wants of its bank (Table 2-4), each by its operation's place: for buffers with room
(R63). -/
def Spikelet.rowAsks (sp : Spikelet) : List Nat :=
  [RowStream.weights, .metadata, .scales].filterMap (fun st => sp.rowFor st)

/-- The drains that want to write their bank (Table 2-4). -/
def Spikelet.drainAsks (sp : Spikelet) : List Drain :=
  sp.drains.filter (fun d => (match d.dst with
    | .bank _ => true
    | _ => false) && !sp.drainWaits d)

/-- Whether an address of this package lies in a bank. -/
def inBank (loc i : Nat) : Bool :=
  match ctxAddr loc with
  | .bank j _ => decide (j = i)
  | _ => false

/-- Whether a started descriptor reads or writes a bank. -/
def State.movTouches (s : State) (i : Nat) (m : MovDesc) : Bool :=
  decide (m.stage = .started) && [m.d.src, m.d.dst].any (fun a => match s.gaddr a with
    | some g => g.own && inBank g.loc i
    | none => false)

/-- Whether a request that has reached its endpoint is for a bank. -/
def pktTouches (i : Nat) (q : Packet) : Bool :=
  decide (q.kind = 0) && (match ecFn q.dst with
    | 0x10 => decide (ecSpkIx q.dst = i)
    | 0x41 => inBank q.addr.toNat i
    | _ => false)

/-- What the panicle mover wants a bank for (Table 2-4): its descriptors, incoming requests, and the result rows of
panicle reductions. -/
def State.movAsks (s : State) (i : Nat) : List Aim :=
  s.cores.panicles.flatMap (fun e => (e.2.movs.filter (s.movTouches i)).map (fun m => .mov e.1 m.id)) ++
  (s.fab.delivered.filter (pktTouches i)).map (fun q => .pkt q) ++
  ((s.pan (panOfSpk i)).reds.filter (fun r => r.2.started && decide (redDst r.2.ctl = 1) &&
    decide (panOfSpk i * 64 + fld r.2.ctl 21 16 = i))).map (fun r => .red r.1)

/-- Requests of the florets' class (R48): none while its oldest must wait for a drain (R133). -/
def Spikelet.floretAsks (sp : Spikelet) : Nat :=
  match sp.bankQ with
  | [] => 0
  | r :: _ => if sp.drainFirst r then 0 else sp.bankQ.length

/-- The packets of an injection class that wait for their grant, oldest first (R257). -/
def State.injQueue (s : State) (p : PanId) (r : Nat) : List Packet :=
  ((s.arb (.inject p)).given ++ s.fab.routed.map (·.pkt)).foldl List.erase (s.fab.sent.filter (s.injects p.val r))

/-- Those of them for which the L port's buffer has room (R258): what waits in it is what was granted and has not gone on. -/
def State.injReady (s : State) (p : PanId) (r : Nat) : List Packet :=
  let inL := (s.arb (.inject p)).given
  (s.injQueue p r).filter (fun q => decide (flitsOn q.vc inL + flitsOf q ≤ 33))

/-- The straw that the next packet of a sub-sheaf and channel is queued for (R291, R297): the next member in turn that can
take it whole. -/
def State.shfNext (s : State) (n t : Nat) (p : Packet) : Option Nat :=
  nextMember ((s.liveOn n t).filter (fun w => (s.straw w).ready p)) (Tab.get 0 (s.sheaf n).last (t * 8 + p.vc.toNat))

/-- The packets of a virtual channel that wait for a straw, oldest first (R297): those of its sub-sheaf while the oldest is
queued for it, after the reduction packets that name the straw (R347). -/
def State.shfQueue (s : State) (w : StrawId) (vc : Nat) : List Packet :=
  match s.sheafOf w.val with
  | none => []
  | some n =>
    (s.givenTo w.val).foldl List.erase (s.shfNamed w.val vc) ++
    match s.shfWaits n (w.val / 4) vc with
    | [] => []
    | p :: ps => if s.shfNext n (w.val / 4) p = some w.val then p :: ps else []

/-- The packet that a straw grants to the class that won (R297): the oldest, or, in the data channels, the oldest of the
slice whose share is due (R339). The next member is then the next straw (R291). -/
def State.shfGrant (s : State) (w : StrawId) (vc : Nat) : State × Option Packet :=
  let ps := s.shfQueue w vc
  let r := if vc = 2 ∨ vc = 3 then (s.straw w.val).nextShare ps (16 * 2 + 1) else (s.straw w.val, ps.head?)
  let s := s.setStraw w.val r.1
  match s.sheafOf w.val, r.2 with
  | some n, some p =>
    if p.via.isSome then (s, some p) else
    let sh := s.sheaf n
    (s.setSheaf n { sh with last := Tab.set 0 sh.last (w.val / 4 * 8 + p.vc.toNat) (w.val + 1) }, some p)
  | _, q => (s, q)

/-- How many requests of an ordinary requester a unit's own queue shows (Tables 2-4, 6-3, 7-3, 8-4). -/
def State.asks (s : State) (a : ArbId) (r : Nat) : Nat :=
  match a with
  | .bank i =>
    let sp := s.spk i.val
    if r = 0 then sp.rowAsks.length + sp.drainAsks.length
    else if r = 1 then (s.movAsks i.val).length else sp.floretAsks
  | .hbm n pc => ((s.stack n.val).queued pc r).length + (if r = 5 then ((s.stack n.val).fixesAt pc).length else 0)
  | .inject p => (s.injReady p r).length
  | .sheaf w => (s.shfQueue w r).length

/-- The requests that wait at an instance, each listed by its requester. -/
def State.waitingAt (s : State) (a : ArbId) : List Nat :=
  (List.range (arbSize a)).flatMap (fun r => List.replicate (Tab.get 0 (s.arb a).reqs r + s.asks a r) r)

/-- Bytes of a floret's access, and whether it is a partial-word write, which takes two accesses (R40). -/
def BankReq.unit (r : BankReq) : Nat × Bool :=
  let part := fun (n : Nat) => decide (r.off % 16 ≠ 0) || decide (n % 16 ≠ 0)
  match r.op with
  | .load _ n => (n, false)
  | .store _ n => (n, part n)
  | .cvt _ _ _ => (128, false)
  | .out n _ _ _ _ => (n, part n)

/-- The grant unit of a bank's requester and its length in core cycles (Table 2-4): one row of the lattice, 1 to 8 rows
of the mover, one access of a floret or two, held together, for a partial-word write (R40, R227). -/
def State.bankUnit (s : State) (i : SpkId) (len r : Nat) : Nat × Grant :=
  let sp := s.spk i.val
  match (s.arb (.bank i)).rest.find? (fun g => g.who = r) with
  | some g => ((g.bytes + 127) / 128, g)
  | none =>
    if r = 0 then
      match sp.rowAsks, sp.drainAsks with
      | k :: _, _ => (1, { who := 0, bytes := 128, whole := false, aim := .latOp k })
      | [], d :: _ => (1, { who := 0, bytes := 128, whole := false, aim := .latDrain d.order })
      | [], [] => (1, { who := 0, bytes := 128, whole := false })
    else if r = 1 then
      let n := Nat.max 1 (Nat.min 8 len)
      (n, { who := 1, bytes := 128 * n, whole := false, aim := (s.movAsks i.val).headD .other })
    else if r = 2 then
      let u := match sp.bankQ with
        | q :: _ => q.unit
        | [] => (128, false)
      (if u.2 then 2 else 1, { who := 2, bytes := u.1, whole := u.2 })
    else (1, { who := r, bytes := 128, whole := false })

/-- The grant unit of an instance's requester: a whole packet at an injection arbiter and at a straw (R257, R297). -/
def State.unit (s : State) (a : ArbId) (len r : Nat) : Nat × Grant :=
  match a with
  | .bank i => s.bankUnit i len r
  | .hbm n pc => (s.stack n.val).unit (s.arb a) pc len r
  | _ => (len, { who := r, bytes := 64, whole := true })

/-- A packet is granted; granted packets that are gone from `live` are forgotten. -/
def State.give (s : State) (a : ArbId) (live : List Packet) (q : Option Packet) : State :=
  let b := s.arb a
  s.setArb a { b with given := b.given.filter live.contains ++ q.toList }

/-- ARBITER_DECISION (R225): one decision of an instance, `elapsed` cycles after the last. In a pseudo-channel the grant
counts at its priority (R231) and serves its class; a throttled stack gives non-emergency grants in at most every
other data slot (Table 6-4); an idle slot, in which no class waits, serves a pending refresh (R236). At an injection
arbiter and at a straw the oldest waiting packet of the class is granted (R257, R297), and a mover told to wait long
reads ahead (R260). `len` bounds a burst and is the length of what no table gives one. -/
def execArbiterDecision (a : ArbId) (elapsed len : Nat) (s : State) : Out :=
  let ws := s.waitingAt a
  let r := s.arbitrate a ws elapsed (s.unit a len)
  match a with
  | .hbm n pc =>
    let k := s.stack n.val
    let urgent := decide (0 < Tab.get 0 (s.arb a).reqs 6)
    let slow := k.throttled || s.pwr.grnThrottle
    let refresh := fun (s : State) =>
      let k := s.stack n.val
      s.setStack n.val { k with
        refresh := Tab.upd 0 k.refresh pc.val (· - 1)
        openRow := k.openRow.filter (fun e => e.1 / 16 ≠ pc.val) }
    if urgent then .next (refresh r.1)
    else if slow && k.gapOwed.getLsbD pc.val then
      let s := s.passTime a ((List.range 6).filter (ws.contains ·)) elapsed
      .next (s.setStack n.val { s.stack n.val with gapOwed := putBit (s.stack n.val).gapOwed pc.val false })
    else if ws.isEmpty && decide (0 < Tab.get 0 k.refresh pc.val) then
      .next (refresh (s.grantTo a [] len (s.unit a len 6).2))
    else match r with
      | (s', none) => .next s'
      | (s', some w) =>
        let s' := s'.countLevel n pc (s.prioOf a w)
        let k := s'.stack n.val
        let s' := s'.setStack n.val { k with gapOwed := putBit k.gapOwed pc.val slow }
        .next (s'.grnGranted n (s.unit a len w).2.aim)
  | .inject p =>
    let t := r.1.give a s.fab.sent (r.2.bind (fun c => (s.injReady p c).head?))
    .next (if (t.panArb p.val).prefetching then t.movAhead p.val else t)
  | .sheaf w => match r.2 with
    | none => .next r.1
    | some c => .next ((r.1.shfGrant w c).1.give a (s.fab.routed.map (·.pkt)) (r.1.shfGrant w c).2)
  | .bank _ => .next r.1

end Sys2Proof.Machine
end

