-- ==== Sys2Proof/Machine/HubRegs.lean ====
section
/-! DEFINITION. Words of the hub's registers (Tables 13-10, 13-11, 14-7, 15-2, 15-16 to 15-21, 16-7 to 16-13,
17-8 to 17-10, 18-7, 18-8, 19-2). -/

namespace Sys2Proof.Machine

/-- A bit as a number. -/
def bit (b : Bool) (n : Nat) : Nat := if b then 2 ^ n else 0

/-- A register word from its fields' sum. -/
def word32 (n : Nat) : W32 := BitVec.ofNat 32 n

/-! ### Management (chapter 17) -/

/-- HUB_STRAPS (Table 17-8). -/
def State.strapsWord (s : State) : W32 :=
  let m := s.mgt
  word32 (bit m.strapChanged 8 + bit m.pwrOk 7 + bit m.hostRstN 6 + bit m.evtN 5 + bit m.compat 4 +
    bit m.sel1 3 + bit m.sel0 2)

/-- HUB_EVT_MODE (Table 17-9). -/
def State.evtModeWord (s : State) : W32 :=
  let m := s.mgt
  word32 (m.evtMode.toNat * 2 ^ 30 + bit m.refused 29 + m.dbgEvent.toNat)

/-- HUB_MGT_STATUS (Table 17-10). -/
def State.mgtWord (s : State) : W32 :=
  let m := s.mgt
  let sec := Nat.min 8191 ((s.refcnt - m.last).toNat / 1000000000)
  word32 (bit m.silent 31 + bit s.fab.plan.isSome 30 + bit m.eid.isSome 29 + sec * 2 ^ 8 + (m.eid.getD 0).toNat)

/-! ### Power and temperature (chapter 16) -/

/-- PWR_STATUS (Table 16-8). -/
def State.pwrWord (s : State) : W32 :=
  let p := s.pwr
  let (w, g) := (s.limit, s.governing.1)
  word32 (bit p.orphan 31 + bit p.ftActive 30 + bit p.emergency 29 + bit p.degraded 28 + bit p.powerOff 27 +
    bit p.capUnmet 26 + bit p.grnThrottle 25 + g * 2 ^ 16 + w % 65536)

/-- PWR_METER. -/
def State.meterWord (s : State) : W32 := word32 (s.pwr.avg10 % 65536 * 2 ^ 16 + s.pwr.avg100 % 65536)

/-- PWR_RACK. -/
def State.rackWord (s : State) : W32 :=
  let p := s.pwr
  let v := !p.sched.isEmpty
  word32 (bit v 31 + p.entry % 16 * 2 ^ 24 + (if v then (p.sched[p.entry]?.getD 0).toNat else 0))

/-- PWR_ORPHAN. -/
def State.orphanWord (s : State) : W32 := word32 (s.sec.cfg.orphan.toNat * 2 ^ 16 + s.orphanW % 65536)

/-- PWR_THERMAL. -/
def State.thermalWord (s : State) : W32 :=
  word32 (match s.thermalFloor with
    | some w => w % 65536
    | none => 0xFFFF)

/-- PWR_FT_CTRL (Table 16-9). -/
def State.ftWord (s : State) : W32 :=
  word32 (bit (decide (s.mgt.evtMode = 1)) 31 + bit (!s.mgt.evtN) 30 + s.pwr.ftLevel.toNat)

/-- Whole degrees of a temperature in units of 0.125 °C, as an 8-bit field. -/
def degrees (t : Int) : Nat := (t / 8 % 256).toNat

/-- Stacks at 105 °C or above (Table 16-10). -/
def State.hotStacks (s : State) : List Nat := (List.range 24).filter (fun n => decide (105 ≤ (s.stack n).temp.toNat))

/-- The hottest stack at 105 °C or above, the lowest where several are; 0 where none is. -/
def State.hotStack (s : State) : Nat :=
  let hot := s.hotStacks
  hot.foldl (fun (m : Nat) (n : Nat) => if (s.stack m).temp.toNat < (s.stack n).temp.toNat then n else m) (hot.headD 0)

/-- THM_STATUS (Table 16-10). -/
def State.thmWord (s : State) : W32 :=
  let (z, t) := s.hottest
  let low := s.pwr.zones.countP (fun e => decide (0 < e.2.drop))
  word32 (bit s.alert 31 + z * 2 ^ 24 + degrees t * 2 ^ 16 + low * 2 ^ 8 + bit (!s.hotStacks.isEmpty) 5 + s.hotStack)

/-- THM_COOLANT (Table 16-11): the flow is a report's 16 bits; the field shows its low 8. -/
def State.coolantWord (s : State) : W32 :=
  let c := s.pwr.coolant
  word32 (c.inlet.toNat * 2 ^ 24 + c.outlet.toNat * 2 ^ 16 + c.flow.toNat % 256 * 2 ^ 8 + bit c.stale 7 +
    Nat.min 127 (c.flow.toNat * 100 / 60))

/-- THM_ZONE[z] (Table 16-12). A blind zone has no control temperature: TEMP shows the value that it last held,
which is not stated (the argument). -/
def State.zoneWord (s : State) (z : Nat) (blind : W64) : W32 :=
  let x := s.zone z
  let t := match x.ctl with
    | some c => degrees c
    | none => fld blind 7 0
  word32 (s.zoneClk z / 1000 % 2048 * 2 ^ 21 + bit x.blind 20 + bit (decide (0 < x.drop)) 19 + x.tmax.toNat * 2 ^ 8 + t)

/-- THM_ZONE_SENS[z] (Table 16-13). -/
def State.sensWord (s : State) (z : Nat) : W32 :=
  let x := s.zone z
  word32 (bit x.suspB 31 + bit x.suspA 30 + bit x.disagree 29 + x.tb.toNat * 2 ^ 12 + x.ta.toNat)

/-! ### Faults (chapter 15) -/

/-- FLT_STATUS (Table 15-16). -/
def State.fltWord (s : State) : W32 :=
  let down := (List.range 4).foldl (fun (n : Nat) (w : Nat) => n + bit (s.stew w).down (16 + w)) 0
  word32 (bit s.flt.fatal 31 + bit s.flt.corr 30 + bit s.glean.valid 29 + bit s.det.full 28 + bit s.glean.running 27 +
    down + s.boot.recCount.toNat * 2 ^ 8 + s.det.edges.length / 64)

/-- FLT_WDOG_CTRL (Table 15-17). -/
def State.wdogWord (s : State) : W32 := word32 (bit s.flt.wdogEn 31 + s.flt.wdogLimit.toNat)

/-- The state of a domain as FLT_DOM codes it (Table 15-18). -/
def DomState.code : DomState → Nat
  | .run => 0 | .glean => 1 | .reset => 2 | .reentry => 3

/-- FLT_DOM[d] (Table 15-18). -/
def Dom.word (x : Dom) : W32 :=
  word32 (x.st.code * 2 ^ 29 + x.resets.toNat * 2 ^ 16 + x.trigger.toNat * 2 ^ 12 + x.gen.toNat)

/-- FLT_CHAFF[d] (Table 15-19). -/
def Dom.chaff (x : Dom) : W32 := word32 (x.ctxStale.toNat * 2 ^ 16 + x.domStale.toNat)

/-- The bytes of a fault log entry (Table 15-2). -/
def LogEntry.bytesOf (e : LogEntry) : List Byte :=
  toLE 8 e.time.toNat ++ toLE 2 e.code.toNat ++ toLE 1 (bit e.lost 7 + e.cls.toNat) ++ toLE 1 0 ++
  toLE 2 (match e.ctx with
    | some c => 2 ^ 15 + c.toNat
    | none => 0) ++ toLE 6 e.src.toNat ++ toLE 6 e.aux.toNat ++ toLE 6 e.detail.toNat

/-- The bytes at a slot of the fault log ring. -/
def State.logSlot (s : State) (i : Nat) : List Byte :=
  match Tab.get none s.flt.log i with
  | some e => e.bytesOf
  | none => List.replicate 32 0

/-- An entry has been read (R476). -/
def State.markRead (s : State) (i : Nat) : State :=
  { s with flt := { s.flt with log := Tab.upd none s.flt.log i (fun o => o.map (fun e => { e with read := true })) } }

/-! ### Boot and self-test (chapters 13, 14) -/

/-- STW_BOOT_STATUS (Table 13-10). -/
def State.bootWord (s : State) : W32 :=
  let b := s.boot
  word32 (b.phase.toNat * 2 ^ 28 + b.src.toNat * 2 ^ 26 + bit b.compat 25 + bit b.slot 24 + bit b.tentative 23 +
    b.fail.toNat * 2 ^ 20 + b.rounds.toNat * 2 ^ 16 + b.fwOut.toNat * 2 ^ 8 + bit b.fuseWritten 7 +
    bit b.fuseStricter 6 + bit b.newDead 5)

/-- STW_BOOT_FLASH (Table 13-11). -/
def State.flashWord (s : State) : W32 :=
  let b := s.boot
  let k := fun (x : FlashSlot) => Nat.min 1023 (x.erases.toNat / 100)
  word32 (bit b.flashWear 31 + b.slotB.code * 2 ^ 29 + b.slotA.code * 2 ^ 27 + k b.slotB * 2 ^ 17 + k b.slotA * 2 ^ 7)

/-- STW_BIST_STATUS (Table 14-7). -/
def State.bistWord (s : State) : W32 :=
  let b := s.bist
  word32 (bit b.running 31 + bit s.boot.held 30 + b.domain.toNat * 2 ^ 16 + b.subset.toNat * 2 ^ 12 +
    b.classFail.toNat * 2 ^ 8 + b.count.toNat)

/-! ### Security (chapter 18) -/

/-- SEC_LC (Table 18-7). -/
def State.lcWord (s : State) : W32 :=
  let now := s.sec.cfg
  let (_, otp) := (lastValid s.sec.otp.cfg).getD (0, {})
  let own := ownerFused now.owner
  let moved := decide (ownerFused otp.owner ≠ own) || (own && decide (otp.owner ≠ now.owner))
  let pend := decide (otp.lc ≠ now.lc) || moved
  word32 (now.lc.toNat * 2 ^ 29 + otp.lc.toNat * 2 ^ 26 + s.sec.cfgNo % 4 * 2 ^ 24 +
    (4 - s.sec.otp.cfg.length) * 2 ^ 21 + bit own 20 + bit pend 19)

/-- Minutes of the debug lock's lifetime that remain. -/
def State.minutesLeft (s : State) (u : Unlock) : Nat := u.minutes - (s.refcnt - u.at_).toNat / 60000000000

/-- SEC_DEBUG (Table 18-8). -/
def State.debugWord (s : State) : W32 :=
  match s.sec.lock with
  | none => 0
  | some u => word32 (2 ^ 31 + u.scope.toNat * 2 ^ 24 + s.minutesLeft u)

end Sys2Proof.Machine
end

