-- ==== Sys2Proof/Machine/Slices.lean ====
section
/-! DEFINITION. Slices, their shares and wrap ownership, and reduction trees (R337 to R339, R344, R345, R361,
R364, R365, R413, R555). -/

namespace Sys2Proof.Machine

/-! ### Slices -/

/-- The straws of this package on the wrap link of an axis, between coordinates 3 and 0 (R323, R338). -/
def State.wrapStraws (s : State) (a : Nat) : List Nat :=
  let run := fun (b : Nat) => [b, b + 1, b + 2, b + 3]
  if s.ownCoord a = 3 then run (4 * a) else if s.ownCoord a = 0 then run (16 + 4 * a) else []

/-- The entry of a straw's share table that a slice has, or the first that holds its reset value. -/
def Straw.shareFor (x : Straw) (slice : BitVec 16) : Option Nat :=
  let ix := (List.range 16).drop 1
  match ix.find? (fun i => decide (x.shareAt i ≠ 0x00010000) && decide ((x.shareAt i).setWidth 16 = slice)) with
  | some i => some i
  | none => ix.find? (fun i => decide (x.shareAt i = 0x00010000))

/-- A slice's entry of a share table written (Table 9-20). -/
def State.putShare (s : State) (w : Nat) (slice : BitVec 16) (weight : Nat) (own : Bool) : State :=
  let x := s.straw w
  match x.shareFor slice with
  | none => s
  | some i =>
    let v : W32 := BitVec.ofNat 32 ((if own then 2 ^ 31 else 0) + Nat.max weight 1 * 65536 + slice.toNat)
    s.setStraw w { x with share := Tab.set 0x00010000 x.share i v }

/-- A slice leaves a straw's share table. -/
def State.dropShare (s : State) (w : Nat) (slice : BitVec 16) : State :=
  let x := s.straw w
  let keep := fun (e : Nat × W32) => decide (e.1 = 0) || decide (e.2.setWidth 16 ≠ slice)
  s.setStraw w { x with share := x.share.filter keep }

/-- The OWNER entries of a slice on an axis cleared (R555). -/
def State.clearOwner (s : State) (slice : BitVec 16) (axis : Nat) : State :=
  (s.wrapStraws axis).foldl (fun s w =>
    let x := s.straw w
    let clear := fun (e : Nat × W32) => if e.2.setWidth 16 = slice then (e.1, e.2 &&& 0x7FFFFFFF) else e
    s.setStraw w { x with share := (x.share.map clear).filter (fun e => decide (e.2 ≠ 0x00010000)) }) s

/-- Slots of a straw port. -/
def State.slots (s : State) (w : Nat) : StrawSlots := Tab.get {} s.red.slots w

/-- Write the slots of a straw port. -/
def State.setSlots (s : State) (w : Nat) (v : StrawSlots) : State :=
  { s with red := { s.red with slots := Tab.set {} s.red.slots w v } }

/-- A slice is released: its parts and shares go. -/
def State.dropSlice (s : State) (id : BitVec 16) : State :=
  let s := (List.range 32).foldl (fun s w =>
    let u := s.slots w
    (s.setSlots w { u with parts := u.parts.filter (fun p => p.slice ≠ id) }).dropShare w id) s
  { s with host := { s.host with slices := s.host.slices.filter (fun x => x.id ≠ id) } }

/-- Whether the rack manager has granted a slice the wrap of an axis (R338, R555). -/
def State.granted (s : State) (id : BitVec 16) (axis : Nat) : Bool :=
  s.host.wraps.any (fun g => decide (g.1 = id) && g.2.getLsbD axis)

/-- SLICE_SETUP (R338, R339, R361, R413). -/
def execSliceSetup (q : QueueId) (seq : W32) (s : State) : Out :=
  match s.running q seq 0x0B with
  | none => .next s
  | some m =>
    let id : BitVec 16 := BitVec.ofNat 16 (m.p 0)
    let n := m.p 2
    let red := fieldOf (m.p 3) 6 0
    let bnd := fieldOf (m.p 3) 14 8
    let weight := fieldOf (m.p 3) 23 16
    let axes : BitVec 3 := BitVec.ofNat 3 (fieldOf (m.p 3) 26 24)
    if fieldOf (m.p 0) 16 16 = 1 then .next ((s.dropSlice id).finish q seq 0 0)
    else if n = 0 ∨ n > 64 then .next (s.finish q seq 0x101 0)
    else if s.hostGone m then .next (s.finish q seq 0x109 0)
    else
      let others := s.host.slices.filter (fun x => x.id ≠ id)
      if others.foldl (fun k x => k + x.red + x.bnd) (red + bnd) > 64 then .next (s.finish q seq 0x10F 0)
      else if !(bitsSet axes).all (fun a => s.granted id a) then .next (s.finish q seq 0x110 0)
      else
        let (s, list) := s.hostGet m.via m.fn (m.p 1) (4 * n)
        let pkgs := (List.range n).map (fun i => BitVec.ofNat 24 (leAt list (4 * i) 4))
        let s := s.dropSlice id
        let s := (List.range 32).foldl (fun s w =>
          let u := s.slots w
          let own := (bitsSet axes).any (fun a => (s.wrapStraws a).contains w)
          (s.setSlots w { u with parts := u.parts ++ [{ slice := id, red := red, bnd := bnd }] }).putShare w id
            weight own) s
        let x : Slice := { id := id, pkgs := pkgs, red := red, bnd := bnd, weight := weight, axes := axes }
        .next ({ s with host := { s.host with slices := s.host.slices ++ [x] } }.finish q seq 0 0)

/-! ### Trees -/

/-- The combiner that a node record names, by its index. -/
def recComb (r : TreeRec) : Nat :=
  match r.straw with
  | some w => 1536 + w.val
  | none => ecPanIx r.host

/-- Children present in a node record. -/
def recKids (r : TreeRec) : List Nat := (List.range 4).filter (fun c => ({ words := r.words } : RedNode).cv c)

/-- Straws that a record names (Tables 10-2, 10-3). -/
def recStraws (r : TreeRec) : List Nat :=
  let e : RedNode := { words := r.words }
  let up := if !r.leaf && e.root then [] else [entryPvia r.words]
  let down := if r.leaf then [] else (recKids r).map (fun c => e.cvia c)
  (up ++ down).filter (· ≠ 31) ++ (r.straw.map (·.val)).toList

/-- ECs that a record names. -/
def recEcs (r : TreeRec) : List Ec :=
  let e : RedNode := { words := r.words }
  let up := if !r.leaf && e.root then [] else [entryEc r.words 2]
  let down := if r.leaf then [] else (recKids r).map (fun c => entryEc r.words (4 + 2 * c))
  r.host :: (up ++ down)

/-- Whether a record names a dead panicle of this package or a dead straw (R344). -/
def State.recDead (s : State) (r : TreeRec) : Bool :=
  (recStraws r).any (fun w => s.floor.deadStraw.getLsbD w) ||
  (recEcs r).any (fun e => decide (ecPkg e = s.fab.coord) && s.floor.panDead (ecPanIx e))

/-- Slots that a node reserves (R361). -/
def RedNode.reserve (e : RedNode) : Nat := e.win * e.fanin

/-- Whether a combiner has room for the node records that name it (R345, R361). -/
def State.combFits (s : State) (recs : List TreeRec) (i : Nat) : Bool :=
  let mine := (recs.filter (fun r => !r.leaf && decide ((recComb r) = i))).map (fun r => ({ words := r.words } : RedNode))
  let all := (s.comb i).nodes ++ mine
  let sum : List RedNode → Nat := fun l => l.foldl (fun (k : Nat) (e : RedNode) => k + e.reserve) 0
  decide (all.length ≤ 8) &&
  (if i < 1536 then decide (sum all ≤ 16)
   else mine.all (fun e =>
     let part := match (s.slots (i - 1536)).parts.find? (fun p => p.slice = e.slice) with
       | some p => p.red
       | none => 0
     decide (sum (all.filter (fun x => x.slice = e.slice)) ≤ part)))

/-- Whether the tree ID is in use, or was released less than 2 ms ago (R344). -/
def State.treeBusy (s : State) (t : BitVec 8) : Bool :=
  s.red.combiners.any (fun e => e.2.nodes.any (fun n => decide (n.tree = t))) ||
  s.red.leaves.any (fun e => e.2.leaves.any (fun n => decide (n.tree = t))) ||
  s.red.released.any (fun r => decide (r.1 = t) && !s.since r.2 ms2)

/-- A record's entry is installed, and kept by the steward (R364). -/
def State.putRec (s : State) (r : TreeRec) : State :=
  if r.leaf then
    let p := ecPanIx r.host
    let u := s.leaf p
    let s := s.setLeaf p { u with leaves := u.leaves ++ [{ words := r.words }] }
    { s with red := { s.red with savedLeaves := Tab.upd [] s.red.savedLeaves p (· ++ [r.words]) } }
  else
    let c := s.comb (recComb r)
    let s := s.setComb (recComb r) { c with nodes := c.nodes ++ [{ words := r.words }] }
    { s with red := { s.red with savedNodes := Tab.upd [] s.red.savedNodes (recComb r) (· ++ [r.words]) } }

/-- REDUCE_TREE_SETUP (R344, R345, R361, R365, R413). `recs` are the records of its list; those that another
package hosts are for that package. -/
def execReduceTreeSetup (q : QueueId) (seq : W32) (recs : List TreeRec) (s : State) : Out :=
  match s.running q seq 0x0C with
  | none => .next s
  | some m =>
    let t : BitVec 8 := BitVec.ofNat 8 (m.p 0)
    let own := recs.filter (fun r => decide (ecPkg r.host = s.fab.coord))
    let combs := (own.filter (fun r => !r.leaf)).map (fun r => (recComb r))
    let leafs := (own.filter (fun r => r.leaf)).map (fun r => ecPanIx r.host)
    if fieldOf (m.p 0) 8 8 = 1 then
      .next ((if (s.treesOf m.ctx).contains t then s.releaseTree t true else s).finish q seq 0 0)
    else if s.hostGone m then .next (s.finish q seq 0x109 0)
    else if recs.any (fun r =>
        let e : RedNode := { words := r.words }
        decide (e.tree ≠ t) || decide (e.ctx ≠ m.ctx)) then .next (s.finish q seq 0x101 0)
    else if s.treeBusy t then .next (s.finish q seq 0x112 0)
    else if own.any (fun r => s.recDead r) || !(combs.eraseDups.length == combs.length) ||
        own.any (fun r => !r.leaf && decide (fld (entryWord r.words 0) 29 28 = 0)) then
      .next (s.finish q seq 0x111 0)
    else if !combs.all (fun i => s.combFits own i) ||
        !leafs.all (fun p => decide ((s.leaf p).leaves.length + leafs.count p ≤ 8)) then
      .next (s.finish q seq 0x10F 0)
    else .next ((own.foldl (fun s r => s.putRec r) s).finish q seq 0 0)

end Sys2Proof.Machine
end

