-- ==== Sys2Proof/Machine/Mgmt.lean ====
section
/-! DEFINITION. The management port and the sideband signals: Camnik messages, MCTP, I3C, PLDM, the heartbeat and
PKG_EVT_N (R501, R511, R514, R522, R533, R543 to R563). -/

namespace Sys2Proof.Machine

/-! ### Messages (R551, R552, Table 17-2) -/

/-- A message that the package sends. -/
def State.mgtSend (s : State) (m : List Byte) : State := { s with mgt := { s.mgt with out := s.mgt.out ++ [m] } }

/-- A valid MCTP message from the tray controller ends the silence (R562). -/
def State.trayHeard (s : State) : State := { s with mgt := { s.mgt with last := s.refcnt, silent := false } }

/-- Whether the port serves a Camnik code now (R552, R573): before phase TRANSIT and in the hold of R505 only
GET_STATUS, READ_FAULT_LOG and RECOVERY_IMAGE. -/
def State.mgtServes (s : State) (code : Nat) : Bool :=
  let b := s.boot
  let early := b.hold || decide (b.phase.toNat < 3) || (decide (b.phase = 0xF) && !b.held)
  !early || [1, 7, 10].contains code

/-- A Camnik request (R551): a repeat within 1 s is answered again and not performed again; `body` gives the new
state, the status and what follows it in the reply. -/
def State.camnik (s : State) (code : Nat) (inst : BitVec 8) (body : State → State × Nat × List Byte) : State :=
  if s.boot.inReset then s
  else
    let s := s.trayHeard
    match s.mgt.answered.find? (fun a => decide (a.code = code) && decide (a.inst = inst) && !s.since a.at_ 1000000000) with
    | some a => s.mgtSend a.reply
    | none =>
      let (s, st, more) := if s.mgtServes code then body s else (s, 6, [])
      let reply := toLE 1 code ++ toLE 1 inst.toNat ++ toLE 1 st ++ more
      let kept := s.mgt.answered.filter (fun a =>
        !s.since a.at_ 1000000000 && !(decide (a.code = code) && decide (a.inst = inst)))
      let s := s.mgtSend reply
      { s with mgt := { s.mgt with
        answered := kept ++ [{ code := code, inst := inst, at_ := s.refcnt, reply := reply }] } }

/-- GET_STATUS (Table 17-3). PHASE takes one byte of the reply. -/
def execGetStatus (inst : BitVec 8) (s : State) : Out :=
  .next (s.camnik 1 inst (fun s => (s, 0,
    toLE 1 s.boot.phase.toNat ++ toLE 4 s.pwrWord.toNat ++ toLE 4 s.thmWord.toNat ++ toLE 4 s.fltWord.toNat ++
    toLE 4 s.flt.count.toNat ++ toLE 4 s.evtModeWord.toNat ++ toLE 8 s.refcnt.toNat)))

/-- SET_CAP_SCHEDULE (R507, R511, R512): the schedule is replaced at once, and the orphan cap ends. -/
def execSetCapSchedule (inst : BitVec 8) (bytes : List Byte) (s : State) : Out :=
  .next (s.camnik 2 inst (fun s =>
    if bytes.length ≠ 36 then (s, 1, [])
    else
      let es := (List.range 16).map (fun i => BitVec.ofNat 16 (leAt bytes (4 + 2 * i) 2))
      let s := { s with pwr := { s.pwr with
        sched := es, schedId := BitVec.ofNat 32 (leAt bytes 0 4), t0 := s.refcnt, entry := 0, orphan := false } }
      let s := s.log 0x0701 0 none (s.stewardEc 0) 0 (leAt bytes 4 2)
      (s, 0, toLE 4 s.pwr.schedId.toNat ++ toLE 8 s.refcnt.toNat)))

/-- POWER_OFF (R514). -/
def execPowerOff (inst : BitVec 8) (s : State) : Out :=
  .next (s.camnik 3 inst (fun s =>
    let s := s.log 0x0704 1 none (s.stewardEc 0) 0 0
    let s := { s with
      pwr := { s.pwr with powerOff := true }
      host := { s.host with msix := s.host.msix ++ [(0, 2)] } }
    (s, 0, [])))

/-- COOLANT_REPORT (R533, R534). -/
def execCoolantReport (inst inlet outlet : BitVec 8) (flow : BitVec 16) (s : State) : Out :=
  .next (s.camnik 4 inst (fun s => (s.coolantTaken inlet outlet flow, 0, [])))

/-! ### Rack plans (R553, Table 17-4) -/

/-- The coordinates that a plan gives this package. -/
def planCoord (b : List Byte) : BitVec 24 :=
  BitVec.ofNat 24 (leAt b 8 2 % 4096 * 4096 + leAt b 10 1 % 16 * 256 + leAt b 10 1 / 16 * 16 + leAt b 11 1 % 16)

/-- Whether a complete plan may replace the one in force. -/
def State.planOk (s : State) (b : List Byte) : Bool :=
  let own := coordIx (planCoord b)
  decide (slice b 1600 16 = shake256 (slice b 0 1600) 16) &&
  decide (leAt b (32 + 16 * own) 8 = s.sec.otp.serial.toNat) && decide (own < 64) &&
  (match s.fab.plan with
   | some old => decide (slice old 0 8 ≠ slice b 0 8)
   | none => true)

/-- A plan takes effect (Table 8-7): straws HELD or QUARANTINED decide again. -/
def State.planTaken (s : State) (b : List Byte) : State :=
  let s := { s with fab := { s.fab with plan := some b, coord := planCoord b } }
  (List.range 32).foldl (fun s w =>
    let x := s.straw w
    match x.state with
    | .held => s.setStraw w { x with state := .rollCall, same := 0 }
    | .quarantined => s.setStraw w { x with state := .rollCall, same := 0 }
    | _ => s) s

/-- LOAD_RACK_PLAN (R552, R553, R561): parts come in order; a first part while another transfer is under way is
answered BUSY. -/
def execLoadRackPlan (inst : BitVec 8) (bytes : List Byte) (s : State) : Out :=
  .next (s.camnik 5 inst (fun s =>
    let off := leAt bytes 0 2
    let total := leAt bytes 2 2
    let part := bytes.drop 4
    if bytes.length < 4 ∨ 1024 < part.length then (s, 1, [])
    else
      let had := (s.mgt.plan.map (fun p => p.bytes)).getD []
      if off = 0 ∧ had ≠ [] then (s, 3, [])
      else if off ≠ had.length ∨ total ≠ 1616 ∨ total < off + part.length then (s, 2, [])
      else
        let all := had ++ part
        if all.length < total then
          ({ s with mgt := { s.mgt with plan := some { bytes := all, total := total } } }, 0, toLE 2 all.length)
        else
          let s := { s with mgt := { s.mgt with plan := none } }
          if s.planOk all then (s.planTaken all, 0, toLE 2 all.length) else (s, 2, [])))

/-- READ_FORECAST (R526). -/
def execReadForecast (inst : BitVec 8) (s : State) : Out :=
  .next (s.camnik 6 inst (fun s => (s, 0, s.forecastBytes)))

/-- The entries that a READ_FAULT_LOG returns: those asked for that the ring still holds (R476). -/
def State.logRange (s : State) (first n : Nat) : List Nat :=
  let count := s.flt.count.toNat
  (List.range n).map (· + first) |>.filter (fun i => decide (i < count) && decide (count ≤ i + 1024))

/-- READ_FAULT_LOG (R476). -/
def execReadFaultLog (inst : BitVec 8) (first : W32) (count : BitVec 8) (s : State) : Out :=
  .next (s.camnik 7 inst (fun s =>
    if count = 0 ∨ 32 < count.toNat then (s, 2, [])
    else
      let is := (s.logRange first.toNat count.toNat).map (· % 1024)
      (is.foldl (fun s i => s.markRead i) s, 0, is.flatMap (fun i => s.logSlot i))))

/-- CLEAR_CORR (R545). -/
def execClearCorr (inst : BitVec 8) (s : State) : Out :=
  .next (s.camnik 8 inst (fun s => ({ s with flt := { s.flt with corr := false } }, 0, [])))

/-- Whether the debug lock is open for a scope bit (R577). -/
def State.scopeOpen (s : State) (k : Nat) : Bool :=
  match s.sec.lock with
  | some u => u.scope.getLsbD k
  | none => false

/-- The clamp of fast-throttle begins with an assertion of PKG_EVT_N (R522). -/
def State.clampOn (s : State) : State :=
  State.log { s with pwr := { s.pwr with ftAsserted := true, ftActive := true } } 0x0705 0 none (s.stewardEc 0) 0
    s.pwr.ftLevel.toNat

/-- SET_EVT_MODE (R501, R559, Table 17-5): a pin that is low as fast-throttle is assigned clamps at once. -/
def execSetEvtMode (inst mode level : BitVec 8) (s : State) : Out :=
  .next (s.camnik 9 inst (fun s =>
    let m := s.mgt
    if mode = 1 then
      if level.toNat < 25 ∨ 100 < level.toNat then (s, 2, [])
      else
        let s := if m.evtMode = 2 then s.log 0x0405 0 none (s.stewardEc 0) 0 0 else s
        let s := { s with mgt := { s.mgt with evtMode := 1 }, pwr := { s.pwr with ftLevel := level.setWidth 7 } }
        let s := if m.evtMode ≠ 1 ∧ m.evtN = false then s.clampOn else s
        (s, 0, toLE 4 s.evtModeWord.toNat)
    else if mode = 2 then
      if m.evtMode = 1 then
        ({ s with mgt := { m with refused := true } }, 4, [])
      else if !s.scopeOpen 1 then (s, 5, [])
      else
        let s := { s with mgt := { m with evtMode := 2 } }
        (s, 0, toLE 4 s.evtModeWord.toNat)
    else (s, 2, [])))

/-- RECOVERY_IMAGE (R438, R552, R573). -/
def execRecoveryImage (inst : BitVec 8) (offset : W32) (last : Bool) (bytes : List Byte) (s : State) : Out :=
  .next (s.camnik 10 inst (fun s =>
    let b := s.boot
    let had := (s.mgt.image.map (fun p => p.bytes)).getD []
    if b.source ≠ 3 ∨ 2 < b.phase.toNat ∨ b.sampled = false ∨ b.whole = true then (s, 5, [])
    else if 4032 < bytes.length then (s, 1, [])
    else if offset.toNat ≠ had.length ∨ 16777216 < had.length + bytes.length then (s, 2, [])
    else
      let all := had ++ bytes
      let s := if last then { s with
          mgt := { s.mgt with image := none }
          boot := { b with image := Tab.setMany 0 [] 0 all, whole := true } }
        else { s with mgt := { s.mgt with image := some { bytes := all, total := 0 } } }
      (s, 0, toLE 4 all.length)))

/-- RESYNC (R562): the limit takes two bytes of the reply. -/
def execResync (inst : BitVec 8) (s : State) : Out :=
  .next (s.camnik 11 inst (fun s => (s, 0,
    toLE 4 s.pwr.schedId.toNat ++ toLE 8 s.pwr.t0.toNat ++ toLE 8 s.planVersion.toNat ++ toLE 4 s.flt.count.toNat ++
    toLE 4 s.evtModeWord.toNat ++ toLE 2 s.limit)))

/-! ### Wrap ownership (R555) -/

/-- Grants with the axes of a slice replaced; a slice without axes holds none. -/
def putGrant (gs : List (BitVec 16 × BitVec 3)) (id : BitVec 16) (axes : BitVec 3) : List (BitVec 16 × BitVec 3) :=
  let rest := gs.filter (fun g => decide (g.1 ≠ id))
  if axes = 0 then rest else rest ++ [(id, axes)]

/-- GRANT_WRAP (R555): the reply gives the number of grants held. -/
def execGrantWrap (inst : BitVec 8) (slice : BitVec 16) (axes revoke : BitVec 8) (s : State) : Out :=
  .next (s.camnik 12 inst (fun s =>
    let gs := s.host.wraps
    let ax : BitVec 3 := axes.setWidth 3
    let own := match gs.find? (fun g => g.1 = slice) with
      | some g => g.2
      | none => 0
    let put := fun (s : State) (a : BitVec 3) => { s with host := { s.host with wraps := putGrant gs slice a } }
    if 8 ≤ axes.toNat ∨ 2 ≤ revoke.toNat then (s, 2, [])
    else if revoke = 1 then
      let s := put s (own &&& ~~~ax)
      let s := (bitsSet (own &&& ax)).foldl (fun s a => s.clearOwner slice a) s
      (s, 0, toLE 1 s.host.wraps.length)
    else if gs.any (fun g => decide (g.1 ≠ slice) && decide (g.2 &&& ax ≠ 0)) then (s, 2, [])
    else if own = 0 ∧ ax ≠ 0 ∧ 16 ≤ gs.length then (s, 3, [])
    else
      let s := put s (own ||| ax)
      (s, 0, toLE 1 s.host.wraps.length)))

/-! ### Notices and transfers (R554, R561) -/

/-- The number of the next log entry of class 1 or above that no notice has passed, if the ring holds it. -/
def State.nextNotice (s : State) : Option Nat :=
  let count := s.flt.count.toNat
  let lo := Nat.max s.mgt.noticed.toNat (count - 1024)
  ((List.range (count - lo)).map (· + lo)).find? (fun i => match Tab.get none s.flt.log (i % 1024) with
    | some e => decide (1 ≤ e.cls.toNat)
    | none => false)

/-- EVENT_NOTICE (R554): at most 10 per second; an event beyond that rate is passed over. -/
def execEventNotice (s : State) : Out :=
  if s.boot.inReset || decide (s.boot.phase.toNat < 3) then .next s
  else match s.nextNotice with
    | none => .next s
    | some i =>
      let ts := s.recent 1000000000 s.mgt.notices
      let s := { s with mgt := { s.mgt with noticed := BitVec.ofNat 32 (i + 1), notices := ts } }
      if 10 ≤ ts.length then .next s
      else
        let s := { s with mgt := { s.mgt with notices := ts ++ [s.refcnt] } }
        .next (s.mgtSend (toLE 1 0x80 ++ toLE 4 i ++ s.logSlot (i % 1024)))

/-- MULTIPART_ABANDON (R561). -/
def execMultipartAbandon (s : State) : Out :=
  .next { s with mgt := { s.mgt with plan := none, image := none } }

/-! ### PKG_EVT_N (R522, R559, R560) -/

/-- PKG_EVT_ASSERT: the clamp of fast-throttle, or a dump, at most one a second, in DEBUG_TRIGGER. -/
def execPkgEvtAssert (s : State) : Out :=
  let was := s.mgt.evtN
  let s := { s with mgt := { s.mgt with evtN := false } }
  if s.boot.inReset || !was then .next s
  else if s.mgt.evtMode = 1 then
    .next s.clampOn
  else if s.mgt.evtMode = 2 then
    let soon := match s.mgt.dumpAt with
      | some t => !s.since t 1000000000
      | none => false
    if soon then .next s
    else
      let s := { s with mgt := { s.mgt with dumpAt := some s.refcnt } }
      .next (s.startDump 0xFFFF)
  else .next s

/-- PKG_EVT_DEASSERT (R522): the clamp holds until 1 ms later. -/
def execPkgEvtDeassert (s : State) : Out :=
  .next { s with mgt := { s.mgt with evtN := true }, pwr := { s.pwr with ftAsserted := false } }

/-! ### Heartbeat (R545) -/

/-- HEARTBEAT_REARM: not while PKG_RST_N or the trip holds it. -/
def execHeartbeatRearm (s : State) : Out :=
  .next { s with mgt := { s.mgt with heartbeat := s.mgt.heartbeat || (!s.mgt.trip && !s.boot.inReset) } }

/-- HEARTBEAT_STOP: the generator was not re-armed and holds its last level. -/
def execHeartbeatStop (s : State) : Out := .next { s with mgt := { s.mgt with heartbeat := false } }

/-! ### I3C (R549) -/

/-- I3C_ENTDAA: a target without a dynamic address sends its provisional ID and takes one. -/
def execI3cEntdaa (addr : BitVec 7) (s : State) : Out :=
  if s.boot.inReset || s.mgt.i3c.isSome then .next s
  else
    let pid := 0x0D8C * 2 ^ 33 + s.sec.otp.serial.toNat % 2 ^ 32
    let s := s.mgtSend (toLE 6 pid)
    .next { s with mgt := { s.mgt with i3c := some addr } }

/-- I3C_SETDASA. -/
def execI3cSetdasa (static addr : BitVec 7) (s : State) : Out :=
  if s.boot.inReset || decide (static ≠ 0x3A) then .next s
  else .next { s with mgt := { s.mgt with i3c := some addr } }

/-- I3C_RSTDAA. -/
def execI3cRstdaa (s : State) : Out := .next { s with mgt := { s.mgt with i3c := none } }

/-! ### MCTP control messages (R550) -/

/-- The reply to a control message: its command code, its completion code and what it returns. -/
def State.control_ (s : State) (cmd code : Nat) (more : List Byte) : State :=
  if s.boot.inReset then s else s.trayHeard.mgtSend (toLE 1 cmd ++ toLE 1 code ++ more)

/-- SET_ENDPOINT_ID (R550): accepted at any time. -/
def execSetEndpointId (eid : BitVec 8) (s : State) : Out :=
  let s := if s.boot.inReset then s else { s with mgt := { s.mgt with eid := some eid } }
  .next (s.control_ 1 0 (toLE 1 eid.toNat))

/-- GET_ENDPOINT_ID (R550): the null EID until one has been set. -/
def execGetEndpointId (s : State) : Out := .next (s.control_ 2 0 (toLE 1 (s.mgt.eid.getD 0).toNat))

/-- GET_ENDPOINT_UUID (R550). -/
def execGetEndpointUuid (s : State) : Out := .next (s.control_ 3 0 (toLE 16 Config.endpointUuid.toNat))

/-- The message types that the endpoint supports (R550). -/
def mctpTypes : List Nat := [0x00, 0x01, 0x05, 0x7F]

/-- GET_MCTP_VERSION_SUPPORT (R550): the version of a supported type is not stated, an open value. -/
def execGetMctpVersionSupport (typ : BitVec 8) (s : State) : Out :=
  if mctpTypes.contains typ.toNat then
    let (v, s) := s.drawBytes 4
    .next (s.control_ 4 0 (toLE 1 1 ++ v))
  else .next (s.control_ 4 0x80 [])

/-- GET_MESSAGE_TYPE_SUPPORT (R550). -/
def execGetMessageTypeSupport (s : State) : Out :=
  .next (s.control_ 5 0 (toLE 1 mctpTypes.length ++ mctpTypes.flatMap (fun t => toLE 1 t)))

/-! ### PLDM (R556, R557) -/

/-- The value of a numeric sensor: temperatures in units of 0.125 °C for zones and °C for stacks, power in W,
F_cap in MHz. None where there is no such sensor; a blind zone has no control temperature. -/
def State.sensorValue (s : State) (n : Nat) : Option (Option Int) :=
  if 1 ≤ n ∧ n ≤ 96 then some (s.zone (n - 1)).ctl
  else if 101 ≤ n ∧ n ≤ 124 then some (some (s.stack (n - 101)).temp.toNat)
  else if n = 200 then some (some s.pwr.avg10)
  else if n = 201 then some (some s.limit)
  else if n = 202 then some (some (s.fcap / 1000 : Nat))
  else none

/-- PLDM_SENSOR_READ (R556): the sensor, whether it is there, and its value. -/
def execPldmSensorRead (sensor : BitVec 16) (s : State) : Out :=
  if s.boot.inReset then .next s
  else
    let s := s.trayHeard
    match s.sensorValue sensor.toNat with
    | none => .next (s.mgtSend (toLE 2 sensor.toNat ++ toLE 1 0x80))
    | some (some v) =>
      .next (s.mgtSend (toLE 2 sensor.toNat ++ toLE 1 0 ++ toLE 4 (BitVec.ofInt 32 v).toNat))
    | some none =>
      let (v, s) := s.drawBytes 4
      .next (s.mgtSend (toLE 2 sensor.toNat ++ toLE 1 0 ++ v))

/-- REQUEST_UPDATE (R557): a whole update of the boot image, with the checks and the outcome of LOAD_FW with P2
= 0; the reply carries the command status of that outcome. -/
def execRequestUpdate (image : List Byte) (s : State) : Out :=
  if s.boot.inReset || decide (s.boot.phase.toNat < 3) || decide (16777216 < image.length) then .next s
  else
    let s := s.trayHeard
    let (s, st) := s.writeSlot (Tab.setMany 0 [] 0 image) false
    .next (s.mgtSend (toLE 2 st))

end Sys2Proof.Machine
end

