-- ==== Sys2Proof/Machine/Routing.lean ====
section
/-! DEFINITION. Route tables, routing of packet heads, table banks and epochs (R317 to R330). -/

namespace Sys2Proof.Machine

/-- The registers of a die. -/
def State.die (s : State) (d : Nat) : DieRoute := Tab.get {} s.fab.dies d

/-- Write the registers of a die. -/
def State.setDie (s : State) (d : Nat) (v : DieRoute) : State :=
  { s with fab := { s.fab with dies := Tab.set {} s.fab.dies d v } }

/-- Entries of a table: on-package, coordinate, rack; none in the reserved table (R317, Table 9-19). -/
def tableSize : Nat → Nat
  | 0 => 1537 | 1 => 64 | 2 => 4096 | _ => 0

/-- The key of an entry. -/
def entryKey (bank table index : Nat) : Nat := (bank * 3 + table) * 8192 + index

/-- An entry of a die's tables. -/
def DieRoute.entry (r : DieRoute) (bank table index : Nat) : W32 := Tab.get 0 r.tables (entryKey bank table index)

/-- State of a bank. -/
def DieRoute.bank (r : DieRoute) (b : Nat) : BankSt := if b = 0 then r.bank0 else r.bank1

/-- State of a bank changed. -/
def DieRoute.setBank (r : DieRoute) (b : Nat) (v : BankSt) : DieRoute :=
  if b = 0 then { r with bank0 := v } else { r with bank1 := v }

/-! ### Routing of a head -/

/-- The direction of a bridge that leaves die `d`. -/
def bridgeDirFrom (d b : Nat) : Option Nat :=
  let e := bridgeEnds b
  if d = e.1 then some (b * 2) else if d = e.2 then some (b * 2 + 1) else none

/-- Whether an on-package exit is usable from die `d` (R320): this die, or a bridge whose direction is not
DOWN. -/
def State.exitUsable (s : State) (d code : Nat) : Bool :=
  if code = 15 then true
  else if code < 12 then
    match bridgeDirFrom d code with
    | some x => !(s.dir x).down
    | none => false
  else false

/-- What a router chooses for a head (R320): the exit, and the packet with its channel and ESC. -/
structure Choice where
  exit   : Nat
  detour : Bool
  pkt    : Packet

/-- Whether a channel is a data channel (R320). -/
def dataVc (vc : BitVec 3) : Bool := decide (vc = 2) || decide (vc = 3)

/-- The choice between primary and detour (R320, R322); VC7 and ESC go together. -/
def choose (p : Packet) (pri det : Nat) (dv dl ax : Bool) (usable : Nat → Bool) : Option Choice :=
  let esc := p.esc || decide (p.vc = 7)
  let priOk := usable pri
  let detOk := dv && usable det
  if esc then
    if priOk && !dl then some ⟨pri, false, p⟩
    else if detOk then some ⟨det, true, p⟩
    else none
  else if dataVc p.vc then
    if priOk then
      let vc : BitVec 3 := if dl then 3 else if ax then 2 else p.vc
      some ⟨pri, false, { p with vc := vc }⟩
    else if detOk then some ⟨det, true, { p with vc := 7, esc := true }⟩
    else none
  else if priOk && !dl then some ⟨pri, false, p⟩
  else if detOk then
    if dl then some ⟨det, true, p⟩ else some ⟨det, true, { p with vc := 7, esc := true }⟩
  else none

/-- The choice that an on-package entry gives (Table 9-11). -/
def State.choosePkg (s : State) (d : Nat) (e : W32) (p : Packet) : Option Choice :=
  if e.getLsbD 31 then choose p (fld e 27 24) (fld e 22 19) (e.getLsbD 23) false false (s.exitUsable d)
  else none

/-- The choice that a coordinate or rack entry gives (Table 9-10). -/
def State.chooseSheaf (s : State) (e : W32) (p : Packet) : Option Choice :=
  if e.getLsbD 31 then
    choose p (fld e 28 24) (fld e 22 18) (e.getLsbD 23) (e.getLsbD 30) (e.getLsbD 29)
      (fun n => !(s.live n).isEmpty)
  else none

/-- The sub-port by which a bridge is left from a router (R256, R319). -/
def subPort (b : Nat) (at_ : Nat) : Nat :=
  let i := at_ % 192
  if 6 ≤ b ∧ b < 10 then Nat.max 1 (Nat.min 14 (i % 16)) - 1 else i / 16

/-- The tiller of the sub-sheaf that a packet enters (R290). -/
def State.subFor (s : State) (n : Nat) (p : Packet) : Option Nat :=
  let subs := s.subs n
  let k := fld p.src 23 13 + fld p.dst 23 13 + p.vc.toNat
  subs[k % subs.length]?

/-- A head goes by the on-package entry of a router: to a bridge, or on this die by `here` (R318, R319). -/
def State.byEntry (s : State) (d : DieId) (at_ : PanId) (ix : Nat) (own : Bool) (p : Packet) (here : Exit) :
    Option (Exit × Bool × Packet) :=
  match s.choosePkg d.val ((s.die d.val).entry p.epoch.toNat 0 ix) p with
  | none => none
  | some c =>
    if own then (if c.exit = 15 then some (here, c.detour, c.pkt) else none)
    else if c.exit < 12 then some (.toBridge (Fin.ofNat 12 c.exit) (subPort c.exit at_.val), c.detour, c.pkt)
    else none

/-- Whether a function code is a station's (R318, Table 7-2). -/
def stationFn (fn : Nat) : Bool := (decide (0x50 ≤ fn) && decide (fn ≤ 0x52)) || decide (fn = 0x60)

/-- Where a router sends a reduction packet whose sender names straw `w`: to that straw alone, by no detour (R347). -/
def State.byStraw (s : State) (d : DieId) (at_ : PanId) (w : StrawId) (p : Packet) : Option (Exit × Bool × Packet) :=
  if d.val = w.val / 4 then some (.toStraw w, false, p)
  else match s.byEntry d at_ (strawRouter w.val) false p (.toStraw w) with
    | some (x, false, q) => some (x, false, q)
    | _ => none

/-- Where a router of die `d` sends a head, whether by a detour entry, and the head as it leaves (R318, R347). -/
def State.resolve (s : State) (d : DieId) (at_ : PanId) (p : Packet) : Option (Exit × Bool × Packet) :=
  match p.via with
  | some w => s.byStraw d at_ w p
  | none =>
  let r := s.die d.val
  let b := p.epoch.toNat
  let pkg := ecPkg p.dst
  if pkg ≠ s.fab.coord then
    let e := if fld pkg 23 12 = fld s.fab.coord 23 12 then r.entry b 1 (coordIx3 pkg)
      else r.entry b 2 (fld pkg 23 12)
    match s.chooseSheaf e p with
    | none => none
    | some c =>
      match s.subFor c.exit c.pkt with
      | none => none
      | some t =>
        let target := strawRouter ((s.liveOn c.exit t).headD 0)
        let here := Exit.toSheaf (Fin.ofNat 32 c.exit) (Fin.ofNat 8 t) (Fin.ofNat 1536 target)
        if d.val = t then some (here, c.detour, c.pkt)
        else match s.byEntry d at_ target false c.pkt here with
          | none => none
          | some q => some (q.1, c.detour || q.2.1, q.2.2)
  else if ecFn p.dst = 0x7F then s.byEntry d at_ 1536 (decide (d.val = 8)) p .toHub
  else
    let here := if stationFn (ecFn p.dst) then Exit.toStation (ecFn p.dst) else .toPanicle (Fin.ofNat 1536 (ecPanIx p.dst))
    s.byEntry d at_ (ecPanIx p.dst) (decide (d.val = ecTil p.dst)) p here
where
  /-- Coordinate index 16Z + 4Y + X (R317). -/
  coordIx3 (pkg : BitVec 24) : Nat := 16 * fld pkg 3 0 + 4 * fld pkg 7 4 + fld pkg 11 8

/-! ### The way through a die (R253, R255, R256, R258, R319) -/

/-- The outer row of a tiller (R255). -/
def outerRow (t : Nat) : Nat := if t < 4 then 0 else 11

/-- The column of a vertical bridge's X port, or of a controller's, that a packet takes from its own (R319). -/
def clampCol (c : Nat) : Nat := Nat.max 1 (Nat.min 14 c)

/-- The router of a die at which a packet leaves by an exit, from the router where it is (R255, R318, R319). Table 7-2 gives
a controller 14 X ports, and the packet takes the one in its own column, as for a vertical bridge (assumption 177). -/
def exitRouter (d i : Nat) : Exit → Nat
  | .toPanicle q => q.val % 192
  | .toStation fn => if fn = 0x60 then outerRow d * 16 + 7 else (3 + 3 * (fn - 0x50)) * 16 + clampCol (i % 16)
  | .toBridge b _ =>
    if 6 ≤ b.val ∧ b.val < 10 then (if d < 4 then 11 else 0) * 16 + clampCol (i % 16)
    else i / 16 * 16 + (if d = (bridgeEnds b.val).1 then 15 else 0)
  | .toSheaf _ _ at_ => at_.val % 192
  | .toStraw w => strawRouter w.val % 192
  | .toHub => i

/-- The port by which a packet goes on toward a router of its die: along the row, then along the column (R319). -/
def meshPort (i j : Nat) : Nat :=
  if i % 16 < j % 16 then 1 else if j % 16 < i % 16 then 3 else if i / 16 < j / 16 then 2 else 0

/-- The neighbour at a port N, E, S, W. -/
def meshNext (i port : Nat) : Nat :=
  match port with
  | 0 => i - 16
  | 1 => i + 1
  | 2 => i + 16
  | _ => i - 1

/-- The router of a die at which `at_` stands: the hub is one router (assumption 173). -/
def nodeOf (d : DieId) (at_ : PanId) : Nat := if d.val = 8 then 1536 else d.val * 192 + at_.val % 192

/-- Whether a packet that has not set out enters the rachis at a router (R255, R258): one that its panicle's injection
arbiter has granted, as the oldest of its channel; one of a station or of a router itself, at an X port of that. -/
def State.setsOut (s : State) (node : Nat) (p : Packet) : Option Nat :=
  let fn := ecFn p.src
  let t := ecTil p.src
  let fresh := s.fab.sent.contains p && !s.fab.routed.any (fun r => decide (r.pkt = p))
  let inL := (s.arb (.inject (Fin.ofNat 1536 (ecPanIx p.src)))).given
  if !fresh then none
  else if fn < 0x50 then
    if ecPanIx p.src = node ∧ inL.find? (fun q => decide (q.vc = p.vc)) = some p then some 4 else none
  else if fn = 0x7F then (if node = 1536 then some 24 else none)
  else if fn = 0x7E then (if ecPanIx p.src = node then some 4 else none)
  else if node ≠ 1536 ∧ node / 192 = t ∧ node % 192 = exitRouter t (node % 192) (.toStation fn) then some 5
  else none

/-- The port at which a packet stands at a router, as the oldest of its channel there (R253). -/
def State.portOf (s : State) (node : Nat) (p : Packet) : Option Nat :=
  match s.fab.parked.find? (fun q => decide (q.at_ = node) && decide (q.pkt = p)) with
  | some q =>
    let before := s.fab.parked.find? (fun r =>
      decide (r.at_ = node) && decide (r.port = q.port) && decide (r.pkt.vc = p.vc))
    if before = some q then some q.port else none
  | none => if s.fab.parked.any (fun q => decide (q.pkt = p)) then none else s.setsOut node p

/-- A packet `q` goes on from a router toward its exit, if there is room for it (R253, R256, R268): to a neighbour, into a
bridge, or, the flag says, out of the mesh. -/
def State.goOn (s : State) (d : DieId) (node : Nat) (x : Exit) (q : Packet) : Option (State × Bool) :=
  let i := node % 192
  let cross := fun (b : Fin 12) (k : Nat) =>
    match bridgeDirFrom d.val b.val with
    | none => none
    | some dir => if flitsOf q ≤ (s.dir dir).creditFor k q.vc then some (s.bridgeSend dir k q, false) else none
  let here := decide (d.val = 8) || decide (exitRouter d.val i x = i)
  if here then
    match x with
    | .toBridge b k => cross b k
    | _ => some (s, true)
  else
    let o := meshPort i (exitRouter d.val i x)
    let next := d.val * 192 + meshNext i o
    let l := s.link next ((o + 2) % 4)
    if l.down || !s.room next ((o + 2) % 4) q then none
    else some (s.setLink next ((o + 2) % 4) { l with wire := l.wire ++ [(q, 0)] }, false)

/-- A granted packet has gone into the rachis (R258). -/
def State.ungive (s : State) (p : Packet) : State :=
  let a : ArbId := .inject (Fin.ofNat 1536 (ecPanIx p.src))
  if (s.arb a).given.contains p then s.setArb a { s.arb a with given := (s.arb a).given.erase p } else s

/-- The row of a router as bridges see it: at the hub the sub-port by which the packet came (R256). -/
def rowAt (d : DieId) (at_ : PanId) (port : Nat) : PanId :=
  if d.val = 8 ∧ port < 24 then Fin.ofNat 1536 (port % 12 * 16) else at_

/-- PACKET_ROUTE (R253, R312, R317 to R322): a head at a router is sent on, waits for room, or is dropped as malformed or
without a route. -/
def execPacketRoute (d : DieId) (at_ : PanId) (pkt : Packet) (s : State) : Out :=
  let r := s.die d.val
  let node := nodeOf d at_
  if !s.hasPkt pkt then .next s
  else match s.portOf node pkt with
    | none => .next s
    | some port =>
      if ecMalformed pkt.dst then
        .next (((s.ungive pkt).takePkt pkt).setDie d.val { r with invalid := satAdd r.invalid 1 })
      else match s.resolve d (rowAt d at_ port) pkt with
        | none => .next (((s.ungive pkt).takePkt pkt).setDie d.val { r with noRoute := satAdd r.noRoute 1 })
        | some (x, detour, q) =>
          match (s.unpark pkt).goOn d node x q with
          | none => .next s
          | some (s', out) =>
            let s' := if detour then s'.setDie d.val { r with detour := satAdd r.detour 1 } else s'
            let s' := (s'.ungive pkt).swapPkt pkt q
            let rest := s'.fab.routed.filter (fun e => e.pkt ≠ q)
            let s' := { s' with fab := { s'.fab with
              routed := rest ++ [{ die := d, at_ := at_, exit := x, pkt := q, out := out }] } }
            .next (if port = 5 then s'.sheafGo node else s')

/-- A packet dropped for its age while a straw's replay buffer or a reorder buffer of the die holds it (R325). -/
def State.ageOnStraws (s : State) (d : Nat) (p : Packet) : State × Bool :=
  let ws := (List.range 32).filter (fun w => decide (w / 4 = d) && (s.straw w).unacked.any (fun q => q.pkt = p))
  let hit := fun (e : Reordered) => decide (e.straw / 4 = d) && decide (e.pkt = p) && !e.dead
  let ns := (List.range 32).filter (fun n => (s.sheaf n).reorder.any (fun e => e.2.any hit))
  let s := ws.foldl (fun s w =>
    s.setStraw w { s.straw w with unacked := (s.straw w).unacked.filter (fun q => q.pkt ≠ p) }) s
  let s := ns.foldl (fun s n =>
    s.setSheaf n { s.sheaf n with
      reorder := (s.sheaf n).reorder.map (fun e => (e.1, e.2.map (fun q => if hit q then { q with dead := true } else q))) }) s
  (s, !ws.isEmpty || !ns.isEmpty)

/-- PACKET_AGE_DROP (R325): wherever the packet waits in the package. -/
def execPacketAgeDrop (d : DieId) (pkt : Packet) (s : State) : Out :=
  let r := s.die d.val
  let late := fun (s : State) => s.setDie d.val { r with age := satAdd r.age 1 }
  if s.hasPkt pkt then .next (late ((s.ungive pkt).takePkt pkt))
  else
    let a := s.ageOnStraws d.val pkt
    if a.2 then .next (late a.1) else .next s

/-! ### Table commands (R326, R329, Table 9-19) -/

/-- RCH_TBL_SUM of a bank (R329). -/
def DieRoute.sumOf (r : DieRoute) (b : Nat) : W32 :=
  let words := fun (t : Nat) => Tab.getMany 0 r.tables (entryKey b t 0) (tableSize t)
  crc32c ((words 0 ++ words 1 ++ words 2).flatMap (fun w => toLE 4 w.toNat))

/-- Fields that RCH_TBL_CMD keeps; GO reads 0. -/
def cmdKept (cmd : W32) : W32 := cmd &&& 0x78C00FFF

/-- Dies that a table command applies to. -/
def tblDies (d : Nat) (cmd : W32) : List Nat := if cmd.getLsbD 27 then List.range 9 else [d]

/-- BANK of a table command. -/
def tblBank (cmd : W32) : Nat := fld cmd 28 28

/-- A command on one die's registers, refused where `ok` fails. -/
def State.tblOn (s : State) (d : Nat) (ok : DieRoute → Bool) (g : DieRoute → DieRoute) : State :=
  let r := s.die d
  s.setDie d (if ok r then g r else { r with tblRefused := true })

/-- RCH_TBL_CMD is held by its die. -/
def State.keepCmd (s : State) (d : Nat) (cmd : W32) : State := s.setDie d { s.die d with cmd := cmdKept cmd }

/-- Write RCH_TBL_DATA to an entry of a RETIRED bank (R326). -/
def State.tblWrite (s : State) (d : Nat) (cmd : W32) : State :=
  let s := s.keepCmd d cmd
  let v := (s.die d).data
  let t := fld cmd 23 22
  let i := fld cmd 11 0
  (tblDies d cmd).foldl (fun s k => s.tblOn k
    (fun r => decide (r.bank (tblBank cmd) = .retired) && decide (i < tableSize t))
    (fun r => { r with tables := Tab.set 0 r.tables (entryKey (tblBank cmd) t i) v })) s

/-- Read an entry into RCH_TBL_DATA. -/
def State.tblRead (s : State) (d : Nat) (cmd : W32) : State :=
  let t := fld cmd 23 22
  let i := fld cmd 11 0
  (s.keepCmd d cmd).tblOn d (fun _ => decide (i < tableSize t))
    (fun r => { r with data := r.entry (tblBank cmd) t i })

/-- SEAL: a RETIRED bank is frozen and its sum computed (R326, R329). -/
def State.tblSeal (s : State) (d : Nat) (cmd : W32) : State :=
  let b := tblBank cmd
  (tblDies d cmd).foldl (fun s k => s.tblOn k (fun r => decide (r.bank b = .retired))
    (fun r => { r.setBank b .sealed with sum := r.sumOf b })) (s.keepCmd d cmd)

/-- UNSEAL: a SEALED bank is RETIRED again (R326). -/
def State.tblUnseal (s : State) (d : Nat) (cmd : W32) : State :=
  let b := tblBank cmd
  (tblDies d cmd).foldl (fun s k => s.tblOn k (fun r => decide (r.bank b = .sealed))
    (fun r => r.setBank b .retired)) (s.keepCmd d cmd)

/-- TBL_WRITE (R326). -/
def execTblWrite (d : DieId) (cmd : W32) (s : State) : Out := .next (s.tblWrite d.val cmd)

/-- TBL_READ (R317). -/
def execTblRead (d : DieId) (cmd : W32) (s : State) : Out := .next (s.tblRead d.val cmd)

/-- TBL_SEAL (R329). -/
def execTblSeal (d : DieId) (cmd : W32) (s : State) : Out := .next (s.tblSeal d.val cmd)

/-- TBL_UNSEAL (R326). -/
def execTblUnseal (d : DieId) (cmd : W32) (s : State) : Out := .next (s.tblUnseal d.val cmd)

/-! ### Epochs (R326, R327) -/

/-- A bridge direction that was declared down, and whose planes have trained again, returns to service with
the epoch change (R268). -/
def BDir.epoch (x : BDir) : BDir :=
  if x.failed && x.ready then { x with failed := false, ready := false, down := false } else x

/-- A write of RCH_EPOCH.INJ (R327): only the hub's copy is writable, and it flips the whole package. -/
def State.flipEpoch (s : State) (d : Nat) (inj : BitVec 1) : State :=
  let old := s.fab.inj
  if d ≠ 8 ∨ inj = old then s
  else
    let ok := (List.range 9).all (fun k =>
      let r := s.die k
      decide (r.bank inj.toNat = .sealed) && decide (r.bank0 ≠ .draining) && decide (r.bank1 ≠ .draining))
    if !ok then s.setDie 8 { s.die 8 with flipRefused := true }
    else
      let s := (List.range 9).foldl (fun s k =>
        let r := (s.die k).setBank inj.toNat .active
        s.setDie k (if r.bank old.toNat = .active then r.setBank old.toNat .draining else r)) s
      let s := (List.range 24).foldl (fun s b => s.setDir b (s.dir b).epoch) s
      { s with fab := { s.fab with inj := inj, drainAt := some s.refcnt } }

/-- EPOCH_FLIP (R327). -/
def execEpochFlip (d : DieId) (inj : BitVec 1) (s : State) : Out := .next (s.flipEpoch d.val inj)

/-- BANK_DRAIN_EXPIRE (R326): 2 ms after the flip. -/
def execBankDrainExpire (bank : BitVec 1) (s : State) : Out :=
  let s := (List.range 9).foldl (fun s k =>
    let r := s.die k
    if r.bank bank.toNat = .draining then s.setDie k (r.setBank bank.toNat .retired) else s) s
  .next { s with fab := { s.fab with drainAt := none } }

end Sys2Proof.Machine
end

