-- ==== Sys2Proof/Machine/Security.lean ====
section
/-! DEFINITION. Identity and attestation: SPDM, life-cycle and debug tokens, the debug lock, JTAG (R548, R558,
R564 to R581). -/

namespace Sys2Proof.Machine

/-! ### SPDM (R558, R579 to R581) -/

/-- The connection state of a transport, by its number (R579): 0 none, then after GET_VERSION,
GET_CAPABILITIES and NEGOTIATE_ALGORITHMS. -/
def portNo : SpdmPort → Nat
  | .mctp => 0 | .doe => 1 | .vc6 => 2

/-- Whether SPDM requests are answered on a transport (R558): once the stewards run; over DOE while the function
is out of reset. -/
def State.spdmServes (s : State) (p : SpdmPort) : Bool :=
  let b := s.boot
  let up := !b.inReset && !b.hold && decide (3 ≤ b.phase.toNat) && (decide (b.phase ≠ 0xF) || b.held)
  match p with
  | .doe => up && !s.domResetting 2
  | _ => up

/-- A response; a request on the management port is a message of the tray controller (R562). -/
def State.spdmSend (s : State) (p : SpdmPort) (r : SpdmRsp) : State :=
  let s := if p = .mctp then s.trayHeard else s
  { s with sec := { s.sec with out := s.sec.out ++ [(p, r)] } }

/-- A request that needs its transport to have come to step `need`; the connection then stands at `to`. -/
def State.spdm (s : State) (p : SpdmPort) (need upto : Nat) (r : SpdmRsp) : State :=
  if !s.spdmServes p then s
  else
    let k := Tab.get 0 s.sec.conn (portNo p)
    if k < need then s.spdmSend p (.error 4)
    else State.spdmSend { s with sec := { s.sec with conn := Tab.set 0 s.sec.conn (portNo p) upto } } p r

/-- GET_VERSION (R579). -/
def execGetVersion (p : SpdmPort) (s : State) : Out := .next (s.spdm p 0 1 .version)

/-- GET_CAPABILITIES (R580): CERT_CAP, CHAL_CAP and MEAS_CAP with signatures. -/
def execGetCapabilities (p : SpdmPort) (s : State) : Out := .next (s.spdm p 1 2 .capabilities)

/-- NEGOTIATE_ALGORITHMS (R580): `offer` says that the requester offers Ed448, SHA3-512 and raw bit streams. -/
def execNegotiateAlgorithms (p : SpdmPort) (offer : Bool) (s : State) : Out :=
  .next (if offer then s.spdm p 2 3 .algorithms else s.spdm p 2 2 (.error 1))

/-- The chain of slot 0: the DevID certificate, then the AK certificate (R580). -/
def State.chain (s : State) : List Byte := (s.sec.ak.map (fun a => a.chain)).getD []

/-- The public key of the AK, which signs every response that carries a signature (R580). -/
def State.signer (s : State) : List Byte := (s.sec.ak.map (fun a => Config.ed448Public a.key)).getD []

/-- GET_DIGESTS (R580). -/
def execGetDigests (p : SpdmPort) (s : State) : Out := .next (s.spdm p 3 3 (.digests (Config.sha3 s.chain)))

/-- GET_CERTIFICATE (R580): slot 0 alone holds a chain. -/
def execGetCertificate (p : SpdmPort) (slot : BitVec 8) (offset length : Nat) (s : State) : Out :=
  let part := slice s.chain offset length
  .next (s.spdm p 3 3 (if slot ≠ 0 then .error 1 else .certificate part (s.chain.length - (offset + part.length))))

/-- CHALLENGE (R580). -/
def execChallenge (p : SpdmPort) (slot : BitVec 8) (nonce : List Byte) (s : State) : Out :=
  .next (s.spdm p 3 3 (if slot ≠ 0 then .error 1 else .challengeAuth nonce s.signer))

/-- The bytes of a configuration generation. -/
def CfgGen.bytesOf (g : CfgGen) : List Byte :=
  Config.cfgBytes g.sku.toNat g.fmax.toNat g.tdp.toNat g.lc.toNat g.owner g.orphan.toNat

/-- A measurement block (Table 18-6). -/
def State.measure (s : State) (i : Nat) : List Byte :=
  let im := s.sec.image
  match i with
  | 1 => digest64 Config.romBytes
  | 2 => digest64 (imgBytes im 0 604)
  | 3 => digest64 (imgCompBytes im 1)
  | 4 => digest64 (imgCompBytes im 2)
  | 5 => digest64 (imgCompBytes im 3)
  | 6 => digest64 (if s.sec.cfg.lc = 0 then [] else s.sec.cfg.bytesOf)
  | 7 => digest64 (Config.repBytes s.sec.otp.repair.2)
  | 8 => digest64 (s.fab.plan.getD [])
  | _ => digest64 (toLE 8 (match s.sec.lock with
    | some u => u.scope.toNat
    | none => 0))

/-- GET_MEASUREMENTS (R581): one block, or all at one instant with index 0xFF; index 0 asks for none. -/
def execGetMeasurements (p : SpdmPort) (index : BitVec 8) (signed : Bool) (nonce : List Byte) (s : State) : Out :=
  let all := [1, 2, 3, 4, 5, 6, 7, 8, 9]
  let want := if index = 0xFF then all else if index = 0 then [] else [index.toNat]
  .next (s.spdm p 3 3 (if want.all (fun i => all.contains i) then
    .measurements (want.map (fun i => (i, s.measure i))) (if signed then some s.signer else none) nonce else .error 1))

/-! ### Tokens (R570 to R576, Tables 18-4, 18-5) -/

/-- A vendor request (R574): answered only over MCTP; elsewhere it is an unsupported request. `body` gives the new
state, the status and the payload of the response. -/
def State.vendor (s : State) (p : SpdmPort) (code : Nat) (body : State → State × Nat × List Byte) : State :=
  if !s.spdmServes p then s
  else if p ≠ .mctp then s.spdmSend p (.error 7)
  else
    let (s, st, more) := body s
    s.spdmSend p (.vendor code st more)

/-- GET_NONCE (R575): 16 random bytes replace the nonce that is outstanding. -/
def execGetNonce (p : SpdmPort) (s : State) : Out :=
  .next (s.vendor p 1 (fun s =>
    let (b, s) := s.drawBytes 16
    ({ s with sec := { s.sec with nonce := some (BitVec.ofNat 128 (ofLE b)) } }, 0, b)))

/-- Whether the Camnik signature of a token verifies. -/
def State.camnikSigned (s : State) (tok : List Byte) : Bool :=
  Config.ed448 (imgBytes s.sec.image 16 57) (slice tok 0 96) (slice tok 96 114)

/-- Whether the owner's signature of a token verifies. -/
def State.ownerSigned (s : State) (tok : List Byte) : Bool :=
  Config.ed448 (imgBytes s.sec.image 73 57) (slice tok 0 210) (slice tok 210 114)

/-- Whether an owner key hash is in force. -/
def State.owned (s : State) : Bool := ownerFused s.sec.cfg.owner

/-- The owner's signature where one is fused, otherwise Camnik's. -/
def State.signedByOwner (s : State) (tok : List Byte) : Bool :=
  if s.owned then s.ownerSigned tok else s.camnikSigned tok

/-- Camnik's signature, and the owner's where one is fused. -/
def State.signedByBoth (s : State) (tok : List Byte) : Bool :=
  s.camnikSigned tok && (!s.owned || s.ownerSigned tok)

/-- A token's serial and nonce are this part's, and its reserved fields are 0 (R576, steps 1 to 3). -/
def State.tokenOk (s : State) (tok : List Byte) (kind : Nat) (nonce : Option (BitVec 128)) : Bool :=
  decide (leAt tok 8 8 = s.sec.otp.serial.toNat) &&
  decide (nonce = some (BitVec.ofNat 128 (leAt tok 16 16))) &&
  decide (leAt tok 0 2 = kind) && decide (leAt tok 3 1 = 0) && decide (leAt tok 6 2 = 0)

/-- Whether a slot of the boot flash holds an image of a new owner (R572). -/
def State.ownerImage (s : State) (hash : List Byte) : Bool :=
  [s.boot.slotA.image, s.boot.slotB.image].any (fun im =>
    decide (shake256 (imgBytes im 73 57) 64 = hash) &&
    Config.ed448 (imgBytes im 73 57) (imgBytes im 0 490) (imgBytes im 490 114))

/-- The configuration generation that an accepted life-cycle token writes (Table 18-4). -/
def State.transition (s : State) (tok : List Byte) : Option CfgGen :=
  let now := s.sec.cfg
  let upto := leAt tok 2 1
  let own := slice tok 32 64
  let new : CfgGen := { now with lc := BitVec.ofNat 3 upto }
  let fuseOk := !ownerFused own || decide (s.boot.src ≠ 0) || s.ownerImage own
  match now.lc.toNat, upto with
  | 1, 2 => if s.camnikSigned tok && fuseOk then some { new with owner := own } else none
  | 2, 2 => if s.signedByOwner tok && fuseOk then some { new with owner := own } else none
  | 2, 3 => if s.signedByBoth tok then some new else none
  | 3, 2 => if decide (own = ownerBytes now.owner) && s.signedByBoth tok then some new else none
  | 1, 4 => if s.signedByOwner tok then some new else none
  | 2, 4 => if s.signedByOwner tok then some new else none
  | 3, 4 => if s.signedByOwner tok then some new else none
  | _, _ => none

/-- LC_TRANSITION (R570 to R572, R575, R576). -/
def execLcTransition (p : SpdmPort) (tok : List Byte) (s : State) : Out :=
  .next (s.vendor p 2 (fun s =>
    let nonce := s.sec.nonce
    let s := { s with sec := { s.sec with nonce := none } }
    let used := s.sec.otp.cfg.length
    if tok.length ≠ 324 then (s, 1, [])
    else if s.sec.otp.writing.isSome then (s, 3, [])
    else if !s.tokenOk tok 1 nonce || decide (leAt tok 4 2 ≠ 0) then (s, 2, [])
    else match s.transition tok with
      | none => (s, 2, [])
      | some g =>
        if (if g.lc = 4 then 4 else 3) ≤ used then (s, 2, [])
        else ({ s with sec := { s.sec with otp := { s.sec.otp with writing := some (.cfg g) } } }, 0, [])))

/-! ### Debug unlock (R577, R578) -/

/-- Whether the signer that Table 18-3 gives for the state in force has signed a debug token. -/
def State.debugSigned (s : State) (tok : List Byte) : Bool :=
  match s.sec.cfg.lc.toNat with
  | 2 => s.signedByOwner tok
  | 4 => false
  | _ => s.camnikSigned tok

/-- DEBUG_UNLOCK (R575 to R577). -/
def execDebugUnlock (p : SpdmPort) (tok : List Byte) (s : State) : Out :=
  .next (s.vendor p 3 (fun s =>
    let nonce := s.sec.nonce
    let s := { s with sec := { s.sec with nonce := none } }
    let scope := leAt tok 2 1
    let mins := leAt tok 4 2
    let jtag := decide (scope % 2 = 1) && !s.fullOk
    if tok.length ≠ 324 then (s, 1, [])
    else if s.sec.otp.writing.isSome then (s, 3, [])
    else if !s.tokenOk tok 2 nonce || decide (8 ≤ scope) || jtag || decide (mins = 0) || decide (1440 < mins) ||
        ownerFused (slice tok 32 64) || !s.debugSigned tok then (s, 2, [])
    else ({ s with sec := { s.sec with
      lock := some { scope := BitVec.ofNat 3 scope, at_ := s.refcnt, minutes := mins } } }, 0, [])))

/-- The lock closes (R559, R578): the TAP is reset and an armed debug trigger is withdrawn. -/
def State.closeLock (s : State) : State :=
  if s.sec.lock.isNone then s
  else
    let s := { s with sec := { s.sec with lock := none, tap := .idcode } }
    if s.mgt.evtMode = 2 then
      State.log { s with mgt := { s.mgt with evtMode := 0 } } 0x0405 0 none (s.stewardEc 0) 0 0
    else s

/-- DEBUG_RELOCK (R578). -/
def execDebugRelock (p : SpdmPort) (s : State) : Out := .next (s.vendor p 4 (fun s => (s.closeLock, 0, [])))

/-- DEBUG_LIFETIME_EXPIRE (R578). -/
def execDebugLifetimeExpire (s : State) : Out := .next s.closeLock

/-- NONCE_EXPIRE (R575). -/
def execNonceExpire (s : State) : Out := .next { s with sec := { s.sec with nonce := none } }

/-- Whether the full TAP is open (R456, R548, R577). -/
def State.tapOpen (s : State) : Bool := s.fullOk && s.scopeOpen 0

/-- JTAG_INSTRUCTION (R548): locked, every instruction but IDCODE acts as BYPASS. What the other instructions of
the full TAP do is not in the source. -/
def execJtagInstruction (ir : TapIr) (s : State) : Out :=
  let put := fun (t : TapIr) => Host.Outcome.next { s with sec := { s.sec with tap := t } }
  match ir with
  | .idcode => put .idcode
  | .bypass => put .bypass
  | .other _ => if s.tapOpen then .refused .tapInstruction else put .bypass

/-! ### QUERY (R413, Table 12-10) -/

/-- The bytes of a QUERY item; none for an item that is not listed. The layouts of items 3 to 5 are not in the
source: their bytes are open. -/
def State.queryItem (s : State) (item : Nat) : Option (List Byte × State) :=
  match item with
  | 1 => some (s.floorBytes, s)
  | 2 => some (s.forecastBytes, s)
  | 3 => some (s.drawBytes (Config.queryLen 3))
  | 4 => some (s.drawBytes (Config.queryLen 4))
  | 5 => some (s.drawBytes (Config.queryLen 5))
  | _ => none

/-- QUERY (R413): a buffer that is too short gets BAD_PARAM and the bytes needed. -/
def execQuery (q : QueueId) (seq : W32) (s : State) : Out :=
  match s.running q seq 0x10 with
  | none => .next s
  | some m =>
    match s.queryItem (m.p 0 % 256) with
    | none => .next (s.finish q seq 0x101 0)
    | some (bytes, s') =>
      if m.p 2 < bytes.length then .next (s.finish q seq 0x101 bytes.length)
      else if s.hostGone m then .next (s.finish q seq 0x109 0)
      else .next ((s'.hostPut m.via m.fn (m.p 1) bytes).finish q seq 0 bytes.length)

end Sys2Proof.Machine
end

