-- ==== Sys2Proof/Machine/RegRead.lean ====
section
/-! DEFINITION. What registers read as, and what their read-to-clear fields lose (R8, R583 to R590, and the register
tables of chapters 2 to 18). Offsets are those of PF BAR0 (Table 19-1). -/

namespace Sys2Proof.Machine

/-- A register's value as it is read: its 32 bits, or all 64 bits of the pair whose _LO half it is (R589). -/
def wide {n : Nat} (x : BitVec n) : W64 := x.setWidth 64

/-- A value from the sum of its fields. -/
def wideOf (n : Nat) : W64 := BitVec.ofNat 64 n

/-- The register of a block at an offset that is a multiple of a step from a base: which one, and where in it. -/
def stepOf (off base step : Nat) : Nat × Nat := ((off - base) / step, (off - base) % step)

/-! ### Counter sets of arbiters (Table 2-9) -/

/-- A counter set at an offset from its start: GRANTS, WAIT, WAIT_HI by itself, LONGEST. -/
def ArbCtr.regAt (c : ArbCtr) (o : Nat) : W64 :=
  match o with
  | 0 => wide c.grants
  | 4 => wide c.wait
  | 12 => wide c.longest
  | _ => 0

/-- A counter set after a read (R8, R589): a read of WAIT_LO clears the whole count. -/
def ArbCtr.readAt (c : ArbCtr) (o : Nat) : ArbCtr :=
  match o with
  | 0 => { c with grants := 0 }
  | 4 => { c with wait := 0 }
  | 12 => { c with longest := 0 }
  | _ => c

/-- The counter sets of an instance from an offset on: requesters 16 bytes apart. -/
def State.arbReg (s : State) (a : ArbId) (o : Nat) : W64 := (Tab.get {} (s.arb a).ctr (o / 16)).regAt (o % 16)

/-- A read of an instance's counter sets. -/
def State.arbRead (s : State) (a : ArbId) (o : Nat) : State :=
  s.setArb a { s.arb a with ctr := Tab.upd {} (s.arb a).ctr (o / 16) (fun c => c.readAt (o % 16)) }

/-! ### Panicle windows (Table 19-3) -/

/-- Bit f set for each floret of a spikelet in some state. -/
def State.floretMask (s : State) (i : Nat) (p : FStatus → Bool) : Nat :=
  (List.range 16).foldl (fun (n : Nat) (f : Nat) => n + bit (p (s.floret (i * 16 + f)).status) f) 0

/-- PNC_SPK_STATUS, ECC_CE, ECC_UE and MAP of a spikelet (Tables 2-10 to 2-13). -/
def State.spkReg (s : State) (i o : Nat) : W64 :=
  let sp := s.spk i
  match o with
  | 0 => wideOf (s.floretMask i (fun x => decide (x ≠ .idle)) * 2 ^ 16 + s.floretMask i (fun x => decide (x = .faulted)))
  | 4 => wide sp.eccCe
  | 8 => wideOf (bit sp.ueValid 31 + sp.ueRow.toNat * 2 ^ 16 + sp.ueCount.toNat)
  | _ => wideOf (sp.remap.length * 2 ^ 24 + popc sp.shadow)

/-- The fault record of a spikelet (Tables 4-16 to 4-18). -/
def State.frecReg (s : State) (i o : Nat) : W64 :=
  let r := (s.spk i).frec
  match o with
  | 0 => wideOf (bit r.valid 31 + bit r.ovf 30 + r.floret.toNat * 2 ^ 26 + r.kind.toNat * 2 ^ 24 + r.ctx.toNat * 2 ^ 12 +
      r.code.toNat)
  | 4 => wide r.pc
  | 8 => r.detail
  | _ => 0

/-- PNC_BND_STATUS (Table 11-10). -/
def State.bndWord (s : State) (p : Nat) : W64 :=
  let b := s.panBnd p
  let open_ := (s.pan p).slots.countP (fun e => e.2.isSome)
  let log := b.coord.countP (fun r => r.sent)
  wideOf (b.agents.length * 2 ^ 24 + lockEntries b.homes * 2 ^ 16 + log * 2 ^ 8 + open_)

/-- The counters of Table 5-9, by their place. -/
def PanCounters.xlate (c : PanCounters) (i : Nat) : W32 :=
  match i with
  | 0 => c.xlHit | 1 => c.xlMiss | 2 => c.xlFar | 3 => c.spHit
  | 4 => c.spMiss | 5 => c.spWb | 6 => c.raDiscard | _ => c.raDefer

/-- A counter of Table 5-9 cleared. -/
def PanCounters.clearX (c : PanCounters) (i : Nat) : PanCounters :=
  match i with
  | 0 => { c with xlHit := 0 } | 1 => { c with xlMiss := 0 } | 2 => { c with xlFar := 0 } | 3 => { c with spHit := 0 }
  | 4 => { c with spMiss := 0 } | 5 => { c with spWb := 0 } | 6 => { c with raDiscard := 0 }
  | _ => { c with raDefer := 0 }

/-- The transport counters of Table 9-17, by their place. -/
def PanCounters.transport (c : PanCounters) (i : Nat) : W32 :=
  match i with
  | 0 => c.tpRetry | 1 => c.tpNak | 2 => c.tpDup | 3 => c.tpUnreach | _ => c.tpStall

/-- A transport counter cleared. -/
def PanCounters.clearT (c : PanCounters) (i : Nat) : PanCounters :=
  match i with
  | 0 => { c with tpRetry := 0 } | 1 => { c with tpNak := 0 } | 2 => { c with tpDup := 0 }
  | 3 => { c with tpUnreach := 0 } | _ => { c with tpStall := 0 }

/-- Reduction leaf status and leaf entries (Tables 10-9, 10-12), from panicle offset 0x0500 on. -/
def State.leafReg (s : State) (p o : Nat) : W64 :=
  let u := s.leaf p
  match o with
  | 0 => wideOf (bit u.failValid 31 + bit u.failOvf 30 + u.failStatus.toNat * 2 ^ 22 + u.failTree.toNat * 2 ^ 14 +
      u.failChunk.toNat)
  | 4 => wide u.origin
  | 12 => wide u.done
  | 16 => wide u.fails
  | _ =>
    if 0x20 ≤ o then
      match u.leaves[(o - 0x20) / 0x20]? with
      | some e => wide (entryWord e.words (o % 0x20 / 4))
      | none => 0
    else 0

/-- Bundle registers of a panicle (Tables 11-9 to 11-12), from panicle offset 0x0600 on. -/
def State.bndReg (s : State) (p o : Nat) : W64 :=
  let b := s.panBnd p
  match o with
  | 0x00 => s.bndWord p
  | 0x04 => wide b.commits
  | 0x08 => wide b.aborts
  | 0x0C => wide b.wounds
  | 0x10 => wide b.readWait
  | 0x14 => wideOf (bit b.evtValid 31 + bit b.evtOvf 30 + b.evtKind.toNat * 2 ^ 28 + b.evtCtx.toNat * 2 ^ 12 +
      b.evtSpk.toNat)
  | 0x18 => wideOf (b.evtFloret.toNat * 2 ^ 28 + b.evtSeq.toNat)
  | _ => 0

/-- A bank of a panicle, as an arbiter instance. -/
def bankArb (p spk : Nat) : ArbId := .bank (Fin.ofNat 98304 (p * 64 + spk))

/-- The injection arbiter of a panicle. -/
def injArb (p : Nat) : ArbId := .inject (Fin.ofNat 1536 p)

/-- The registers of a panicle's window (R82, Table 19-3). -/
def State.panReg (s : State) (p o : Nat) : W64 :=
  let a := s.panArb p
  let c := (s.pan p).ctr
  if o = 0x100 then wide a.barbPrio
  else if o = 0x104 then wide a.barbSel
  else if 0x110 ≤ o ∧ o < 0x150 then s.arbReg (bankArb p a.barbSel.toNat) (o - 0x110)
  else if 0x200 ≤ o ∧ o < 0x220 then wide (c.xlate ((o - 0x200) / 4))
  else if o = 0x300 then wide a.injPrio
  else if o = 0x304 then wideOf (bit a.stall 31 + a.movPrefetch.toNat)
  else if 0x310 ≤ o ∧ o < 0x350 then s.arbReg (injArb p) (o - 0x310)
  else if o = 0x350 then wide a.hints
  else if 0x400 ≤ o ∧ o < 0x414 then wide (c.transport ((o - 0x400) / 4))
  else if o = 0x414 then wideOf (s.peersOf p).length
  else if 0x500 ≤ o ∧ o < 0x620 then s.leafReg p (o - 0x500)
  else 0

/-- A read of a panicle's window clears its RC fields. -/
def State.panRead (s : State) (p o : Nat) : State :=
  let a := s.panArb p
  if 0x110 ≤ o ∧ o < 0x150 then s.arbRead (bankArb p a.barbSel.toNat) (o - 0x110)
  else if 0x200 ≤ o ∧ o < 0x220 then s.count p (fun c => c.clearX ((o - 0x200) / 4))
  else if 0x310 ≤ o ∧ o < 0x350 then s.arbRead (injArb p) (o - 0x310)
  else if o = 0x350 then s.setPanArb p { a with hints := 0 }
  else if 0x400 ≤ o ∧ o < 0x414 then s.count p (fun c => c.clearT ((o - 0x400) / 4))
  else if o = 0x50C then s.setLeaf p { s.leaf p with done := 0 }
  else if o = 0x510 then s.setLeaf p { s.leaf p with fails := 0 }
  else s

/-- A read of a panicle's bundle registers. -/
def State.bndRead (s : State) (p o : Nat) : State :=
  let b := s.panBnd p
  match o with
  | 0x04 => s.setPanBnd p { b with commits := 0 }
  | 0x08 => s.setPanBnd p { b with aborts := 0 }
  | 0x0C => s.setPanBnd p { b with wounds := 0 }
  | 0x10 => s.setPanBnd p { b with readWait := 0 }
  | _ => s

/-- A read of a spikelet's registers. -/
def State.spkRead (s : State) (i o : Nat) : State :=
  let sp := s.spk i
  match o with
  | 4 => s.setSpk i { sp with eccCe := 0 }
  | 8 => s.setSpk i { sp with ueCount := 0 }
  | _ => s

/-- Whether a panicle offset is one of the bundle registers: leaf entry 7 ends where they begin. -/
def isBndReg (o : Nat) : Bool := decide (0x600 ≤ o) && decide (o < 0x61C)

/-- A register of a panicle's window, with those of its spikelets. -/
def State.winReg (s : State) (p o : Nat) : W64 :=
  if isBndReg o then s.bndReg p (o - 0x600)
  else if 0x800 ≤ o ∧ o < 0xC00 then s.spkReg (p * 64 + (o - 0x800) / 16) (o % 16)
  else if 0x1000 ≤ o ∧ o < 0x1400 then s.frecReg (p * 64 + (o - 0x1000) / 16) (o % 16)
  else s.panReg p o

/-- A read in a panicle's window. -/
def State.winRead (s : State) (p o : Nat) : State :=
  if isBndReg o then s.bndRead p (o - 0x600)
  else if 0x800 ≤ o ∧ o < 0xC00 then s.spkRead (p * 64 + (o - 0x800) / 16) (o % 16)
  else s.panRead p o

/-! ### Granary stacks (Table 6-6) -/

/-- A pseudo-channel of a stack, as an arbiter instance. -/
def hbmArb (n pc : Nat) : ArbId := .hbm (Fin.ofNat 24 n) (Fin.ofNat 64 pc)

/-- The registers of a stack (Tables 6-6 to 6-16, 11-13). -/
def State.grnReg (s : State) (n o : Nat) : W64 :=
  let k := s.stack n
  let b := s.stackBnd n
  if 0x110 ≤ o ∧ o < 0x180 then s.arbReg (hbmArb n k.sel.toNat) (o - 0x110)
  else if 0x180 ≤ o ∧ o < 0x190 then wide (Tab.get 0 k.lvl (k.sel.toNat * 4 + (o - 0x180) / 4))
  else match o with
  | 0x000 => wideOf (bit k.lost 7 + bit k.throttled 6 + bit k.resetting 5 + bit k.trained 4 + (s.dom (16 + n)).gen.toNat % 16)
  | 0x004 => wideOf (k.tmax.toNat * 2 ^ 16 + k.trefi.toNat * 2 ^ 8 + k.temp.toNat)
  | 0x010 => wideOf (k.peak.toNat * 2 ^ 16 + k.openReqs.length)
  | 0x020 => wide k.ecCe
  | 0x024 => wideOf (bit k.ueValid 31 + bit k.ueOvf 30 + bit k.ueAddrErr 29 + k.ueClass.toNat * 2 ^ 26 +
      k.ueCtx.toNat * 2 ^ 12 + k.ueCount.toNat)
  | 0x028 => wide k.ueAddr
  | 0x030 => wideOf (bit k.scrubEn 31 + k.scrubPer.toNat)
  | 0x034 => wide k.scrubPos
  | 0x040 => wideOf (k.soft.length * 2 ^ 16 + (2048 - k.hardUsed.foldl (fun m e => m + e.2) 0))
  | 0x050 => wideOf (bit k.errValid 31 + bit k.errOvf 30 + k.errKind.toNat * 2 ^ 28 + k.errPc.toNat * 2 ^ 22 +
      k.errCtx.toNat)
  | 0x100 => wide k.prio
  | 0x104 => wide k.sel
  | 0x190 => wide (Tab.get 0 k.hints k.sel.toNat)
  | 0x200 => wideOf (bit k.pfEn 31 + k.backoff.toNat)
  | 0x204 => wide k.pfHit
  | 0x208 => wide k.pfDrop
  | 0x300 => wideOf (b.peak.toNat * 2 ^ 16 + lockEntries b.homes)
  | 0x304 => wide b.wounds
  | 0x308 => wide b.readWait
  | _ => 0

/-- A read of a stack's registers. -/
def State.grnRead (s : State) (n o : Nat) : State :=
  let k := s.stack n
  let b := s.stackBnd n
  if 0x110 ≤ o ∧ o < 0x180 then s.arbRead (hbmArb n k.sel.toNat) (o - 0x110)
  else if 0x180 ≤ o ∧ o < 0x190 then
    s.setStack n { k with lvl := Tab.set 0 k.lvl (k.sel.toNat * 4 + (o - 0x180) / 4) 0 }
  else match o with
  | 0x004 => s.setStack n { k with tmax := 0 }
  | 0x010 => s.setStack n { k with peak := 0 }
  | 0x020 => s.setStack n { k with ecCe := 0 }
  | 0x024 => s.setStack n { k with ueCount := 0 }
  | 0x190 => s.setStack n { k with hints := Tab.set 0 k.hints k.sel.toNat 0 }
  | 0x204 => s.setStack n { k with pfHit := 0 }
  | 0x208 => s.setStack n { k with pfDrop := 0 }
  | 0x300 => s.setStackBnd n { b with peak := 0 }
  | 0x304 => s.setStackBnd n { b with wounds := 0 }
  | 0x308 => s.setStackBnd n { b with readWait := 0 }
  | _ => s

/-! ### Fabric (chapters 7 to 11) -/

/-- STATE of a table bank (Table 9-18). -/
def BankSt.code : BankSt → Nat
  | .retired => 0 | .sealed => 1 | .active => 2 | .draining => 3

/-- The routing registers of a die (Tables 9-17 to 9-19). -/
def State.dieReg (s : State) (d o : Nat) : W64 :=
  let r := s.die d
  match o with
  | 0x00 => wideOf (bit r.flipRefused 31 + bit r.tblRefused 30 + r.bank1.code * 2 ^ 6 + r.bank0.code * 2 ^ 4 + s.fab.inj.toNat)
  | 0x04 => wide r.cmd
  | 0x08 => wide r.data
  | 0x0C => wide r.sum
  | 0x10 => wide r.noRoute
  | 0x14 => wide r.age
  | 0x18 => wide r.invalid
  | 0x1C => wide r.detour
  | _ => 0

/-- A read of a die's registers. -/
def State.dieRead (s : State) (d o : Nat) : State :=
  let r := s.die d
  match o with
  | 0x10 => s.setDie d { r with noRoute := 0 }
  | 0x14 => s.setDie d { r with age := 0 }
  | 0x18 => s.setDie d { r with invalid := 0 }
  | 0x1C => s.setDie d { r with detour := 0 }
  | _ => s

/-- NBR_HEALTH of a plane (Table 7-13). -/
def State.healthWord (s : State) (x : BPlane) : W64 :=
  wideOf (bit (s.healthy x) 31 + x.state.code * 2 ^ 28 + x.sparesUsed * 2 ^ 24 +
    Nat.min 255 (s.recent sec1 x.faults).length * 2 ^ 16 + x.cause.toNat * 2 ^ 14 + x.lastLane.toNat)

/-- NBR_SPARE of a plane's spare (Table 7-14). -/
def State.spareWord (s : State) (x : BPlane) (i : Nat) : W64 :=
  let q := x.spare i
  let clean := if q.used then Nat.min 1000 ((s.refcnt - q.since).toNat / ms1) else 0
  let back := (x.returns.filter (fun r => decide (r.1 = q.lane.toNat) && !s.since r.2 (3600 * sec1))).length
  wideOf (bit q.used 31 + bit q.returning 30 + clean * 2 ^ 16 +
    (if q.used then Nat.min 3 back * 2 ^ 9 else 0) + q.lane.toNat)

/-- The registers of a bridge direction (Tables 7-10 to 7-14). -/
def State.dirReg (s : State) (b o : Nat) : W64 :=
  let d := s.dir b
  if 0x40 ≤ o ∧ o < 0x60 then s.spareWord d.a ((o - 0x40) / 4)
  else if 0x60 ≤ o ∧ o < 0x80 then s.spareWord d.b ((o - 0x60) / 4)
  else match o with
  | 0x00 => wideOf (bit d.autoRetrain 0)
  | 0x04 => wideOf (bit d.down 31 + bit d.forceRefused 30 + bit d.interlock 29 + bit d.hold 1 + bit d.drive 0)
  | 0x08 => wide d.naks
  | 0x0C => wide d.mismatch
  | 0x10 => wide d.switches
  | 0x20 => s.healthWord d.a
  | 0x24 => wide d.a.crc
  | 0x28 => wide d.a.prbs
  | 0x30 => s.healthWord d.b
  | 0x34 => wide d.b.crc
  | 0x38 => wide d.b.prbs
  | _ => 0

/-- A read of a bridge direction's registers. -/
def State.dirRead (s : State) (b o : Nat) : State :=
  let d := s.dir b
  match o with
  | 0x08 => s.setDir b { d with naks := 0 }
  | 0x0C => s.setDir b { d with mismatch := 0 }
  | 0x10 => s.setDir b { d with switches := 0 }
  | 0x24 => s.setDir b { d with a := { d.a with crc := 0 } }
  | 0x28 => s.setDir b { d with a := { d.a with prbs := 0 } }
  | 0x34 => s.setDir b { d with b := { d.b with crc := 0 } }
  | 0x38 => s.setDir b { d with b := { d.b with prbs := 0 } }
  | _ => s

/-- STATE of a straw (Table 8-11). -/
def StrawState.code : StrawState → Nat
  | .off => 0 | .down => 1 | .training => 2 | .rollCall => 3 | .up => 4 | .held => 5 | .quarantined => 6

/-- OUTCOME of a straw (Table 8-11). -/
def Outcome.code : Outcome → Nat
  | .none => 0 | .matched => 1 | .swapped => 2 | .miswired => 3 | .missing => 4 | .unexpected => 5

/-- SHF_STRAW_PEER_INFO (Table 8-12). -/
def Straw.peerInfo (x : Straw) : W64 :=
  match x.heard with
  | none => 0
  | some f => wideOf (f.kind.toNat % 2 * 2 ^ 31 + f.rack.toNat * 2 ^ 19 + f.x.toNat * 2 ^ 15 + f.y.toNat * 2 ^ 11 +
      f.z.toNat * 2 ^ 7 + f.straw.toNat)

/-- The registers of a straw (Tables 8-9 to 8-13). The received power is a measurement: an open value (the
argument) once the straw is on. -/
def State.strawReg (s : State) (w o : Nat) (power : W64) : W64 :=
  let x := s.straw w
  match o with
  | 0x00 => wideOf (bit x.auto 2 + bit x.en 0)
  | 0x04 => wideOf (x.state.code * 2 ^ 29 + x.outcome.code * 2 ^ 26 + bit x.planSkew 25 + x.exchWith.toNat * 2 ^ 16 +
      x.lambda.toNat)
  | 0x08 => wide x.naks
  | 0x0C => wide x.crc
  | 0x10 => wide x.fec
  | 0x14 => match x.heard with
    | some f => f.serial
    | none => 0
  | 0x1C => x.peerInfo
  | 0x20 => if x.state = .off then 0 else wideOf (fld power 18 0)
  | _ => 0

/-- The registers of a sheaf (Tables 8-9, 8-14). -/
def State.sheafReg (s : State) (n o : Nat) : W64 :=
  let x := s.sheaf n
  match o with
  | 0x00 => wide x.members
  | 0x04 => wide (bitMask 32 (s.live n))
  | 0x08 => wideOf (bit x.cfgErr 31 + bit x.split 30 + (s.subs n).length)
  | 0x0C => wide x.resent
  | 0x10 => wide x.dropped
  | _ => 0

/-- The sheaf scheduler of a straw, as an arbiter instance. -/
def schedArb (w : Nat) : ArbId := .sheaf (Fin.ofNat 32 w)

/-- Registers of straws, sheaves, rings and schedulers (Table 8-9), from BAR0 0x242_0000 on. -/
def State.shfReg (s : State) (o : Nat) (power : W64) : W64 :=
  let w := s.fab.schedSel.toNat
  if o < 0x800 then s.strawReg (o / 0x40) (o % 0x40) power
  else if 0x1000 ≤ o ∧ o < 0x1400 then s.sheafReg ((o - 0x1000) / 0x20) (o % 0x20)
  else if 0x2000 ≤ o ∧ o < 0x200C then
    let r := s.ring ((o - 0x2000) / 4)
    wideOf (r.state.toNat * 2 ^ 30 + r.absent.toNat)
  else if o = 0x2010 then wide s.fab.reshape
  else if o = 0x2020 then s.planVersion
  else if o = 0x2100 then wide s.fab.schedSel
  else if o = 0x2104 then wide (s.straw w).schedPrio
  else if 0x2110 ≤ o ∧ o < 0x2190 then s.arbReg (schedArb w) (o - 0x2110)
  else 0

/-- A read of those registers. -/
def State.shfRead (s : State) (o : Nat) : State :=
  if o < 0x800 then
    let w := o / 0x40
    let x := s.straw w
    match o % 0x40 with
    | 0x08 => s.setStraw w { x with naks := 0 }
    | 0x0C => s.setStraw w { x with crc := 0 }
    | 0x10 => s.setStraw w { x with fec := 0 }
    | _ => s
  else if 0x1000 ≤ o ∧ o < 0x1400 then
    let n := (o - 0x1000) / 0x20
    let x := s.sheaf n
    match o % 0x20 with
    | 0x0C => s.setSheaf n { x with resent := 0 }
    | 0x10 => s.setSheaf n { x with dropped := 0 }
    | _ => s
  else if 0x2110 ≤ o ∧ o < 0x2190 then s.arbRead (schedArb s.fab.schedSel.toNat) (o - 0x2110)
  else s

/-- Slots that the nodes of a combiner reserve, and those that hold data (Tables 10-10, 10-11). -/
def Combiner.slots (c : Combiner) : Nat × Nat :=
  c.nodes.foldl (fun n e => (n.1 + e.reserve, n.2 + e.used)) (0, 0)

/-- The counters and node entries of a combiner (Table 10-9). -/
def State.combReg (s : State) (i o : Nat) : W64 :=
  let c := s.comb i
  if 0x100 ≤ o ∧ o < 0x300 then
    match c.nodes[(o - 0x100) / 0x40]? with
    | some e => wide (entryWord e.words (o % 0x40 / 4))
    | none => 0
  else match o with
  | 0x10 => wide c.combined
  | 0x14 => wide c.aborts
  | 0x18 => wide c.discard
  | _ => 0

/-- A read of a combiner's counters. -/
def State.combRead (s : State) (i o : Nat) : State :=
  let c := s.comb i
  match o with
  | 0x10 => s.setComb i { c with combined := 0 }
  | 0x14 => s.setComb i { c with aborts := 0 }
  | 0x18 => s.setComb i { c with discard := 0 }
  | _ => s

/-- RCH_RED_SEL of a tiller. -/
def State.redSel (s : State) (t : Nat) : BitVec 8 := Tab.get 0 s.red.sel t

/-- The router combiner that a tiller's registers show. -/
def State.selComb (s : State) (t : Nat) : Nat := t * 192 + (s.redSel t).toNat

/-- The router combiners' registers of a tiller (Tables 10-9, 10-10); a panicle value of 192 or above shows none. -/
def State.routerReg (s : State) (t o : Nat) : W64 :=
  if o = 0 then wide (s.redSel t)
  else if 192 ≤ (s.redSel t).toNat then 0
  else if o = 4 then wideOf ((s.comb (s.selComb t)).slots.1 * 2 ^ 16 + (s.comb (s.selComb t)).slots.2)
  else s.combReg (s.selComb t) o

/-- A read of those registers. -/
def State.routerRead (s : State) (t o : Nat) : State :=
  if 192 ≤ (s.redSel t).toNat then s else s.combRead (s.selComb t) o

/-- The registers of a straw port's combiner and staging (Tables 10-9, 10-11, 11-9). -/
def State.portReg (s : State) (w o : Nat) : W64 :=
  let k := s.slots w
  let (res, use_) := (s.comb (1536 + w)).slots
  match o with
  | 0x04 => wideOf (k.parts.foldl (fun n x => n + x.red) 0 * 2 ^ 24 + k.parts.foldl (fun n x => n + x.bnd) 0 * 2 ^ 16 +
      res * 2 ^ 8 + use_)
  | 0x20 => wide k.stagedCt
  | 0x24 => wide k.fullCt
  | _ => s.combReg (1536 + w) o

/-- A read of those registers. -/
def State.portRead (s : State) (w o : Nat) : State :=
  let k := s.slots w
  match o with
  | 0x20 => s.setSlots w { k with stagedCt := 0 }
  | 0x24 => s.setSlots w { k with fullCt := 0 }
  | _ => s.combRead (1536 + w) o

/-! ### Host link (chapter 12) -/

/-- STATE of a queue (Table 12-14). -/
def QState.code : QState → Nat
  | .disabled => 0 | .running => 1 | .draining => 2 | .stopped => 3

/-- The register set of a queue (Tables 12-12 to 12-16). -/
def State.queueReg (s : State) (q o : Nat) : W64 :=
  let x := s.queue q
  match o with
  | 0x00 => x.base
  | 0x08 => x.cqBase
  | 0x10 => wide x.cfg
  | 0x14 => wideOf (x.st.code * 2 ^ 29 + bit x.cfgErr 28 + x.cause.toNat * 2 ^ 24 + x.cmds.length)
  | 0x18 => wide x.head
  | 0x1C => wide x.tail
  | 0x20 => wide x.irq
  | _ => 0

/-! ### Hub (chapters 5, 13 to 19) -/

/-- The hub identity block (Tables 12-3, 13-9, 17-8 to 17-10, 19-2). Before the map is published
HUB_FLOOR_PTR reads 0. -/
def State.hubReg (s : State) (o : Nat) : W64 :=
  let c := s.sec.cfg
  let h := s.host
  let e := s.acc
  match o with
  | 0x000 => wideOf (0x4858 * 2 ^ 16 + s.sec.otp.rev.toNat * 2 ^ 8 + c.sku.toNat)
  | 0x004 => wideOf (s.tdp * 2 ^ 16 + s.maxClk / 1000)
  | 0x008 => s.sec.otp.serial
  | 0x010 => wide c.lc
  | 0x020 => if s.floor.published then wideOf Config.floorAddr else 0
  | 0x028 => wide s.floor.version
  | 0x100 => (h.bar4Hi ++ h.bar4Lo)
  | 0x108 => wideOf (bit h.bar4Valid 31 + bit h.bar4Ovf 30 + h.bar4Kind.toNat * 2 ^ 28 + bit h.bar4Write 27)
  | 0x10C => h.bar4Addr
  | 0x114 => wideOf (bit e.valid 31 + bit e.ovf 30 + e.kind.toNat * 2 ^ 28 + bit e.write 27 + e.off.toNat)
  | 0x200 => wide s.strapsWord
  | 0x204 => wide s.evtModeWord
  | 0x208 => wide s.mgtWord
  | 0x20C => s.mgt.last
  | _ => 0

/-- The power and thermal block (Table 16-7), from BAR0 0x020_0000 on. `blind` is the open value of a blind zone's
temperature. -/
def State.pwrReg (s : State) (o : Nat) (blind : W64) : W64 :=
  if 0x40 ≤ o ∧ o < 0x80 then wide (s.pwr.sched[(o - 0x40) / 4]?.getD 0)
  else if 0x400 ≤ o ∧ o < 0x700 then
    if o % 8 = 0 then wide (s.zoneWord ((o - 0x400) / 8) blind) else wide (s.sensWord ((o - 0x400) / 8))
  else if 0x1000 ≤ o ∧ o < 0x1280 then wideOf (leAt s.forecastBytes (o - 0x1000) 4)
  else match o with
  | 0x000 => wide s.pwrWord
  | 0x004 => wide s.meterWord
  | 0x008 => wideOf (s.fcap / 1000 % 2048)
  | 0x00C => wide s.pwr.host
  | 0x010 => wide s.rackWord
  | 0x014 => wide s.orphanWord
  | 0x018 => wide s.thermalWord
  | 0x01C => wideOf (s.pBase % 65536)
  | 0x020 => wide s.ftWord
  | 0x080 => s.pwr.t0
  | 0x100 => wide s.thmWord
  | 0x104 => wide s.coolantWord
  | _ => 0

/-- Domain indices that the fault block lists (R506). -/
def isDomain (d : Nat) : Bool := decide (d < 3) || (decide (8 ≤ d) && decide (d < 16)) || (decide (16 ≤ d) && decide (d < 40))

/-- The fault block (Table 15-15), from BAR0 0x030_0000 on. -/
def State.fltReg (s : State) (o : Nat) : W64 :=
  if 0x100 ≤ o ∧ o < 0x1A0 ∧ isDomain ((o - 0x100) / 4) = true then wide (s.dom ((o - 0x100) / 4)).word
  else if 0x200 ≤ o ∧ o < 0x2A0 ∧ isDomain ((o - 0x200) / 4) = true then wide (s.dom ((o - 0x200) / 4)).chaff
  else if o = 0x308 then wide s.det.knot.cell
  else if 0x300 ≤ o ∧ o < 0x330 then wide ((s.knotWords)[(o - 0x300) / 4]?.getD 0)
  else if 0x1000 ≤ o ∧ o < 0x9000 then wideOf (leAt (s.logSlot ((o - 0x1000) / 32)) (o % 32) 4)
  else if 0x10000 ≤ o ∧ o < 0x11000 then wideOf (leAt s.glean.summary (o - 0x10000) 4)
  else match o with
  | 0 => wide s.fltWord
  | 4 => wide s.flt.count
  | 8 => wide s.wdogWord
  | _ => 0

/-- Accesses held in the far-wait lists of the package (Table 5-10). -/
def State.farHeld (s : State) : Nat := s.cores.panicles.foldl (fun n e => n + e.2.farWait.length) 0

/-- The stewards' counters and status (Tables 5-10, 13-9, 14-7), from BAR0 0x040_0000 on. -/
def State.stwReg (s : State) (o : Nat) : W64 :=
  match o with
  | 0x1000 => wide s.host.farFills
  | 0x1004 => wide s.host.farEvicts
  | 0x1008 => wide s.host.farLongest
  | 0x100C => wideOf (s.farHeld % 65536)
  | 0x2000 => wide s.bootWord
  | 0x2004 => wide s.flashWord
  | 0x2008 => wide s.boot.push
  | 0x200C => wide s.boot.pushReq
  | 0x2010 => wide s.boot.ms
  | 0x2040 => wide s.bistWord
  | 0x2044 => s.bist.result
  | _ => 0

/-- The bytes of an OTP generation: zeros before it is written, none where its write was interrupted. -/
def genBytes {α : Type} (l : List (Option α)) (g n : Nat) (f : α → List Byte) : Option (List Byte) :=
  match l[g]? with
  | none => some (List.replicate n 0)
  | some none => none
  | some (some x) => some (slice (f x) 0 n)

/-- The OTP shadow (R448, Table 13-5): the unique device secret reads as zero. What an interrupted write has left is
an open value (the argument). -/
def State.otpReg (s : State) (o : Nat) (left : W64) : W64 :=
  let p := s.sec.otp
  let b : Option (List Byte) × Nat :=
    if o < 0x100 then (some (slice (toLE 8 p.serial.toNat ++ List.replicate 64 0 ++ slice p.root 0 64) 0 256), o)
    else if o < 0x500 then (genBytes p.cfg ((o - 0x100) / 0x100) 256 CfgGen.bytesOf, o % 0x100)
    else (genBytes p.rep ((o - 0x500) / 0x6C0) 1728 Config.repBytes, (o - 0x500) % 0x6C0)
  match b.1 with
  | some bs => wideOf (leAt bs b.2 4)
  | none => wideOf (fld left 31 0)

/-- Whether reading a register shows a value that the spec does not state: the temperature of a blind zone, a
received power, what an interrupted OTP write left. -/
def State.regOpen (s : State) (off : Nat) : Bool :=
  (decide (0x200400 ≤ off) && decide (off < 0x200700) && (s.zone ((off - 0x200400) / 8)).blind) ||
  (decide (0x2420000 ≤ off) && decide (off < 0x2420800) && decide (off % 0x40 = 0x20)) ||
  (decide (0x3000000 ≤ off) && decide (off < 0x3002000))

/-- The value of a register by its PF BAR0 offset (R583, Table 19-1); `v` stands in for what is not stated. -/
def State.regVal (s : State) (off : Nat) (v : W64) : W64 :=
  if off < 0x1000 then s.hubReg off
  else if off = 0x100000 then wideOf (s.host.peak.toNat * 2 ^ 16 + s.inflight)
  else if off = 0x100004 then wide s.host.dbIgnored
  else if 0x110000 ≤ off ∧ off < 0x150000 then s.queueReg ((off - 0x110000) / 0x40) (off % 0x40)
  else if 0x200000 ≤ off ∧ off < 0x201280 then s.pwrReg (off - 0x200000) v
  else if 0x300000 ≤ off ∧ off < 0x311000 then s.fltReg (off - 0x300000)
  else if 0x400000 ≤ off ∧ off < 0x402080 then s.stwReg (off - 0x400000)
  else if 0x1000000 ≤ off ∧ off < 0x2000000 then
    let (t, o) := stepOf off 0x1000000 0x200000
    if o < 0x180000 then s.winReg (t * 192 + o / 0x2000) (o % 0x2000) else 0
  else if 0x2000000 ≤ off ∧ off < 0x2180000 then
    let (n, o) := stepOf off 0x2000000 0x10000
    s.grnReg n o
  else if 0x2400000 ≤ off ∧ off < 0x2400900 then
    let (d, o) := stepOf off 0x2400000 0x100
    s.dieReg d o
  else if 0x2410000 ≤ off ∧ off < 0x2411800 then
    let (b, o) := stepOf off 0x2410000 0x100
    s.dirReg b o
  else if 0x2420000 ≤ off ∧ off < 0x2422190 then s.shfReg (off - 0x2420000) v
  else if 0x2430000 ≤ off ∧ off < 0x2430800 then
    let (w, o) := stepOf off 0x2430000 0x40
    wide ((s.straw w).shareAt (o / 4))
  else if 0x2440000 ≤ off ∧ off < 0x2448000 then
    let (t, o) := stepOf off 0x2440000 0x1000
    s.routerReg t o
  else if 0x2450000 ≤ off ∧ off < 0x2458000 then
    let (w, o) := stepOf off 0x2450000 0x400
    s.portReg w o
  else if 0x3000000 ≤ off ∧ off < 0x3002000 then s.otpReg (off - 0x3000000) v
  else if off = 0x3004000 then wide s.lcWord
  else if off = 0x3004004 then wide s.debugWord
  else 0

/-- What a read clears, and the log entries that it marks read (R8, R476). -/
def State.regRead (s : State) (off : Nat) : State :=
  if off = 0x100000 then { s with host := { s.host with peak := 0 } }
  else if off = 0x100004 then { s with host := { s.host with dbIgnored := 0 } }
  else if 0x200400 ≤ off ∧ off < 0x200700 then
    let z := (off - 0x200400) / 8
    if off % 8 = 0 then s.setZone z { s.zone z with tmax := 0 } else s
  else if 0x300200 ≤ off ∧ off < 0x3002A0 then
    let d := (off - 0x300200) / 4
    if isDomain d then s.setDom d { s.dom d with ctxStale := 0, domStale := 0 } else s
  else if 0x301000 ≤ off ∧ off < 0x309000 then s.markRead ((off - 0x301000) / 32)
  else if off = 0x401000 then { s with host := { s.host with farFills := 0 } }
  else if off = 0x401004 then { s with host := { s.host with farEvicts := 0 } }
  else if off = 0x401008 then { s with host := { s.host with farLongest := 0 } }
  else if 0x1000000 ≤ off ∧ off < 0x2000000 then
    let (t, o) := stepOf off 0x1000000 0x200000
    if o < 0x180000 then s.winRead (t * 192 + o / 0x2000) (o % 0x2000) else s
  else if 0x2000000 ≤ off ∧ off < 0x2180000 then
    let (n, o) := stepOf off 0x2000000 0x10000
    s.grnRead n o
  else if 0x2400000 ≤ off ∧ off < 0x2400900 then
    let (d, o) := stepOf off 0x2400000 0x100
    s.dieRead d o
  else if 0x2410000 ≤ off ∧ off < 0x2411800 then
    let (b, o) := stepOf off 0x2410000 0x100
    s.dirRead b o
  else if 0x2420000 ≤ off ∧ off < 0x2422190 then s.shfRead (off - 0x2420000)
  else if 0x2440000 ≤ off ∧ off < 0x2448000 then
    let (t, o) := stepOf off 0x2440000 0x1000
    s.routerRead t o
  else if 0x2450000 ≤ off ∧ off < 0x2458000 then
    let (w, o) := stepOf off 0x2450000 0x400
    s.portRead w o
  else s

end Sys2Proof.Machine
end

