-- ==== Sys2Proof/Machine/RegWrite.lean ====
section
/-! DEFINITION. What writes of registers do (R8, R9, R583 to R590, and the register tables of chapters 2 to 18).
A field that a write does not name in its access code is unchanged; reserved fields ignore writes. -/

namespace Sys2Proof.Machine

/-- A W1C bit: a written 1 clears it (R8). -/
def w1c (old : Bool) (v : W32) (i : Nat) : Bool := old && !v.getLsbD i

/-! ### Panicle windows -/

/-- PNC_FREC_INFO written (R168): a 1 at VALID clears the record, a 1 at OVF clears that bit. -/
def State.frecWrite (s : State) (i : Nat) (v : W32) : State :=
  let s := if v.getLsbD 30 then s.setSpk i { s.spk i with frec := { (s.spk i).frec with ovf := false } } else s
  if v.getLsbD 31 then s.clearRecord i else s

/-- A write in a panicle's window (R82, Table 19-3). -/
def State.winWrite (s : State) (p o : Nat) (v : W32) : State :=
  let a := s.panArb p
  if 0x800 ≤ o ∧ o < 0xC00 then
    let i := p * 64 + (o - 0x800) / 16
    if o % 16 = 8 then s.setSpk i { s.spk i with ueValid := w1c (s.spk i).ueValid v 31 } else s
  else if 0x1000 ≤ o ∧ o < 0x1400 then
    if o % 16 = 0 then s.frecWrite (p * 64 + (o - 0x1000) / 16) v else s
  else match o with
  | 0x100 => s.setPanArb p { a with barbPrio := v.setWidth 6 }
  | 0x104 => s.setPanArb p { a with barbSel := v.setWidth 6 }
  | 0x300 => s.setPanArb p { a with injPrio := v.setWidth 8 }
  | 0x304 => s.setPanArb p { a with stall := w1c a.stall v 31, movPrefetch := v.setWidth 16 }
  | 0x500 =>
    let u := s.leaf p
    s.setLeaf p { u with failValid := w1c u.failValid v 31, failOvf := w1c u.failOvf v 30 }
  | 0x614 =>
    let b := s.panBnd p
    s.setPanBnd p { b with evtValid := w1c b.evtValid v 31, evtOvf := w1c b.evtOvf v 30 }
  | _ => s

/-! ### Granary stacks -/

/-- A write of a stack's registers (Tables 6-7 to 6-16); a scrub period outside 1 to 168 is ignored. -/
def Stack.regWrite (k : Stack) (o : Nat) (v : W32) : Stack :=
  match o with
  | 0x000 => { k with lost := w1c k.lost v 7 }
  | 0x024 => { k with ueValid := w1c k.ueValid v 31, ueOvf := w1c k.ueOvf v 30 }
  | 0x030 =>
    let per := fld v 7 0
    { k with scrubEn := v.getLsbD 31, scrubPer := if 1 ≤ per ∧ per ≤ 168 then v.setWidth 8 else k.scrubPer }
  | 0x050 => { k with errValid := w1c k.errValid v 31, errOvf := w1c k.errOvf v 30 }
  | 0x100 => { k with prio := v.setWidth 12 }
  | 0x104 => { k with sel := v.setWidth 6 }
  | 0x200 => k.pfCtrl v
  | _ => k

/-! ### Fabric -/

/-- RCH_TBL_CMD written (Table 9-19): with GO the command is executed. -/
def State.tblCmd (s : State) (d : Nat) (v : W32) : State :=
  if v.getLsbD 31 then
    match fld v 30 29 with
    | 0 => s.tblWrite d v
    | 1 => s.tblRead d v
    | 2 => s.tblSeal d v
    | _ => s.tblUnseal d v
  else s.keepCmd d v

/-- A write of a die's routing registers (Tables 9-17 to 9-19). -/
def State.dieWrite (s : State) (d o : Nat) (v : W32) : State :=
  let r := s.die d
  match o with
  | 0x00 =>
    (s.setDie d { r with flipRefused := w1c r.flipRefused v 31, tblRefused := w1c r.tblRefused v 30 }).flipEpoch d
      (v.setWidth 1)
  | 0x04 => s.tblCmd d v
  | 0x08 => s.setDie d { r with data := v }
  | _ => s

/-- A write of a bridge direction's registers (Tables 7-11, 7-12). -/
def State.dirWrite (s : State) (b o : Nat) (v : W32) : State :=
  let d := s.dir b
  match o with
  | 0x00 =>
    let s := s.setDir b { d with autoRetrain := v.getLsbD 0 }
    let s := if v.getLsbD 1 then s.force b else s
    let s := if v.getLsbD 2 then s.stewardRetrain b false else s
    if v.getLsbD 3 then s.stewardRetrain b true else s
  | 0x04 => s.setDir b { d with forceRefused := w1c d.forceRefused v 30, interlock := w1c d.interlock v 29 }
  | _ => s

/-- A write of SHF_STRAW_CTRL (Table 8-10). -/
def State.strawCtrl (s : State) (w : Nat) (v : W32) : State :=
  let s := s.setStraw w { s.straw w with auto := v.getLsbD 2 }
  let s := if (s.straw w).en = v.getLsbD 0 then s else s.setStrawEn w (v.getLsbD 0)
  if v.getLsbD 1 then s.retrainStraw w else s

/-- A write of straw, sheaf, ring and scheduler registers (Tables 8-9 to 8-17), from BAR0 0x242_0000 on; a
hold time outside 1 to 60 is ignored. -/
def State.shfWrite (s : State) (o : Nat) (v : W32) : State :=
  if o < 0x800 then
    let w := o / 0x40
    match o % 0x40 with
    | 0x00 => s.strawCtrl w v
    | 0x04 => s.setStraw w { s.straw w with planSkew := w1c (s.straw w).planSkew v 25 }
    | _ => s
  else if 0x1000 ≤ o ∧ o < 0x1400 then
    let n := (o - 0x1000) / 0x20
    let x := s.sheaf n
    match o % 0x20 with
    | 0x00 => s.writeMembers n v
    | 0x08 => s.setSheaf n { x with cfgErr := w1c x.cfgErr v 31, split := w1c x.split v 30 }
    | _ => s
  else if 0x2000 ≤ o ∧ o < 0x200C then s.clearAbsent ((o - 0x2000) / 4) (v.setWidth 4)
  else match o with
  | 0x2010 =>
    let hold := fld v 15 0
    if 1 ≤ hold ∧ hold ≤ 60 then { s with fab := { s.fab with reshape := v.setWidth 16 } } else s
  | 0x2100 => { s with fab := { s.fab with schedSel := v.setWidth 5 } }
  | 0x2104 =>
    let w := s.fab.schedSel.toNat
    s.setStraw w { s.straw w with schedPrio := v.setWidth 16 }
  | _ => s

/-! ### Host link -/

/-- QENG_Q_CFG written (Tables 12-4, 12-13): other fields change only while the queue is DISABLED. -/
def State.cfgWrite (s : State) (q : Nat) (v : W32) : State :=
  let x := s.queue q
  if v.getLsbD 31 then s.enableQueue q v
  else if x.st = .disabled then s.setQueue q { x with cfg := v &&& 0x7FFFF03F }
  else s.drainQueue q

/-- A write of a queue's register set (Tables 12-12 to 12-16); ring addresses are pairs. -/
def State.queueWrite (s : State) (q o : Nat) (v : W32) : State :=
  let x := s.queue q
  match o with
  | 0x10 => s.cfgWrite q v
  | 0x14 => s.setQueue q { x with cfgErr := w1c x.cfgErr v 28 }
  | 0x20 => s.setQueue q { x with irq := v &&& 0xFFFF80FF }
  | 0x24 => if v.getLsbD 31 then s.restartQueue (Fin.ofNat 4096 q) (v.getLsbD 30) else s
  | _ => s

/-! ### Hub -/

/-- A write of the hub identity block (Tables 12-3, 17-8, 17-9, 19-2). -/
def State.hubWrite (s : State) (o : Nat) (v : W32) : State :=
  let m := s.mgt
  match o with
  | 0x108 => { s with host := { s.host with bar4Valid := w1c s.host.bar4Valid v 31, bar4Ovf := w1c s.host.bar4Ovf v 30 } }
  | 0x114 => { s with acc := { s.acc with valid := w1c s.acc.valid v 31, ovf := w1c s.acc.ovf v 30 } }
  | 0x200 => { s with mgt := { m with strapChanged := w1c m.strapChanged v 8 } }
  | 0x204 =>
    let ev := if m.evtMode = 2 then v.setWidth 16 else m.dbgEvent
    { s with mgt := { m with refused := w1c m.refused v 29, dbgEvent := ev } }
  | _ => s

/-- A write of the power and thermal block (Tables 16-8, 16-9, 16-13), from BAR0 0x020_0000 on. -/
def State.pwrWrite (s : State) (o : Nat) (v : W32) : State :=
  if 0x400 ≤ o ∧ o < 0x700 ∧ o % 8 = 4 then
    let z := (o - 0x400) / 8
    s.setZone z { s.zone z with disagree := w1c (s.zone z).disagree v 29 }
  else match o with
  | 0x000 => { s with pwr := { s.pwr with capUnmet := w1c s.pwr.capUnmet v 26 } }
  | 0x020 =>
    let l := fld v 6 0
    if 25 ≤ l ∧ l ≤ 100 then { s with pwr := { s.pwr with ftLevel := v.setWidth 7 } } else s
  | _ => s

/-- A write of the fault block (Tables 15-16, 15-17, 15-20), from BAR0 0x030_0000 on; a limit outside 1 to 1,000
is ignored. -/
def State.fltWrite (s : State) (o : Nat) (v : W32) : State :=
  match o with
  | 0x000 =>
    { s with flt := { s.flt with corr := w1c s.flt.corr v 30 }, det := { s.det with full := w1c s.det.full v 28 } }
  | 0x008 =>
    let l := fld v 9 0
    let lim := if 1 ≤ l ∧ l ≤ 1000 then v.setWidth 10 else s.flt.wdogLimit
    { s with flt := { s.flt with wdogEn := v.getLsbD 31, wdogLimit := lim } }
  | 0x300 =>
    let k := { s.det.knot with ovf := w1c s.det.knot.ovf v 30 }
    let k := if v.getLsbD 31 then { k with valid := false, ctxs := [] } else k
    { s with det := { s.det with knot := k } }
  | _ => s

/-- A write of the stewards' block (Tables 13-10 to 13-12), from BAR0 0x040_0000 on, with the push window (R440). -/
def State.stwWrite (s : State) (o : Nat) (v : W32) : State :=
  let b := s.boot
  if 0x10000 ≤ o ∧ o < 0x20000 then
    { s with boot := { b with window := Tab.setMany 0 b.window (o - 0x10000) (toLE 4 v.toNat) } }
  else match o with
  | 0x2000 => { s with boot := { b with fuseStricter := w1c b.fuseStricter v 6, newDead := w1c b.newDead v 5 } }
  | 0x2004 => { s with boot := { b with flashWear := w1c b.flashWear v 31 } }
  | 0x2008 =>
    if v.getLsbD 31 then s.pushGo v
    else { s with boot := { b with push := (v &&& 0x3FFFFFFF) ||| (b.push &&& 0x40000000) } }
  | _ => s

/-- A write of a register by its PF BAR0 offset (R583, Table 19-1). -/
def State.regSet (s : State) (off : Nat) (v : W32) : State :=
  if off < 0x1000 then s.hubWrite off v
  else if 0x110000 ≤ off ∧ off < 0x150000 then s.queueWrite ((off - 0x110000) / 0x40) (off % 0x40) v
  else if 0x200000 ≤ off ∧ off < 0x201280 then s.pwrWrite (off - 0x200000) v
  else if 0x300000 ≤ off ∧ off < 0x311000 then s.fltWrite (off - 0x300000) v
  else if 0x400000 ≤ off ∧ off < 0x420000 then s.stwWrite (off - 0x400000) v
  else if 0x1000000 ≤ off ∧ off < 0x2000000 then
    let (t, o) := stepOf off 0x1000000 0x200000
    if o < 0x180000 then s.winWrite (t * 192 + o / 0x2000) (o % 0x2000) v else s
  else if 0x2000000 ≤ off ∧ off < 0x2180000 then
    let (n, o) := stepOf off 0x2000000 0x10000
    s.setStack n ((s.stack n).regWrite o v)
  else if 0x2400000 ≤ off ∧ off < 0x2400900 then
    let (d, o) := stepOf off 0x2400000 0x100
    s.dieWrite d o v
  else if 0x2410000 ≤ off ∧ off < 0x2411800 then
    let (b, o) := stepOf off 0x2410000 0x100
    s.dirWrite b o v
  else if 0x2420000 ≤ off ∧ off < 0x2422190 then s.shfWrite (off - 0x2420000) v
  else if 0x2430000 ≤ off ∧ off < 0x2430800 then
    let (w, o) := stepOf off 0x2430000 0x40
    s.writeShare w (o / 4) v
  else if 0x2440000 ≤ off ∧ off < 0x2448000 then
    let (t, o) := stepOf off 0x2440000 0x1000
    if o = 0 then { s with red := { s.red with sel := Tab.set 0 s.red.sel t (v.setWidth 8) } } else s
  else s

/-- A 64-bit value that may be written as a pair (R401, R589, Table 12-12): the BAR4 base and the ring addresses. -/
def pairRw (off : Nat) : Bool :=
  decide (off = 0x100) ||
  (decide (0x110000 ≤ off) && decide (off < 0x150000) && (decide (off % 0x40 = 0) || decide (off % 0x40 = 8)))

/-- Both halves of a writable pair take their value in one cycle (R589); ring addresses only while the queue is
DISABLED. -/
def State.pairSet (s : State) (off : Nat) (v : W64) : State :=
  if off = 0x100 then
    { s with host := { s.host with bar4Lo := v.setWidth 32 &&& 0xC0000000, bar4Hi := (v >>> 32).setWidth 32 &&& 0xFFF } }
  else
    let q := (off - 0x110000) / 0x40
    let x := s.queue q
    if x.st ≠ .disabled then s
    else
      let a := v &&& 0xFFFFFFFFFFFFF000
      s.setQueue q (if off % 0x40 = 0 then { x with base := a } else { x with cqBase := a })

end Sys2Proof.Machine
end

