-- ==== Sys2Proof/Machine/Registers.lean ====
section
/-! DEFINITION. Accesses to registers and through BAR4: access rules, the pair rule, failures (R399 to R402, R476,
R583 to R590). -/

namespace Sys2Proof.Machine

/-! ### The pair rule (R589) -/

/-- Offsets of the _LO half of a counter set's wait count among sets that begin at `base`. -/
def waitLo (off base n : Nat) : Bool := decide (base ≤ off) && decide (off < base + 16 * n) && decide ((off - base) % 16 = 4)

/-- Whether a panicle offset is the _LO half of a pair. -/
def winPair (o : Nat) : Bool :=
  waitLo o 0x110 4 || waitLo o 0x310 4 || decide (o = 0x504) ||
  (decide (0x1000 ≤ o) && decide (o < 0x1400) && decide (o % 16 = 8))

/-- Whether an offset is the _LO half of a pair. -/
def pairLo (off : Nat) : Bool :=
  pairRw off ||
  [0x008, 0x020, 0x10C, 0x20C, 0x200080, 0x300308, 0x402044, 0x2422020].contains off ||
  (decide (0x1000000 ≤ off) && decide (off < 0x2000000) && decide (off % 0x200000 < 0x180000) && winPair (off % 0x2000)) ||
  (decide (0x2000000 ≤ off) && decide (off < 0x2180000) &&
    (decide (off % 0x10000 = 0x28) || waitLo (off % 0x10000) 0x110 7)) ||
  (decide (0x2420000 ≤ off) && decide (off < 0x2420800) && decide (off % 0x40 = 0x14)) ||
  waitLo off 0x2422110 8

/-- Whether an offset is the _HI half of a pair: every _HI follows its _LO. -/
def pairHi (off : Nat) : Bool := decide (4 ≤ off) && pairLo (off - 4)

/-- The latch of a path for a pair. -/
def State.latch (s : State) (p : Path) (off : Nat) : Latch :=
  (s.acc.latches.find? (fun l => decide (l.path = p) && decide (l.off = off))).getD { path := p, off := off }

/-- Write a latch; one at its reset value is not listed. -/
def State.setLatch (s : State) (l : Latch) : State :=
  let rest := s.acc.latches.filter (fun x => !(decide (x.path = l.path) && decide (x.off = l.off)))
  let all := if l = { path := l.path, off := l.off } then rest else l :: rest
  { s with acc := { s.acc with latches := all } }

/-! ### Which register, and whether it answers (R585, R588) -/

/-- Queues that a function owns, in ascending order (R400). -/
def State.ownQueues (s : State) (fn : Nat) : List Nat :=
  (s.queueKeys).filter (fun q => decide (fld (s.queue q).cfg 5 0 = fn))

/-- Where the model numbers the doorbell pages, behind the 64 MiB of BAR0. -/
def bellBase : Nat := 0x4000000

/-- Whether a path leads to doorbell pages. -/
def bellPath (p : Path) : Bool :=
  match p with
  | .bells | .vfBells _ => true
  | _ => false

/-- The PF BAR0 offset that an access of a path names, or a place in the doorbell pages: a VF sees its local queues
only (R399, R400, R585). -/
def State.regAddr (s : State) (p : Path) (off : Nat) : Option Nat :=
  match p with
  | .bells => if off < 0x1000000 then some (bellBase + off) else none
  | .vfBells n =>
    if off < 0x40000 then ((s.ownQueues (n.val + 1))[off / 0x1000]?).map (fun q => bellBase + q * 0x1000 + off % 0x1000)
    else none
  | .vf n =>
    if off < 0x1000 then ((s.ownQueues (n.val + 1))[off / 0x40]?).map (fun q => 0x110000 + q * 0x40 + off % 0x40)
    else none
  | _ => some off

/-- KIND of the failure of a register access, if it cannot be performed (R588): a reset domain in RESET or REENTRY,
a unit that is dead in the floor map. -/
def State.regFail (s : State) (off : Nat) : Option Nat :=
  if 0x100000 ≤ off ∧ off < 0x150000 then (if s.domResetting 2 then some 2 else none)
  else if 0x1000000 ≤ off ∧ off < 0x2000000 then
    let (t, o) := stepOf off 0x1000000 0x200000
    let p := t * 192 + o / 0x2000
    let w := o % 0x2000
    let ofSpk := (decide (0x800 ≤ w) && decide (w < 0xC00)) || (decide (0x1000 ≤ w) && decide (w < 0x1400))
    if 0x180000 ≤ o then none
    else if s.domResetting (8 + t) then some 2
    else if s.floor.panDead p || (ofSpk && s.floor.spkDead (p * 64 + w % 0x400 / 16)) then some 3
    else none
  else if 0x2000000 ≤ off ∧ off < 0x2180000 then
    let n := (off - 0x2000000) / 0x10000
    if s.domResetting (16 + n) then some 2 else if s.floor.channels n = 0xFFFFFFFF then some 3 else none
  else none

/-- A failed access is recorded in HUB_BAR0_ERR: the first stays, a further one sets OVF (R587, R588). -/
def State.bar0Err (s : State) (kind : Nat) (write : Bool) (off : Nat) : State :=
  let e := s.acc
  { s with acc := if e.valid then { e with ovf := true }
    else { e with valid := true, kind := BitVec.ofNat 2 kind, write := write, off := BitVec.ofNat 26 off } }

/-! ### Four-byte accesses -/

/-- A read of a register that answers: its value, with what the read clears and latches (R8, R589); a read over the
debug ring leaves entries of the fault log unread (R476). -/
def State.readAnswer (s : State) (p : Path) (off : Nat) : State × W32 :=
  if pairHi off then (s, (s.latch p (off - 4)).read)
  else
    let (v, s) := if s.regOpen off then s.draw else (0, s)
    let x := s.regVal off v
    let s := if p = .ring ∧ 0x301000 ≤ off ∧ off < 0x309000 then s else s.regRead off
    if pairLo off then (s.setLatch { s.latch p off with read := (x >>> 32).setWidth 32 }, x.setWidth 32)
    else (s, x.setWidth 32)

/-- A read of four bytes at an offset of a path's BAR0 (R585 to R589). -/
def State.read4 (s : State) (p : Path) (off : Nat) : State × W32 :=
  if off % 4 ≠ 0 ∧ bellPath p = false then (s.bar0Err 0 false off, 0xFFFFFFFF)
  else match s.regAddr p off with
  | none => (s, 0)
  | some a => match s.regFail a with
    | some k => (s.bar0Err k false off, 0xFFFFFFFF)
    | none => s.readAnswer p a

/-- The owner field of a queue's configuration is read-only in a VF (Table 12-13). -/
def keepFn (p : Path) (off : Nat) (v : W32) : W32 :=
  match p with
  | .vf n => if 0x110000 ≤ off ∧ off < 0x150000 ∧ off % 0x40 = 0x10 then setFld v 5 0 (n.val + 1) else v
  | _ => v

/-- A write of a register that answers (R8, R589): the _HI half of a writable pair is held, and a write of _LO
updates both halves. -/
def State.writeAnswer (s : State) (p : Path) (off : Nat) (v : W32) : State :=
  if pairRw off then
    let l := s.latch p off
    let hi : W32 := l.held.getD (((s.regVal off 0) >>> 32).setWidth 32)
    (s.setLatch { l with held := none }).pairSet off (hi ++ v)
  else if pairHi off then
    if pairRw (off - 4) then s.setLatch { s.latch p (off - 4) with held := some v } else s
  else if bellBase ≤ off then s.ringBell ((off - bellBase) / 0x1000) ((off - bellBase) % 0x1000) v
  else s.regSet off (keepFn p off v)

/-- A write of four bytes at an offset of a path's BAR0, or of its doorbell pages. -/
def State.write4 (s : State) (p : Path) (off : Nat) (v : W32) : State :=
  if off % 4 ≠ 0 ∧ bellPath p = false then s.bar0Err 0 true off
  else match s.regAddr p off with
  | none => s
  | some a => match s.regFail a with
    | some k => s.bar0Err k true off
    | none => s.writeAnswer p a v

/-- What a read from outside returns. -/
def State.answer (s : State) (bs : List Byte) : State := { s with host := { s.host with readOut := s.host.readOut ++ [bs] } }

/-- A read of four bytes whose value goes to the reader. -/
def State.readOff (s : State) (p : Path) (off : Nat) : State :=
  let (s, v) := s.read4 p off
  s.answer (toLE 4 v.toNat)

/-- REGISTER_WRITE (R8, R583 to R589). -/
def execRegisterWrite (p : Path) (off : BitVec 26) (v : W32) (s : State) : Out := .next (s.write4 p off.toNat v)

/-- REGISTER_READ_CLEAR (R8, R583 to R589): a read of a register, with what it clears. -/
def execRegisterReadClear (p : Path) (off : BitVec 26) (s : State) : Out := .next (s.readOff p off.toNat)

/-- REGISTER_ACCESS_TIMEOUT (R588): a register has not answered within 50 µs. -/
def execRegisterAccessTimeout (off : BitVec 26) (write : Bool) (s : State) : Out :=
  let s := s.bar0Err 1 write off.toNat
  .next (if write then s else s.answer (List.replicate 4 0xFF))

/-- Whether an access of a path names the _LO half of a pair. -/
def State.namesLo (s : State) (p : Path) (off : Nat) : Bool :=
  match s.regAddr p off with
  | some a => pairLo a
  | none => false

/-- PAIR_LO_READ (R589). -/
def execPairLoRead (p : Path) (off : BitVec 26) (s : State) : Out :=
  .next (if s.namesLo p off.toNat then s.readOff p off.toNat else s)

/-- PAIR_HI_WRITE (R589). -/
def execPairHiWrite (p : Path) (off : BitVec 26) (v : W32) (s : State) : Out :=
  .next (if 4 ≤ off.toNat ∧ s.namesLo p (off.toNat - 4) = true then s.write4 p off.toNat v else s)

/-- PAIR_LO_WRITE (R589). -/
def execPairLoWrite (p : Path) (off : BitVec 26) (v : W32) (s : State) : Out :=
  .next (if s.namesLo p off.toNat then s.write4 p off.toNat v else s)

/-- FAULT_LOG_READ (R476): a word of an entry of the ring, which is then read. -/
def execFaultLogRead (p : Path) (entry : Fin 1024) (word : Fin 8) (s : State) : Out :=
  .next (s.readOff p (0x301000 + entry.val * 32 + word.val * 4))

/-! ### BAR4 (R401, R402) -/

/-- The package-local address that a BAR4 offset reaches: bits of the base below BAR4's size are ignored. -/
def State.bar4Addr (s : State) (off : Local) : Nat :=
  let base := (s.host.bar4Hi ++ s.host.bar4Lo).toNat % 2 ^ 44
  (base / 2 ^ s.host.bar4Bits * 2 ^ s.host.bar4Bits + off.toNat) % 2 ^ 44

/-- A failed BAR4 access is recorded in HUB_BAR4_ERR: the first stays, a further one sets OVF (Table 12-3). -/
def State.bar4Err (s : State) (kind : BitVec 2) (write : Bool) (a : Nat) : State :=
  let h := s.host
  { s with host := if h.bar4Valid then { h with bar4Ovf := true }
    else { h with bar4Valid := true, bar4Kind := kind, bar4Write := write, bar4Addr := BitVec.ofNat 64 a } }

/-- A BAR4 access that cannot be performed: a read returns bytes of 0xFF, a write is dropped (R402). -/
def State.bar4Fail (s : State) (kind : BitVec 2) (a n : Nat) (write : Bool) : State :=
  let s := s.bar4Err kind write a
  if write then s else s.answer (List.replicate n 0xFF)

/-- What a package-local address names for an untranslated access: memory, or nothing (R169, R170). -/
def localHome (a : Nat) : Option Home :=
  if a < granaryEnd then some (.grn a)
  else match ctxAddr a with
  | .bank i off => some (.bank i off)
  | .store p off => some (.store p off)
  | _ => none

/-- Whether a home's unit does not answer: it is dead in the floor map, or a prepared bundle holds a line (R21, R386). -/
def State.homeSilent (s : State) (h : Home) (n : Nat) : Bool :=
  (s.holder h n).isSome ||
  (match h with
   | .bank i _ => s.floor.spkDead i
   | .store p _ => s.floor.panDead p
   | .grn pa => decide (s.floor.channels (hashPa pa).1 = 0xFFFFFFFF))

/-- Granary lines that maintenance reads, each by `paLine` (R239, R240); the flag says that one was uncorrectable. -/
def State.maintUe (s : State) (ls : List Nat) : State × Bool :=
  ls.foldl (fun r l => let q := r.1.paLine l 5 0 false; (q.1, r.2 || q.2)) (s, false)

/-- Whether `n` granary bytes at `pa` lie in the spill area of a running floret (R198). -/
def State.spillHolds (s : State) (pa n : Nat) : Bool :=
  s.cores.florets.any (fun e =>
    let ctx := (s.spk (spkOfFloret e.1)).owner.1
    s.runsIn ctx e.1 && [0, 4096].any (fun o =>
      let va := s.spillVa (spkOfFloret e.1) (floretNo e.1) 0 + o
      match s.walk ctx va with
      | .leaf l => !l.pte.getLsbD 59 && (let a := pteAddr l.pte + va % 2 ^ l.size
                                         decide (a < pa + n) && decide (pa < a + 4096))
      | .refuse _ => false))

/-- Lines that an untranslated access must read: all of a read's, those that a write covers in part. -/
def Home.readLines (h : Home) (n : Nat) (write : Bool) : List Nat :=
  match h with
  | .grn pa => if write then partLines pa n else linesOf pa n
  | _ => []

/-- A memory access through BAR4 (R401, R402): no context, generation or slice is checked; of a running floret's spill
area it reads open bytes (R198). -/
def State.bar4Mem (s : State) (a n : Nat) (write : Option (List Byte)) : State :=
  let w := write.isSome
  match localHome a with
  | none => s.bar4Fail 0 a n w
  | some h =>
    if h.room < n then s.bar4Fail 0 a n w
    else if s.homeResetting h then
      let (k, s) := s.draw
      s.bar4Fail (k.setWidth 2) a n w
    else if (match h with
      | .bank i off => s.shadowHit i off n
      | _ => false) then s.bar4Fail 2 a n w
    else if s.homeSilent h n then s
    else match s.maintUe (h.readLines n w) with
    | (s, true) => s.bar4Fail 3 a n w
    | (s, false) => match h, write with
      | .grn pa, some bs => (s.paStore pa bs).wakeCells pa bs.length
      | .grn pa, none =>
        let r := s.seenBytes (s.spillHolds pa n) (s.read pa n)
        r.1.answer r.2
      | _, some bs => match s.homeWrite h bs 0 with
        | (s, true) => s.bar4Fail 3 a n true
        | (s, false) => s
      | _, none => match s.homeRead h n 5 0 with
        | (s, some bs) => s.answer bs
        | (s, none) => s.bar4Fail 3 a n false

/-- A register access through BAR4 and control space (R586, R587): 4 bytes, or 8 bytes as two accesses at
ascending offsets. -/
def State.bar4Reg (s : State) (off n : Nat) (write : Option (List Byte)) : State :=
  if (n = 4 ∨ n = 8) ∧ off % n = 0 then
    match write with
    | some bs =>
      let s := s.write4 .pf off (BitVec.ofNat 32 (leAt bs 0 4))
      if n = 8 then s.write4 .pf (off + 4) (BitVec.ofNat 32 (leAt bs 4 4)) else s
    | none =>
      let (s, v) := s.read4 .pf off
      if n = 4 then s.answer (toLE 4 v.toNat)
      else
        let (s, u) := s.read4 .pf (off + 4)
        s.answer (toLE 4 v.toNat ++ toLE 4 u.toNat)
  else
    let s := s.bar0Err 0 write.isSome off
    if write.isSome then s else s.answer (List.replicate n 0xFF)

/-- BAR4_ACCESS (R401): an access of `size` bytes, or of the bytes that it writes. -/
def execBar4Access (off : Local) (size : Nat) (write : Option (List Byte)) (s : State) : Out :=
  let a := s.bar4Addr off
  let n := match write with
    | some bs => bs.length
    | none => size
  if 0xF0000000000 ≤ a ∧ a < 0xF0004000000 then .next (s.bar4Reg (a - 0xF0000000000) n write)
  else .next (s.bar4Mem a n write)

/-- BAR4_TIMEOUT (R402): an access has not been answered within 50 µs. -/
def execBar4Timeout (off : Local) (size : Nat) (write : Bool) (s : State) : Out :=
  .next (s.bar4Fail 1 (s.bar4Addr off) size write)

end Sys2Proof.Machine
end

