-- ==== Sys2Proof/Machine/Scalar.lean ====
section
/-! DEFINITION. Integer, predicate and branch instructions (R127 to R130, Tables 4-5 and 4-6). -/

namespace Sys2Proof.Machine

/-- `add sd, sa, sb` (R127, Table 4-5). -/
def execAdd (f : FloretId) (g : BitVec 4) (d a b : BitVec 5) (s : State) : Out :=
  .next (s.regOp f g d a b (fun x y => x + y))

/-- `sub sd, sa, sb` (R127, Table 4-5). -/
def execSub (f : FloretId) (g : BitVec 4) (d a b : BitVec 5) (s : State) : Out :=
  .next (s.regOp f g d a b (fun x y => x - y))

/-- `and sd, sa, sb` (R127, Table 4-5). -/
def execAnd (f : FloretId) (g : BitVec 4) (d a b : BitVec 5) (s : State) : Out :=
  .next (s.regOp f g d a b (fun x y => x &&& y))

/-- `or sd, sa, sb` (R127, Table 4-5). -/
def execOr (f : FloretId) (g : BitVec 4) (d a b : BitVec 5) (s : State) : Out :=
  .next (s.regOp f g d a b (fun x y => x ||| y))

/-- `xor sd, sa, sb` (R127, Table 4-5). -/
def execXor (f : FloretId) (g : BitVec 4) (d a b : BitVec 5) (s : State) : Out :=
  .next (s.regOp f g d a b (fun x y => x ^^^ y))

/-- `shl sd, sa, sb` (R127, Table 4-5). -/
def execShl (f : FloretId) (g : BitVec 4) (d a b : BitVec 5) (s : State) : Out :=
  .next (s.regOp f g d a b (fun x y => x <<< (y.toNat % 64)))

/-- `shr sd, sa, sb` (R127, Table 4-5). -/
def execShr (f : FloretId) (g : BitVec 4) (d a b : BitVec 5) (s : State) : Out :=
  .next (s.regOp f g d a b (fun x y => x >>> (y.toNat % 64)))

/-- `sra sd, sa, sb` (R127, Table 4-5). -/
def execSra (f : FloretId) (g : BitVec 4) (d a b : BitVec 5) (s : State) : Out :=
  .next (s.regOp f g d a b (fun x y => x.sshiftRight (y.toNat % 64)))

/-- `min sd, sa, sb` (R127, Table 4-5). -/
def execMin (f : FloretId) (g : BitVec 4) (d a b : BitVec 5) (s : State) : Out :=
  .next (s.regOp f g d a b (fun x y => if ltS y x then y else x))

/-- `max sd, sa, sb` (R127, Table 4-5). -/
def execMax (f : FloretId) (g : BitVec 4) (d a b : BitVec 5) (s : State) : Out :=
  .next (s.regOp f g d a b (fun x y => if ltS x y then y else x))

/-- `minu sd, sa, sb` (R127, Table 4-5). -/
def execMinu (f : FloretId) (g : BitVec 4) (d a b : BitVec 5) (s : State) : Out :=
  .next (s.regOp f g d a b (fun x y => if y < x then y else x))

/-- `maxu sd, sa, sb` (R127, Table 4-5). -/
def execMaxu (f : FloretId) (g : BitVec 4) (d a b : BitVec 5) (s : State) : Out :=
  .next (s.regOp f g d a b (fun x y => if x < y then y else x))

/-- `mul sd, sa, sb` (R127, Table 4-5). -/
def execMul (f : FloretId) (g : BitVec 4) (d a b : BitVec 5) (s : State) : Out :=
  .next (s.regOp f g d a b (fun x y => x * y))

/-- `mulh sd, sa, sb` (R127, Table 4-5). -/
def execMulh (f : FloretId) (g : BitVec 4) (d a b : BitVec 5) (s : State) : Out :=
  .next (s.regOp f g d a b (fun x y => ((x.signExtend 128 * y.signExtend 128) >>> 64).setWidth 64))

/-- `mulhu sd, sa, sb` (R127, Table 4-5). -/
def execMulhu (f : FloretId) (g : BitVec 4) (d a b : BitVec 5) (s : State) : Out :=
  .next (s.regOp f g d a b (fun x y => ((x.setWidth 128 * y.setWidth 128) >>> 64).setWidth 64))

/-- `sext.8 sd, sa`; b must be s0 (R127, R124). -/
def execSext8 (f : FloretId) (g : BitVec 4) (d a b : BitVec 5) (s : State) : Out :=
  .next (s.regOp1 f g d a b (fun x => (x.setWidth 8).signExtend 64))

/-- `sext.16 sd, sa`; b must be s0 (R127, R124). -/
def execSext16 (f : FloretId) (g : BitVec 4) (d a b : BitVec 5) (s : State) : Out :=
  .next (s.regOp1 f g d a b (fun x => (x.setWidth 16).signExtend 64))

/-- `sext.32 sd, sa`; b must be s0 (R127, R124). -/
def execSext32 (f : FloretId) (g : BitVec 4) (d a b : BitVec 5) (s : State) : Out :=
  .next (s.regOp1 f g d a b (fun x => (x.setWidth 32).signExtend 64))

/-- `clz sd, sa`; b must be s0 (R127, R124). -/
def execClz (f : FloretId) (g : BitVec 4) (d a b : BitVec 5) (s : State) : Out :=
  .next (s.regOp1 f g d a b (fun x => BitVec.ofNat 64 (clz x)))

/-- `popc sd, sa`; b must be s0 (R127, R124). -/
def execPopc (f : FloretId) (g : BitVec 4) (d a b : BitVec 5) (s : State) : Out :=
  .next (s.regOp1 f g d a b (fun x => BitVec.ofNat 64 (popc x)))

/-- `add.i sd, sa, imm12`, the immediate sign-extended (R127). -/
def execAddI (f : FloretId) (g : BitVec 4) (d a : BitVec 5) (imm : BitVec 12) (s : State) : Out :=
  .next (s.immOp f g d a false (fun x => x + imm.signExtend 64))

/-- `and.i sd, sa, imm12`, the immediate sign-extended (R127). -/
def execAndI (f : FloretId) (g : BitVec 4) (d a : BitVec 5) (imm : BitVec 12) (s : State) : Out :=
  .next (s.immOp f g d a false (fun x => x &&& imm.signExtend 64))

/-- `or.i sd, sa, imm12`, the immediate sign-extended (R127). -/
def execOrI (f : FloretId) (g : BitVec 4) (d a : BitVec 5) (imm : BitVec 12) (s : State) : Out :=
  .next (s.immOp f g d a false (fun x => x ||| imm.signExtend 64))

/-- `xor.i sd, sa, imm12`, the immediate sign-extended (R127). -/
def execXorI (f : FloretId) (g : BitVec 4) (d a : BitVec 5) (imm : BitVec 12) (s : State) : Out :=
  .next (s.immOp f g d a false (fun x => x ^^^ imm.signExtend 64))

/-- The shift that `sh.i` selects (R127): imm12[11:10] is 00 left, 01 logical right, 10 arithmetic
right; imm12[5:0] is the amount. -/
def shiftI (imm : BitVec 12) (x : W64) : W64 :=
  match fld imm 11 10 with
  | 0 => x <<< fld imm 5 0
  | 1 => x >>> fld imm 5 0
  | _ => x.sshiftRight (fld imm 5 0)

/-- `sh.i sd, sa, imm12`; imm12[11:10] = 11 and a nonzero imm12[9:6] raise ILLEGAL (R124, R127). -/
def execShI (f : FloretId) (g : BitVec 4) (d a : BitVec 5) (imm : BitVec 12) (s : State) : Out :=
  .next (s.immOp f g d a (decide (fld imm 11 10 = 3) || decide (fld imm 9 6 ≠ 0)) (shiftI imm))

/-- The value that `mov.k` writes over the old value `x` (R128). -/
def movKVal (h mode : BitVec 2) (imm : BitVec 16) (x : W64) : W64 :=
  let at_ := 16 * h.toNat
  match mode.toNat with
  | 0 => (imm.setWidth 64) <<< at_
  | 1 => setFld x (at_ + 15) at_ imm.toNat
  | _ => (imm.signExtend 64) <<< at_

/-- `mov.k sd, imm16` (R128); mode 11 and a nonzero bit 16 are reserved (R124). Format W has no guard
(R122). -/
def execMovK (f : FloretId) (h mode : BitVec 2) (d : BitVec 5) (z : BitVec 1) (imm : BitVec 16) (s : State) : Out :=
  .next (s.issue f [d] (decide (mode = 3) || decide (z ≠ 0)) 0 (fun fl =>
    .ok (s.wrReg f d (movKVal h mode imm (fl.rd d)))))

/-- `cmp.eq pd, sa, sb` (R127, Table 4-6). -/
def execCmpEq (f : FloretId) (g : BitVec 4) (d a b : BitVec 5) (s : State) : Out :=
  .next (s.cmpOp f g d a b (fun x y => x == y))

/-- `cmp.ne pd, sa, sb` (R127, Table 4-6). -/
def execCmpNe (f : FloretId) (g : BitVec 4) (d a b : BitVec 5) (s : State) : Out :=
  .next (s.cmpOp f g d a b (fun x y => x != y))

/-- `cmp.lt pd, sa, sb` (R127, Table 4-6). -/
def execCmpLt (f : FloretId) (g : BitVec 4) (d a b : BitVec 5) (s : State) : Out :=
  .next (s.cmpOp f g d a b (fun x y => ltS x y))

/-- `cmp.ge pd, sa, sb` (R127, Table 4-6). -/
def execCmpGe (f : FloretId) (g : BitVec 4) (d a b : BitVec 5) (s : State) : Out :=
  .next (s.cmpOp f g d a b (fun x y => !ltS x y))

/-- `cmp.ltu pd, sa, sb` (R127, Table 4-6). -/
def execCmpLtu (f : FloretId) (g : BitVec 4) (d a b : BitVec 5) (s : State) : Out :=
  .next (s.cmpOp f g d a b (fun x y => decide (x < y)))

/-- `cmp.geu pd, sa, sb` (R127, Table 4-6). -/
def execCmpGeu (f : FloretId) (g : BitVec 4) (d a b : BitVec 5) (s : State) : Out :=
  .next (s.cmpOp f g d a b (fun x y => decide (y ≤ x)))

/-- `pand pd, pa, pb` (R127, Table 4-6). -/
def execPand (f : FloretId) (g : BitVec 4) (d a b : BitVec 5) (s : State) : Out :=
  .next (s.predOp f g d a b (fun x y => x && y))

/-- `por pd, pa, pb` (R127, Table 4-6). -/
def execPor (f : FloretId) (g : BitVec 4) (d a b : BitVec 5) (s : State) : Out :=
  .next (s.predOp f g d a b (fun x y => x || y))

/-- `pxor pd, pa, pb` (R127, Table 4-6). -/
def execPxor (f : FloretId) (g : BitVec 4) (d a b : BitVec 5) (s : State) : Out :=
  .next (s.predOp f g d a b (fun x y => x != y))

/-- `pnot pd, pa`; b must be 0 (R124, Table 4-6). -/
def execPnot (f : FloretId) (g : BitVec 4) (d a b : BitVec 5) (s : State) : Out :=
  .next (s.issue f [] (badPred d || badPred a || decide (b ≠ 0)) g (fun fl =>
    .ok (s.setFloret f.val (fl.setPred d (!fl.pred a)))))

/-- `pget sd, pa` (Table 4-6); b is reserved (R124). -/
def execPget (f : FloretId) (g : BitVec 4) (d a b : BitVec 5) (s : State) : Out :=
  .next (s.issue f [d] (badPred a || decide (b ≠ 0)) g (fun fl =>
    .ok (s.wrReg f d (if fl.pred a then 1 else 0))))

/-- `pset pd, sa` (Table 4-6); b is reserved (R124). -/
def execPset (f : FloretId) (g : BitVec 4) (d a b : BitVec 5) (s : State) : Out :=
  .next (s.issue f [a] (badPred d || decide (b ≠ 0)) g (fun fl =>
    .ok (s.setFloret f.val (fl.setPred d (fl.rd a != 0)))))

/-- `br`: to PC + 4 × off17, writing PC + 4 to s_d first (R129). A target outside the store is met by
its fetch (R121). -/
def execBr (f : FloretId) (g : BitVec 4) (d : BitVec 5) (off : BitVec 17) (s : State) : Out :=
  .next (s.issue f [d] false g (fun fl =>
    .jump (s.wrReg f d ((fl.pc + 4).setWidth 64)) (fl.pc + 4 * off.signExtend 20)))

/-- `jr sd, sa`: to s_a[18:0], writing PC + 4 to s_d (R130); b is reserved. -/
def execJr (f : FloretId) (g : BitVec 4) (d a b : BitVec 5) (s : State) : Out :=
  .next (s.issue f [d, a] (decide (b ≠ 0)) g (fun fl =>
    let t := fl.rd a
    checked [(decide (fld t 1 0 ≠ 0), 0x03, some t), (decide (fld t 63 19 ≠ 0), 0x02, some t)]
      (fun _ => .jump (s.wrReg f d ((fl.pc + 4).setWidth 64)) (t.setWidth 20))))

end Sys2Proof.Machine
end

