-- ==== Sys2Proof/Machine/Dispatch.lean ====
section
/-! DEFINITION. The dispatch of commands to their meanings, one arm per constructor. -/

namespace Sys2Proof.Machine

/-- The effect of a command on everything but the queue of commands that wait. -/
def exec (i : Instr) (s : State) : Host.Outcome State Fault Refusal :=
  match i with
  | .floretStart f pc arg lwBase lwRows lwRes => Sys2Proof.Machine.execFloretStart f pc arg lwBase lwRows lwRes s
  | .floretUnblock f => Sys2Proof.Machine.execFloretUnblock f s
  | .floretWake f => Sys2Proof.Machine.execFloretWake f s
  | .parkExpire f => Sys2Proof.Machine.execParkExpire f s
  | .floretHaltDone f => Sys2Proof.Machine.execFloretHaltDone f s
  | .faultRecordClear k => Sys2Proof.Machine.execFaultRecordClear k s
  | .ibufFill f hits => Sys2Proof.Machine.execIbufFill f hits s
  | .issueBubble k => Sys2Proof.Machine.execIssueBubble k s
  | .add f g d a b => Sys2Proof.Machine.execAdd f g d a b s
  | .sub f g d a b => Sys2Proof.Machine.execSub f g d a b s
  | .and f g d a b => Sys2Proof.Machine.execAnd f g d a b s
  | .or f g d a b => Sys2Proof.Machine.execOr f g d a b s
  | .xor f g d a b => Sys2Proof.Machine.execXor f g d a b s
  | .shl f g d a b => Sys2Proof.Machine.execShl f g d a b s
  | .shr f g d a b => Sys2Proof.Machine.execShr f g d a b s
  | .sra f g d a b => Sys2Proof.Machine.execSra f g d a b s
  | .min f g d a b => Sys2Proof.Machine.execMin f g d a b s
  | .max f g d a b => Sys2Proof.Machine.execMax f g d a b s
  | .minu f g d a b => Sys2Proof.Machine.execMinu f g d a b s
  | .maxu f g d a b => Sys2Proof.Machine.execMaxu f g d a b s
  | .mul f g d a b => Sys2Proof.Machine.execMul f g d a b s
  | .mulh f g d a b => Sys2Proof.Machine.execMulh f g d a b s
  | .mulhu f g d a b => Sys2Proof.Machine.execMulhu f g d a b s
  | .sext8 f g d a b => Sys2Proof.Machine.execSext8 f g d a b s
  | .sext16 f g d a b => Sys2Proof.Machine.execSext16 f g d a b s
  | .sext32 f g d a b => Sys2Proof.Machine.execSext32 f g d a b s
  | .clz f g d a b => Sys2Proof.Machine.execClz f g d a b s
  | .popc f g d a b => Sys2Proof.Machine.execPopc f g d a b s
  | .addI f g d a imm => Sys2Proof.Machine.execAddI f g d a imm s
  | .andI f g d a imm => Sys2Proof.Machine.execAndI f g d a imm s
  | .orI f g d a imm => Sys2Proof.Machine.execOrI f g d a imm s
  | .xorI f g d a imm => Sys2Proof.Machine.execXorI f g d a imm s
  | .shI f g d a imm => Sys2Proof.Machine.execShI f g d a imm s
  | .movK f h mode d z imm => Sys2Proof.Machine.execMovK f h mode d z imm s
  | .cmpEq f g d a b => Sys2Proof.Machine.execCmpEq f g d a b s
  | .cmpNe f g d a b => Sys2Proof.Machine.execCmpNe f g d a b s
  | .cmpLt f g d a b => Sys2Proof.Machine.execCmpLt f g d a b s
  | .cmpGe f g d a b => Sys2Proof.Machine.execCmpGe f g d a b s
  | .cmpLtu f g d a b => Sys2Proof.Machine.execCmpLtu f g d a b s
  | .cmpGeu f g d a b => Sys2Proof.Machine.execCmpGeu f g d a b s
  | .pand f g d a b => Sys2Proof.Machine.execPand f g d a b s
  | .por f g d a b => Sys2Proof.Machine.execPor f g d a b s
  | .pxor f g d a b => Sys2Proof.Machine.execPxor f g d a b s
  | .pnot f g d a b => Sys2Proof.Machine.execPnot f g d a b s
  | .pget f g d a b => Sys2Proof.Machine.execPget f g d a b s
  | .pset f g d a b => Sys2Proof.Machine.execPset f g d a b s
  | .br f g d off => Sys2Proof.Machine.execBr f g d off s
  | .jr f g d a b => Sys2Proof.Machine.execJr f g d a b s
  | .ldU8 f g d a imm => Sys2Proof.Machine.execLdU8 f g d a imm s
  | .ldU16 f g d a imm => Sys2Proof.Machine.execLdU16 f g d a imm s
  | .ldU32 f g d a imm => Sys2Proof.Machine.execLdU32 f g d a imm s
  | .ld64 f g d a imm => Sys2Proof.Machine.execLd64 f g d a imm s
  | .st8 f g d a imm => Sys2Proof.Machine.execSt8 f g d a imm s
  | .st16 f g d a imm => Sys2Proof.Machine.execSt16 f g d a imm s
  | .st32 f g d a imm => Sys2Proof.Machine.execSt32 f g d a imm s
  | .st64 f g d a imm => Sys2Proof.Machine.execSt64 f g d a imm s
  | .ldPs32 f g d a imm => Sys2Proof.Machine.execLdPs32 f g d a imm s
  | .ldPs64 f g d a imm => Sys2Proof.Machine.execLdPs64 f g d a imm s
  | .stPs32 f g d a imm => Sys2Proof.Machine.execStPs32 f g d a imm s
  | .stPs64 f g d a imm => Sys2Proof.Machine.execStPs64 f g d a imm s
  | .bankAccessGrant k hits => Sys2Proof.Machine.execBankAccessGrant k hits s
  | .spillFillDone f => Sys2Proof.Machine.execSpillFillDone f s
  | .ropGet64 f g d a b => Sys2Proof.Machine.execRopGet64 f g d a b s
  | .ropPut64 f g d a b => Sys2Proof.Machine.execRopPut64 f g d a b s
  | .ropAdd64 f g d a b => Sys2Proof.Machine.execRopAdd64 f g d a b s
  | .ropSwap64 f g d a b => Sys2Proof.Machine.execRopSwap64 f g d a b s
  | .ropOr64 f g d a b => Sys2Proof.Machine.execRopOr64 f g d a b s
  | .ropCas64 f g d a b => Sys2Proof.Machine.execRopCas64 f g d a b s
  | .ropWait f g d a b => Sys2Proof.Machine.execRopWait f g d a b s
  | .syncSig f g d a b => Sys2Proof.Machine.execSyncSig f g d a b s
  | .syncSigSend k slot => Sys2Proof.Machine.execSyncSigSend k slot s
  | .syncWait f g d a b => Sys2Proof.Machine.execSyncWait f g d a b s
  | .pbarSet f g d a b => Sys2Proof.Machine.execPbarSet f g d a b s
  | .pbarWait f g d a b => Sys2Proof.Machine.execPbarWait f g d a b s
  | .bndOpen f g d a b => Sys2Proof.Machine.execBndOpen f g d a b s
  | .bndPut f g d a b => Sys2Proof.Machine.execBndPut f g d a b s
  | .bndAdd f g d a b => Sys2Proof.Machine.execBndAdd f g d a b s
  | .bndCommit f g d a b => Sys2Proof.Machine.execBndCommit f g d a b s
  | .bndDrop f g d a b => Sys2Proof.Machine.execBndDrop f g d a b s
  | .latMm f g fmt d a b => Sys2Proof.Machine.execLatMm f g fmt d a b s
  | .latSt f g d a b => Sys2Proof.Machine.execLatSt f g d a b s
  | .latWait f g d a b => Sys2Proof.Machine.execLatWait f g d a b s
  | .latRd f g d a imm => Sys2Proof.Machine.execLatRd f g d a imm s
  | .latClr f g d a imm => Sys2Proof.Machine.execLatClr f g d a imm s
  | .bcPost f g d a b => Sys2Proof.Machine.execBcPost f g d a b s
  | .redPost f g d a b => Sys2Proof.Machine.execRedPost f g d a b s
  | .movPost f g d a b => Sys2Proof.Machine.execMovPost f g d a b s
  | .cvtR f g fmt d a b => Sys2Proof.Machine.execCvtR f g fmt d a b s
  | .cvtUp f g fmt d a b => Sys2Proof.Machine.execCvtUp f g fmt d a b s
  | .cvtB f g fmt d a b => Sys2Proof.Machine.execCvtB f g fmt d a b s
  | .cvtSeed f g d a b => Sys2Proof.Machine.execCvtSeed f g d a b s
  | .sysRd f g d a b => Sys2Proof.Machine.execSysRd f g d a b s
  | .fltPark f g d a b => Sys2Proof.Machine.execFltPark f g d a b s
  | .fltHalt f g d a b => Sys2Proof.Machine.execFltHalt f g d a b s
  | .latOpHead k hits => Sys2Proof.Machine.execLatOpHead k hits s
  | .latRowArrive k st hits => Sys2Proof.Machine.execLatRowArrive k st hits s
  | .broadcastEnqueue p => Sys2Proof.Machine.execBroadcastEnqueue p s
  | .broadcastStart p => Sys2Proof.Machine.execBroadcastStart p s
  | .broadcastBeat p hits => Sys2Proof.Machine.execBroadcastBeat p hits s
  | .latRetire k => Sys2Proof.Machine.execLatRetire k s
  | .bcastTimeout k => Sys2Proof.Machine.execBcastTimeout k s
  | .drainComplete k tile => Sys2Proof.Machine.execDrainComplete k tile s
  | .panicleReductionStart p rid => Sys2Proof.Machine.execPanicleReductionStart p rid s
  | .panicleReductionDone p rid => Sys2Proof.Machine.execPanicleReductionDone p rid s
  | .reduceTimeout p rid => Sys2Proof.Machine.execReduceTimeout p rid s
  | .heldDrainTimeout k rid => Sys2Proof.Machine.execHeldDrainTimeout k rid s
  | .eccWriteback k row => Sys2Proof.Machine.execEccWriteback k row s
  | .psEccWriteback p word => Sys2Proof.Machine.execPsEccWriteback p word s
  | .arbiterDecision a elapsed len => Sys2Proof.Machine.execArbiterDecision a elapsed len s
  | .emergencyPreempt a moved => Sys2Proof.Machine.execEmergencyPreempt a moved s
  | .grantStallWatchdog a => Sys2Proof.Machine.execGrantStallWatchdog a s
  | .bankGrantStall k => Sys2Proof.Machine.execBankGrantStall k s
  | .remoteOpTimeout k slot => Sys2Proof.Machine.execRemoteOpTimeout k slot s
  | .ropReissue k slot expired => Sys2Proof.Machine.execRopReissue k slot expired s
  | .reply pkt => Sys2Proof.Machine.execReply pkt s
  | .getReq pkt => Sys2Proof.Machine.execGetReq pkt s
  | .putReq pkt => Sys2Proof.Machine.execPutReq pkt s
  | .addReq pkt => Sys2Proof.Machine.execAddReq pkt s
  | .swapReq pkt => Sys2Proof.Machine.execSwapReq pkt s
  | .orReq pkt => Sys2Proof.Machine.execOrReq pkt s
  | .casReq pkt => Sys2Proof.Machine.execCasReq pkt s
  | .syncSigReq pkt => Sys2Proof.Machine.execSyncSigReq pkt s
  | .syncWaitReq pkt => Sys2Proof.Machine.execSyncWaitReq pkt s
  | .readReq pkt => Sys2Proof.Machine.execReadReq pkt s
  | .writeReq pkt => Sys2Proof.Machine.execWriteReq pkt s
  | .stewardMsg pkt m => Sys2Proof.Machine.execStewardMsg pkt m s
  | .moverDescriptorAccept p => Sys2Proof.Machine.execMoverDescriptorAccept p s
  | .moverDescriptorStart p id => Sys2Proof.Machine.execMoverDescriptorStart p id s
  | .moverDescriptorComplete p id remote st => Sys2Proof.Machine.execMoverDescriptorComplete p id remote st s
  | .moverDescriptorTimeout p id => Sys2Proof.Machine.execMoverDescriptorTimeout p id s
  | .runAheadWrite k off tag bytes => Sys2Proof.Machine.execRunAheadWrite k off tag bytes s
  | .walkComplete p j ue => Sys2Proof.Machine.execWalkComplete p j ue s
  | .farMissService c va victim => Sys2Proof.Machine.execFarMissService c va victim s
  | .invalidation p c va len => Sys2Proof.Machine.execInvalidation p c va len s
  | .invalidationAck p => Sys2Proof.Machine.execInvalidationAck p s
  | .stepReport t p => Sys2Proof.Machine.execStepReport t p s
  | .stepCommit t => Sys2Proof.Machine.execStepCommit t s
  | .stepCancel t => Sys2Proof.Machine.execStepCancel t s
  | .stepBudget q seq => Sys2Proof.Machine.execStepBudget q seq s
  | .granaryRequest n r => Sys2Proof.Machine.execGranaryRequest n r s
  | .granaryReadReturn n id ecc => Sys2Proof.Machine.execGranaryReadReturn n id ecc s
  | .granaryRequestTimeout n id performed => Sys2Proof.Machine.execGranaryRequestTimeout n id performed s
  | .refreshPending n pc => Sys2Proof.Machine.execRefreshPending n pc s
  | .stackTempRead n temp => Sys2Proof.Machine.execStackTempRead n temp s
  | .patrolScrub n ecc => Sys2Proof.Machine.execPatrolScrub n ecc s
  | .rowRepair n la => Sys2Proof.Machine.execRowRepair n la s
  | .prefetchPrime t req => Sys2Proof.Machine.execPrefetchPrime t req s
  | .prefetchFill n line ue => Sys2Proof.Machine.execPrefetchFill n line ue s
  | .grnPfCtrl n v => Sys2Proof.Machine.execGrnPfCtrl n v s
  | .meshFlitReceive p port rx => Sys2Proof.Machine.execMeshFlitReceive p port rx s
  | .packetRoute d at_ pkt => Sys2Proof.Machine.execPacketRoute d at_ pkt s
  | .packetAgeDrop d pkt => Sys2Proof.Machine.execPacketAgeDrop d pkt s
  | .injStall p => Sys2Proof.Machine.execInjStall p s
  | .bridgeFlitReceive bridge dir dataA sideA dataB sideB => Sys2Proof.Machine.execBridgeFlitReceive bridge dir dataA sideA dataB sideB s
  | .switchOverComplete b => Sys2Proof.Machine.execSwitchOverComplete b s
  | .planeSwitched b => Sys2Proof.Machine.execPlaneSwitched b s
  | .bridgeAck b seq => Sys2Proof.Machine.execBridgeAck b seq s
  | .bridgeNak b seq => Sys2Proof.Machine.execBridgeNak b seq s
  | .interlockViolation b driverA driverB => Sys2Proof.Machine.execInterlockViolation b driverA driverB s
  | .planeAutoRetrain b pl => Sys2Proof.Machine.execPlaneAutoRetrain b pl s
  | .planeRetrainDone b pl failing => Sys2Proof.Machine.execPlaneRetrainDone b pl failing s
  | .planeRetrainFail b pl => Sys2Proof.Machine.execPlaneRetrainFail b pl s
  | .nbrForce b => Sys2Proof.Machine.execNbrForce b s
  | .nbrRetrainA b => Sys2Proof.Machine.execNbrRetrainA b s
  | .nbrRetrainB b => Sys2Proof.Machine.execNbrRetrainB b s
  | .laneSpared b pl lane => Sys2Proof.Machine.execLaneSpared b pl lane s
  | .laneReturnStart b pl spare => Sys2Proof.Machine.execLaneReturnStart b pl spare s
  | .laneReturned b pl spare => Sys2Proof.Machine.execLaneReturned b pl spare s
  | .strawFrameReceive k fec data seq sseq vc typ resv crc => Sys2Proof.Machine.execStrawFrameReceive k fec data seq sseq vc typ resv crc s
  | .strawNak k seq => Sys2Proof.Machine.execStrawNak k seq s
  | .strawLossOfLight k locked => Sys2Proof.Machine.execStrawLossOfLight k locked s
  | .sheafTransmit t n w pkt => Sys2Proof.Machine.execSheafTransmit t n w pkt s
  | .shfStall k => Sys2Proof.Machine.execShfStall k s
  | .strawTrained k => Sys2Proof.Machine.execStrawTrained k s
  | .strawTrainingTimeout k locked => Sys2Proof.Machine.execStrawTrainingTimeout k locked s
  | .rollCallSend k => Sys2Proof.Machine.execRollCallSend k s
  | .rollCall k data => Sys2Proof.Machine.execRollCall k data s
  | .rollCallTimeout k => Sys2Proof.Machine.execRollCallTimeout k s
  | .strawAutoRetry k => Sys2Proof.Machine.execStrawAutoRetry k s
  | .strawEn k en => Sys2Proof.Machine.execStrawEn k en s
  | .strawRetrain k => Sys2Proof.Machine.execStrawRetrain k s
  | .sheafMembersWrite n v => Sys2Proof.Machine.execSheafMembersWrite n v s
  | .sheafDegraded n => Sys2Proof.Machine.execSheafDegraded n s
  | .shareWrite k j v => Sys2Proof.Machine.execShareWrite k j v s
  | .coordAbsent axis coord => Sys2Proof.Machine.execCoordAbsent axis coord s
  | .ringAbsentClear axis mask => Sys2Proof.Machine.execRingAbsentClear axis mask s
  | .tblWrite d cmd => Sys2Proof.Machine.execTblWrite d cmd s
  | .tblRead d cmd => Sys2Proof.Machine.execTblRead d cmd s
  | .tblSeal d cmd => Sys2Proof.Machine.execTblSeal d cmd s
  | .tblUnseal d cmd => Sys2Proof.Machine.execTblUnseal d cmd s
  | .epochFlip d inj => Sys2Proof.Machine.execEpochFlip d inj s
  | .bankDrainExpire bank => Sys2Proof.Machine.execBankDrainExpire bank s
  | .transportReceive ep room pkt => Sys2Proof.Machine.execTransportReceive ep room pkt s
  | .ackTimer ep peer => Sys2Proof.Machine.execAckTimer ep peer s
  | .ack ep pkt => Sys2Proof.Machine.execAck ep pkt s
  | .nak ep pkt => Sys2Proof.Machine.execNak ep pkt s
  | .resyncPacket ep pkt => Sys2Proof.Machine.execResyncPacket ep pkt s
  | .retryTimer ep peer => Sys2Proof.Machine.execRetryTimer ep peer s
  | .reductionPostAccept p => Sys2Proof.Machine.execReductionPostAccept p s
  | .redUp n pkt => Sys2Proof.Machine.execRedUp n pkt s
  | .redDown r pkt => Sys2Proof.Machine.execRedDown r pkt s
  | .redAbort r pkt => Sys2Proof.Machine.execRedAbort r pkt s
  | .gatherTimeout n k => Sys2Proof.Machine.execGatherTimeout n k s
  | .awaitDownTimeout n k => Sys2Proof.Machine.execAwaitDownTimeout n k s
  | .resultTimeout p k => Sys2Proof.Machine.execResultTimeout p k s
  | .prepareStaging k pkt => Sys2Proof.Machine.execPrepareStaging k pkt s
  | .prepare h pkt => Sys2Proof.Machine.execPrepare h pkt s
  | .lock n pkt => Sys2Proof.Machine.execLock n pkt s
  | .linesLocked h id ue => Sys2Proof.Machine.execLinesLocked h id ue s
  | .lockingTimeout h id => Sys2Proof.Machine.execLockingTimeout h id s
  | .vote p pkt => Sys2Proof.Machine.execVote p pkt s
  | .commit h pkt => Sys2Proof.Machine.execCommit h pkt s
  | .applied p pkt => Sys2Proof.Machine.execApplied p pkt s
  | .abort h pkt => Sys2Proof.Machine.execAbort h pkt s
  | .release h pkt => Sys2Proof.Machine.execRelease h pkt s
  | .releaseAck p pkt => Sys2Proof.Machine.execReleaseAck p pkt s
  | .wound p pkt => Sys2Proof.Machine.execWound p pkt s
  | .bndQuery p pkt => Sys2Proof.Machine.execBndQuery p pkt s
  | .bndDecision h pkt => Sys2Proof.Machine.execBndDecision h pkt s
  | .prepareDeadline p id => Sys2Proof.Machine.execPrepareDeadline p id s
  | .commitLate p id => Sys2Proof.Machine.execCommitLate p id s
  | .commitResend p id => Sys2Proof.Machine.execCommitResend p id s
  | .decisionLogExpire p id => Sys2Proof.Machine.execDecisionLogExpire p id s
  | .preparedQueryTimer h id => Sys2Proof.Machine.execPreparedQueryTimer h id s
  | .bndOrphan h id => Sys2Proof.Machine.execBndOrphan h id s
  | .committedExpire h id => Sys2Proof.Machine.execCommittedExpire h id s
  | .sqTail q v => Sys2Proof.Machine.execSqTail q v s
  | .cqHead q v => Sys2Proof.Machine.execCqHead q v s
  | .commandFetch q => Sys2Proof.Machine.execCommandFetch q s
  | .stewardTurn w q seq => Sys2Proof.Machine.execStewardTurn w q seq s
  | .stewardTurnEnd w => Sys2Proof.Machine.execStewardTurnEnd w s
  | .queueIrq q timer => Sys2Proof.Machine.execQueueIrq q timer s
  | .hostDmaError q seq ring => Sys2Proof.Machine.execHostDmaError q seq ring s
  | .queueEnable q cfg => Sys2Proof.Machine.execQueueEnable q cfg s
  | .queueDisable q => Sys2Proof.Machine.execQueueDisable q s
  | .queueRestart q skip => Sys2Proof.Machine.execQueueRestart q skip s
  | .launchGraph q seq g status => Sys2Proof.Machine.execLaunchGraph q seq g status s
  | .copy q seq remote st => Sys2Proof.Machine.execCopy q seq remote st s
  | .fill q seq st => Sys2Proof.Machine.execFill q seq st s
  | .fence q seq => Sys2Proof.Machine.execFence q seq s
  | .signal q seq => Sys2Proof.Machine.execSignal q seq s
  | .wait q seq => Sys2Proof.Machine.execWait q seq s
  | .waitTimeout q seq => Sys2Proof.Machine.execWaitTimeout q seq s
  | .map q seq pages tabs far => Sys2Proof.Machine.execMap q seq pages tabs far s
  | .unmap q seq => Sys2Proof.Machine.execUnmap q seq s
  | .ctxCreate q seq l1 => Sys2Proof.Machine.execCtxCreate q seq l1 s
  | .ctxDestroy q seq => Sys2Proof.Machine.execCtxDestroy q seq s
  | .ctxDrainDone c l1 => Sys2Proof.Machine.execCtxDrainDone c l1 s
  | .ctxScrub c => Sys2Proof.Machine.execCtxScrub c s
  | .sliceSetup q seq => Sys2Proof.Machine.execSliceSetup q seq s
  | .reduceTreeSetup q seq recs => Sys2Proof.Machine.execReduceTreeSetup q seq recs s
  | .loadFw q seq => Sys2Proof.Machine.execLoadFw q seq s
  | .bist q seq => Sys2Proof.Machine.execBist q seq s
  | .bistComplete finds analog => Sys2Proof.Machine.execBistComplete finds analog s
  | .bistAbandon z => Sys2Proof.Machine.execBistAbandon z s
  | .powerSchedule q seq => Sys2Proof.Machine.execPowerSchedule q seq s
  | .query q seq => Sys2Proof.Machine.execQuery q seq s
  | .dump q seq => Sys2Proof.Machine.execDump q seq s
  | .resetDomain q seq => Sys2Proof.Machine.execResetDomain q seq s
  | .flr fn => Sys2Proof.Machine.execFlr fn s
  | .hostReset => Sys2Proof.Machine.execHostReset s
  | .bar4Access off size write => Sys2Proof.Machine.execBar4Access off size write s
  | .bar4Timeout off size write => Sys2Proof.Machine.execBar4Timeout off size write s
  | .registerWrite path off v => Sys2Proof.Machine.execRegisterWrite path off v s
  | .registerReadClear path off => Sys2Proof.Machine.execRegisterReadClear path off s
  | .registerAccessTimeout off write => Sys2Proof.Machine.execRegisterAccessTimeout off write s
  | .pairLoRead path off => Sys2Proof.Machine.execPairLoRead path off s
  | .pairHiWrite path off v => Sys2Proof.Machine.execPairHiWrite path off v s
  | .pairLoWrite path off v => Sys2Proof.Machine.execPairLoWrite path off v s
  | .faultLogRead path entry word => Sys2Proof.Machine.execFaultLogRead path entry word s
  | .fltCorrClear => Sys2Proof.Machine.execFltCorrClear s
  | .knotInfoClear => Sys2Proof.Machine.execKnotInfoClear s
  | .pkgResetRelease => Sys2Proof.Machine.execPkgResetRelease s
  | .pkgResetAssert => Sys2Proof.Machine.execPkgResetAssert s
  | .pwrOkFall => Sys2Proof.Machine.execPwrOkFall s
  | .strapSample => Sys2Proof.Machine.execStrapSample s
  | .strapChange pin level => Sys2Proof.Machine.execStrapChange pin level s
  | .bootPhaseComplete ph finds => Sys2Proof.Machine.execBootPhaseComplete ph finds s
  | .tillerWave t wave finds => Sys2Proof.Machine.execTillerWave t wave finds s
  | .hbmGroupTrained g => Sys2Proof.Machine.execHbmGroupTrained g s
  | .hbmTrainingTimeout n => Sys2Proof.Machine.execHbmTrainingTimeout n s
  | .fwBlock u block => Sys2Proof.Machine.execFwBlock u block s
  | .fwRepairRound bad => Sys2Proof.Machine.execFwRepairRound bad s
  | .pushGo v => Sys2Proof.Machine.execPushGo v s
  | .pushTimeout => Sys2Proof.Machine.execPushTimeout s
  | .bootReq k peer => Sys2Proof.Machine.execBootReq k peer s
  | .bootData k block bytes => Sys2Proof.Machine.execBootData k block bytes s
  | .bootDataTimeout => Sys2Proof.Machine.execBootDataTimeout s
  | .fabricBootRetry => Sys2Proof.Machine.execFabricBootRetry s
  | .floretWatchdog f => Sys2Proof.Machine.execFloretWatchdog f s
  | .housekeepingHeartbeatMiss t => Sys2Proof.Machine.execHousekeepingHeartbeatMiss t s
  | .cancelTimeout t => Sys2Proof.Machine.execCancelTimeout t s
  | .phyError n pc timeouts => Sys2Proof.Machine.execPhyError n pc timeouts s
  | .vcStuck d vc => Sys2Proof.Machine.execVcStuck d vc s
  | .routeTableUe d => Sys2Proof.Machine.execRouteTableUe d s
  | .hubSramUe => Sys2Proof.Machine.execHubSramUe s
  | .gleanEnd dom => Sys2Proof.Machine.execGleanEnd dom s
  | .domainResetRelease dom => Sys2Proof.Machine.execDomainResetRelease dom s
  | .domainReentryComplete dom contentLost finds => Sys2Proof.Machine.execDomainReentryComplete dom contentLost finds s
  | .reentryFail dom => Sys2Proof.Machine.execReentryFail dom s
  | .recoveryFailed => Sys2Proof.Machine.execRecoveryFailed s
  | .stwWatchdog w => Sys2Proof.Machine.execStwWatchdog w s
  | .edgePost e => Sys2Proof.Machine.execEdgePost e s
  | .edgeRemove e => Sys2Proof.Machine.execEdgeRemove e s
  | .edgeRepost e => Sys2Proof.Machine.execEdgeRepost e s
  | .knot e => Sys2Proof.Machine.execKnot e s
  | .gleanRead item unit whole data => Sys2Proof.Machine.execGleanRead item unit whole data s
  | .gleanUnresponsive item unit => Sys2Proof.Machine.execGleanUnresponsive item unit s
  | .unitShadow unit bytes => Sys2Proof.Machine.execUnitShadow unit bytes s
  | .dumpComplete failed => Sys2Proof.Machine.execDumpComplete failed s
  | .powerSample watts => Sys2Proof.Machine.execPowerSample watts s
  | .fcapUpdate => Sys2Proof.Machine.execFcapUpdate s
  | .fcapRaise => Sys2Proof.Machine.execFcapRaise s
  | .pBaseUpdate watts => Sys2Proof.Machine.execPBaseUpdate watts s
  | .capEntryBoundary => Sys2Proof.Machine.execCapEntryBoundary s
  | .traySilence => Sys2Proof.Machine.execTraySilence s
  | .forecastRebuild minutes => Sys2Proof.Machine.execForecastRebuild minutes s
  | .thermalForecastRefit watts => Sys2Proof.Machine.execThermalForecastRefit watts s
  | .sensorSample z a b => Sys2Proof.Machine.execSensorSample z a b s
  | .sensorDisagree z => Sys2Proof.Machine.execSensorDisagree z s
  | .fthermStep z => Sys2Proof.Machine.execFthermStep z s
  | .coolantReport inst inlet outlet flow => Sys2Proof.Machine.execCoolantReport inst inlet outlet flow s
  | .coolantStale => Sys2Proof.Machine.execCoolantStale s
  | .coolantLossEnd => Sys2Proof.Machine.execCoolantLossEnd s
  | .coolingDegradedEnd => Sys2Proof.Machine.execCoolingDegradedEnd s
  | .pkgEvtAssert => Sys2Proof.Machine.execPkgEvtAssert s
  | .fastThrottleRelease => Sys2Proof.Machine.execFastThrottleRelease s
  | .heartbeatRearm => Sys2Proof.Machine.execHeartbeatRearm s
  | .heartbeatStop => Sys2Proof.Machine.execHeartbeatStop s
  | .i3cEntdaa addr => Sys2Proof.Machine.execI3cEntdaa addr s
  | .i3cSetdasa static addr => Sys2Proof.Machine.execI3cSetdasa static addr s
  | .i3cRstdaa => Sys2Proof.Machine.execI3cRstdaa s
  | .setEndpointId eid => Sys2Proof.Machine.execSetEndpointId eid s
  | .getEndpointId => Sys2Proof.Machine.execGetEndpointId s
  | .getEndpointUuid => Sys2Proof.Machine.execGetEndpointUuid s
  | .getMctpVersionSupport typ => Sys2Proof.Machine.execGetMctpVersionSupport typ s
  | .getMessageTypeSupport => Sys2Proof.Machine.execGetMessageTypeSupport s
  | .getStatus inst => Sys2Proof.Machine.execGetStatus inst s
  | .setCapSchedule inst bytes => Sys2Proof.Machine.execSetCapSchedule inst bytes s
  | .powerOff inst => Sys2Proof.Machine.execPowerOff inst s
  | .loadRackPlan inst bytes => Sys2Proof.Machine.execLoadRackPlan inst bytes s
  | .readForecast inst => Sys2Proof.Machine.execReadForecast inst s
  | .readFaultLog inst first count => Sys2Proof.Machine.execReadFaultLog inst first count s
  | .clearCorr inst => Sys2Proof.Machine.execClearCorr inst s
  | .setEvtMode inst mode level => Sys2Proof.Machine.execSetEvtMode inst mode level s
  | .recoveryImage inst offset last bytes => Sys2Proof.Machine.execRecoveryImage inst offset last bytes s
  | .resync inst => Sys2Proof.Machine.execResync inst s
  | .grantWrap inst slice axes revoke => Sys2Proof.Machine.execGrantWrap inst slice axes revoke s
  | .eventNotice => Sys2Proof.Machine.execEventNotice s
  | .multipartAbandon => Sys2Proof.Machine.execMultipartAbandon s
  | .pldmSensorRead sensor => Sys2Proof.Machine.execPldmSensorRead sensor s
  | .requestUpdate image => Sys2Proof.Machine.execRequestUpdate image s
  | .getVersion port => Sys2Proof.Machine.execGetVersion port s
  | .getCapabilities port => Sys2Proof.Machine.execGetCapabilities port s
  | .negotiateAlgorithms port offer => Sys2Proof.Machine.execNegotiateAlgorithms port offer s
  | .getDigests port => Sys2Proof.Machine.execGetDigests port s
  | .getCertificate port slot offset length => Sys2Proof.Machine.execGetCertificate port slot offset length s
  | .challenge port slot nonce => Sys2Proof.Machine.execChallenge port slot nonce s
  | .getMeasurements port index signed nonce => Sys2Proof.Machine.execGetMeasurements port index signed nonce s
  | .getNonce port => Sys2Proof.Machine.execGetNonce port s
  | .lcTransition port tok => Sys2Proof.Machine.execLcTransition port tok s
  | .debugUnlock port tok => Sys2Proof.Machine.execDebugUnlock port tok s
  | .debugRelock port => Sys2Proof.Machine.execDebugRelock port s
  | .debugLifetimeExpire => Sys2Proof.Machine.execDebugLifetimeExpire s
  | .nonceExpire => Sys2Proof.Machine.execNonceExpire s
  | .jtagInstruction ir => Sys2Proof.Machine.execJtagInstruction ir s
  | .bridgePrbsError b pl lane got => Sys2Proof.Machine.execBridgePrbsError b pl lane got s
  | .woundReply h pkt => Sys2Proof.Machine.execWoundReply h pkt s
  | .hostLinkLoss => Sys2Proof.Machine.execHostLinkLoss s
  | .stewardRestartDone w => Sys2Proof.Machine.execStewardRestartDone w s
  | .pkgEvtDeassert => Sys2Proof.Machine.execPkgEvtDeassert s
  | .otpGenerationWritten => Sys2Proof.Machine.execOtpGenerationWritten s
  | .unmappedFrameReturn c frame => Sys2Proof.Machine.execUnmappedFrameReturn c frame s
  | .peerEntryEvict ep peer => Sys2Proof.Machine.execPeerEntryEvict ep peer s

end Sys2Proof.Machine
end

