-- ==== Sys2Proof/Safety.lean ====
section
/-! DEFINITION. The terms that the statements use: a safe step, the canonical form of memory, when an instruction
issues and what stays as it was. -/

namespace Sys2Proof.Machine

/-- Memory is in its one canonical form: addresses strictly rise and no entry equals what an unlisted address reads
as; the same for the error marks and for host memory. -/
def Mem.wf (m : Mem) : Bool := Tab.wf 0 m.bytes && Tab.wf none m.ecc && Tab.wf none m.line && Tab.wf 0 m.host

/-- A step is safe when it leads to a next state: no fault and no refusal. -/
def Runs (s : State) : Prop := ∃ t, step s = .next t

/-! ### Floret instructions -/

/-- It is floret `f`'s turn to fetch (R33, R35, R38). -/
def Fetches (s : State) (f : FloretId) : Prop :=
  (s.floret f.val).status = .runnable ∧ (s.floret f.val).pc.toNat < 0x80000 ∧
  (s.spk (spkOfFloret f.val)).ibuf.contains (lineOf (s.floret f.val).pc) = true ∧ s.turn f.val = true

/-- Floret `f` can fetch its instruction, whose codes are none of the reserved ones, and no register that it names has a
pending write (R33, R35, R37, R38, R124). -/
def Fetched (s : State) (f : FloretId) (regs : List (BitVec 5)) : Prop :=
  Fetches s f ∧ s.badWord f = false ∧ ∀ r ∈ regs, (s.floret f.val).pend.getLsbD r.toNat = false

/-- Floret `f` can issue an instruction with guard `g`: it can fetch it and the guard is true (R122). -/
def Ready (s : State) (f : FloretId) (g : BitVec 4) (regs : List (BitVec 5)) : Prop :=
  Fetched s f regs ∧ (s.floret f.val).guard g = true

/-- Among the compute units nothing but floret `f` and its spikelet has changed. -/
def CoresBut (s t : State) (f : FloretId) : Prop :=
  (∀ p, t.pan p = s.pan p) ∧ (∀ q, t.seqr q = s.seqr q) ∧ (∀ y, y ≠ f.val → t.floret y = s.floret y) ∧
  ∀ i, i ≠ spkOfFloret f.val → t.spk i = s.spk i

/-- Outside the compute units nothing has changed, and among them nothing but floret `f`, its spikelet and its
panicle. -/
def UnitsBut (s t : State) (f : FloretId) : Prop :=
  { t with cores := s.cores } = s ∧ (∀ p, p ≠ panOfSpk (spkOfFloret f.val) → t.pan p = s.pan p) ∧
  (∀ q, t.seqr q = s.seqr q) ∧ (∀ y, y ≠ f.val → t.floret y = s.floret y) ∧
  ∀ i, i ≠ spkOfFloret f.val → t.spk i = s.spk i

/-- From `s` to `t` nothing has changed but floret `f` and which floret of its spikelet issued last: every register of
every other floret, every spikelet, panicle and unit, and every byte of memory are as before. -/
def OnlyFloret (s t : State) (f : FloretId) : Prop :=
  { t with cores := s.cores } = s ∧ CoresBut s t f ∧
  t.spk (spkOfFloret f.val) = { s.spk (spkOfFloret f.val) with lastIssue := floretNo f.val }

/-- The instruction has issued: floret `f` is now `fl`, and nothing else has changed. -/
def Retires (s t : State) (f : FloretId) (fl : Floret) : Prop := t.floret f.val = fl ∧ OnlyFloret s t f

/-! ### Homes of requests -/

/-- The bytes that software sees at a home. -/
def State.homeBytes (s : State) (h : Home) (n : Nat) : List Byte :=
  match h with
  | .bank i off => s.bankRead i off n
  | .store p off => s.storeRead p off n
  | .grn pa => s.read pa n

/-- A home inside the package's memory: a byte of a bank, a store or the granary. -/
def Home.inside : Home → Prop
  | .bank i off => i < 98304 ∧ off < 65536
  | .store p off => p < 1536 ∧ off < 524288
  | .grn pa => pa < granaryEnd

/-- No error stands in the rows, words or lines that `n` bytes at a home touch (R42, R239, R611). -/
def State.homeClean (s : State) (h : Home) (n : Nat) : Prop :=
  match h with
  | .bank i off => ∀ r ∈ rowsOf off n, ∀ w < 8, s.eccAt ((bankBase i + r * 128) / 16 + w) = none
  | .store p off => ∀ w ∈ wordsOf off n, s.eccAt (storeBase p / 16 + w) = none
  | .grn pa => ∀ l ∈ linesOf pa n, Tab.get none s.mem.line l = none

/-- From `s` to `t` the `bs.length` bytes at a home have become `bs`, and no other byte of memory has changed. -/
def HomeWritten (s t : State) (h : Home) (bs : List Byte) : Prop :=
  t.homeBytes h bs.length = bs ∧
  ∀ k : Home, k.inside → (k.addr < h.addr ∨ h.addr + bs.length ≤ k.addr) → t.homeBytes k 1 = s.homeBytes k 1

/-- Where a request leads (Table 9-2, Table 5-2), other than a virtual address at a proxy: its home, and the bytes from
there on that the address may cover. -/
def Leads (pkt : Packet) (h : Home) (room : Nat) : Prop :=
  let a := pkt.addr.toNat
  (ecFn pkt.dst = 0x10 ∧ h = .bank (ecSpkIx pkt.dst) (a % 65536) ∧ room = 65536) ∨
  (ecFn pkt.dst = 0x40 ∧ h = .store (ecPanIx pkt.dst) (a % 524288) ∧ room = 524288) ∨
  (ecFn pkt.dst ∈ [0x50, 0x51, 0x52] ∧ h = .grn a ∧ room = granaryEnd - a) ∨
  (ecFn pkt.dst = 0x41 ∧ ∃ i off, ctxAddr a = .bank i off ∧ h = .bank i off ∧ room = 65536) ∨
  (ecFn pkt.dst = 0x41 ∧ ∃ p off, ctxAddr a = .store p off ∧ h = .store p off ∧ room = 524288)

end Sys2Proof.Machine
end

