-- ==== Sys2Proof/Certificates/Slice0/Obligations.lean ====
section
/-! DEFINITION. The statements for the provers. Each says what a family of commands does on every state: where it
completes, the values it leaves, what it leaves alone. -/

section

open Sys2Proof Sys2Proof.Machine

/-- A step takes the command at the front of the queue and runs it with the queue's rest; with no command waiting the
reference counter alone moves on (the model's choice, assumption 4). -/
def Obligations.StepRunsFrontCommand : Prop :=
  (∀ (c : Instr) (q : List Instr) (s : State), s.pending = c :: q → step s = exec c { s with pending := q }) ∧
  (∀ s : State, s.pending = [] → step s = .next { s with refcnt := s.refcnt + 1 })

/-- The machine after reset: no command waits, phase ROM with PKG_RST_N asserted, the reference counter at 0, every
bank, store and stack empty and in canonical form, no context, no queue enabled, every straw OFF, every reset domain in
RUN with generation 0, and the registers at the reset values that their tables give (Tables 8-16, 15-17, 16-9). Where
the spec leaves something open, its clauses follow the model's choices in log entries 113 and 146. -/
def Obligations.ResetState : Prop :=
  let s := State.reset
  s.pending = [] ∧ s.refcnt = 0 ∧ s.boot.inReset = true ∧ s.boot.phase = 1 ∧ s.mem.wf = true ∧ s.mem.bytes = [] ∧ s.host.ctxs = [] ∧
  (∀ q, (s.queue q).st = .disabled ∧ (s.queue q).cfg = 0 ∧ (s.queue q).head = 0 ∧ (s.queue q).tail = 0) ∧
  (∀ w, (s.straw w).state = .off) ∧ (∀ d, (s.dom d).st = .run ∧ (s.dom d).gen = 0) ∧
  s.flt.wdogEn = true ∧ s.flt.wdogLimit = 10 ∧ s.flt.count = 0 ∧ s.pwr.ftLevel = 50 ∧ s.fab.reshape = 5 ∧
  (∀ c, (s.ctx c).st = .free) ∧ (∀ x, (s.floret x).status = .idle)

/-- Every step keeps memory in its one canonical form: addresses strictly rise and no entry equals what an unlisted
address reads as. Where the spec leaves something open, its clauses follow the model's choices in log entry 113. -/
def Obligations.MemoryStaysCanonical : Prop :=
  ∀ s t : State, s.mem.wf = true → step s = .next t → t.mem.wf = true

/-- Every step keeps the OTP within its four configuration generations and its four repair generations, one that is
being written counted with them (R448, R449). -/
def Obligations.OtpGenerationsFit : Prop :=
  let fits := fun (o : Otp) =>
    o.cfg.length + (match o.writing with
      | some (.cfg _) => 1
      | _ => 0) ≤ 4 ∧
    o.rep.length + (match o.writing with
      | some (.rep _) => 1
      | _ => 0) ≤ 4
  ∀ s t : State, fits s.sec.otp → step s = .next t → fits t.sec.otp

/-- Decoding and encoding of floret instructions agree (R121, R125, Tables 4-1 to 4-6): the word of an instruction
decodes to it with every operand, and the instruction that a word stands for has that word and that floret. Words of the
spec's encoding examples, and reserved codes that spell nothing (R121, R124, R125). -/
def Obligations.DecodeEncode : Prop :=
  (
  (∀ (c : Instr) (f : FloretId) (w : W32), floretOf c = some f → encodeFloret c = some w → decodeFloretWord f w = some c) ∧
  (∀ (c : Instr) (f : FloretId) (w : W32), decodeFloretWord f w = some c → floretOf c = some f ∧ encodeFloret c = some w) ∧
  ∀ c : Instr, (floretOf c).isSome = (encodeFloret c).isSome) ∧
  (
  ∀ f : FloretId,
    decodeFloretWord f 0xA0003203 = some (.latMm f 0 3 0 3 4) ∧
    decodeFloretWord f 0xB2407400 = some (.bcPost f 9 0 7 8) ∧
    decodeFloretWord f 0x140C2407 = some (.shI f 0 6 2 0x407) ∧
    decodeFloretWord f 0x0000000F = none ∧ decodeFloretWord f 0xFC000000 = none)

/-- A register of a floret after a write: s0 reads as zero and ignores writes (R31). Instructions with two source
registers (Table 4-5): the result goes to s_d, the PC moves on by 4, and nothing else changes; under a false guard only
the PC moves. Instructions with one source register (Table 4-5), whose b field is reserved: a nonzero one raises
ILLEGAL. Instructions with an immediate (R127): sign-extended for the first four; `sh.i` shifts by its low 6 bits as
[11:10] says, and a reserved form of its immediate raises ILLEGAL. -/
def Obligations.IntegerInstructions : Prop :=
  (
  ∀ (fl : Floret) (d r : BitVec 5) (v : W64),
    (fl.wr d v).rd 0 = 0 ∧ fl.wr 0 v = fl ∧ (d ≠ 0 → (fl.wr d v).rd d = v) ∧ (r ≠ d → (fl.wr d v).rd r = fl.rd r)) ∧
  (
  ∀ (f : FloretId) (g : BitVec 4) (d a b : BitVec 5) (s : State),
    let fl := s.floret f.val
    let x := fl.rd a
    let y := fl.rd b
    ∀ p ∈ [(Instr.add f g d a b, x + y), (.sub f g d a b, x - y), (.and f g d a b, x &&& y), (.or f g d a b, x ||| y),
        (.xor f g d a b, x ^^^ y), (.shl f g d a b, x <<< (y.toNat % 64)), (.shr f g d a b, x >>> (y.toNat % 64)),
        (.sra f g d a b, x.sshiftRight (y.toNat % 64)), (.min f g d a b, if x.toInt ≤ y.toInt then x else y),
        (.max f g d a b, if x.toInt ≤ y.toInt then y else x), (.minu f g d a b, if x.toNat ≤ y.toNat then x else y),
        (.maxu f g d a b, if x.toNat ≤ y.toNat then y else x), (.mul f g d a b, BitVec.ofNat 64 (x.toNat * y.toNat)),
        (.mulh f g d a b, BitVec.ofInt 64 (x.toInt * y.toInt / 2 ^ 64)),
        (.mulhu f g d a b, BitVec.ofNat 64 (x.toNat * y.toNat / 2 ^ 64))],
      (Ready s f g [d, a, b] →
        ∃ t, exec p.1 s = .next t ∧ Retires s t f { fl.wr d p.2 with pc := fl.pc + 4 }) ∧
      (Fetched s f [d, a, b] → fl.guard g = false →
        ∃ t, exec p.1 s = .next t ∧ Retires s t f { fl with pc := fl.pc + 4 })) ∧
  (
  ∀ (f : FloretId) (g : BitVec 4) (d a b : BitVec 5) (s : State),
    let fl := s.floret f.val
    let x := fl.rd a
    ∀ p ∈ [(Instr.sext8 f g d a b, (x.extractLsb' 0 8).signExtend 64), (.sext16 f g d a b, (x.extractLsb' 0 16).signExtend 64),
        (.sext32 f g d a b, (x.extractLsb' 0 32).signExtend 64), (.clz f g d a b, BitVec.ofNat 64 (clz x)),
        (.popc f g d a b, BitVec.ofNat 64 (((List.range 64).filter (fun i => x.getLsbD i)).length))],
      (b = 0 → Ready s f g [d, a] →
        ∃ t, exec p.1 s = .next t ∧ Retires s t f { fl.wr d p.2 with pc := fl.pc + 4 }) ∧
      (b ≠ 0 → Fetched s f [d, a] → exec p.1 s = .next (s.syncFault f.val 0x01 fl.pc none))) ∧
  (
  ∀ (f : FloretId) (g : BitVec 4) (d a : BitVec 5) (imm : BitVec 12) (s : State),
    let fl := s.floret f.val
    let x := fl.rd a
    let k := imm.toNat % 64
    let retires := fun (c : Instr) (v : W64) => ∃ t, exec c s = .next t ∧ Retires s t f { fl.wr d v with pc := fl.pc + 4 }
    (Ready s f g [d, a] →
      retires (.addI f g d a imm) (x + imm.signExtend 64) ∧ retires (.andI f g d a imm) (x &&& imm.signExtend 64) ∧
      retires (.orI f g d a imm) (x ||| imm.signExtend 64) ∧ retires (.xorI f g d a imm) (x ^^^ imm.signExtend 64) ∧
      (imm.toNat / 64 = 0 → retires (.shI f g d a imm) (x <<< k)) ∧
      (imm.toNat / 64 = 0x10 → retires (.shI f g d a imm) (x >>> k)) ∧
      (imm.toNat / 64 = 0x20 → retires (.shI f g d a imm) (x.sshiftRight k))) ∧
    (Fetched s f [d, a] → imm.toNat / 64 ≠ 0 → imm.toNat / 64 ≠ 0x10 → imm.toNat / 64 ≠ 0x20 →
      exec (.shI f g d a imm) s = .next (s.syncFault f.val 0x01 fl.pc none)))

/-- `mov.k` (R128): mode 0 writes the immediate at halfword h of zero, mode 1 replaces halfword h of s_d, mode 2 writes
the sign-extended immediate shifted to halfword h; mode 3 and a nonzero bit 16 raise ILLEGAL. -/
def Obligations.MovKResults : Prop :=
  ∀ (f : FloretId) (h mode : BitVec 2) (d : BitVec 5) (z : BitVec 1) (imm : BitVec 16) (s : State),
    let fl := s.floret f.val
    let at_ := 16 * h.toNat
    let old := (fl.rd d).toNat
    let retires := fun (v : W64) => ∃ t, exec (.movK f h mode d z imm) s = .next t ∧
      Retires s t f { fl.wr d v with pc := fl.pc + 4 }
    (Ready s f 0 [d] → z = 0 →
      (mode = 0 → retires (BitVec.ofNat 64 (imm.toNat * 2 ^ at_))) ∧
      (mode = 1 → retires (BitVec.ofNat 64 (old / 2 ^ (at_ + 16) * 2 ^ (at_ + 16) + imm.toNat * 2 ^ at_ + old % 2 ^ at_))) ∧
      (mode = 2 → retires (BitVec.ofInt 64 (imm.toInt * 2 ^ at_)))) ∧
    (Fetched s f [d] → mode = 3 ∨ z ≠ 0 → exec (.movK f h mode d z imm) s = .next (s.syncFault f.val 0x01 fl.pc none))

/-- Compares and predicate operations (Table 4-6): the predicate or register named takes the value, the PC moves on, and
nothing else changes; a predicate field above 7 raises ILLEGAL. -/
def Obligations.PredicateResults : Prop :=
  ∀ (f : FloretId) (g : BitVec 4) (d a b : BitVec 5) (s : State),
    let fl := s.floret f.val
    let x := fl.rd a
    let y := fl.rd b
    let sets := fun (c : Instr) (v : Bool) => ∃ t, exec c s = .next t ∧
      Retires s t f { fl with preds := putBit fl.preds d.toNat v, pc := fl.pc + 4 }
    (Ready s f g [a, b] → d.toNat < 8 →
      sets (.cmpEq f g d a b) (decide (x = y)) ∧ sets (.cmpNe f g d a b) (decide (x ≠ y)) ∧
      sets (.cmpLt f g d a b) (decide (x.toInt < y.toInt)) ∧ sets (.cmpGe f g d a b) (decide (y.toInt ≤ x.toInt)) ∧
      sets (.cmpLtu f g d a b) (decide (x.toNat < y.toNat)) ∧ sets (.cmpGeu f g d a b) (decide (y.toNat ≤ x.toNat))) ∧
    (Ready s f g [] → d.toNat < 8 → a.toNat < 8 → b.toNat < 8 →
      let p := fl.preds.getLsbD a.toNat
      let q := fl.preds.getLsbD b.toNat
      sets (.pand f g d a b) (p && q) ∧ sets (.por f g d a b) (p || q) ∧ sets (.pxor f g d a b) (p != q) ∧
      (b = 0 → sets (.pnot f g d a b) (!p))) ∧
    (Ready s f g [d] → a.toNat < 8 → b = 0 →
      ∃ t, exec (.pget f g d a b) s = .next t ∧
        Retires s t f { fl.wr d (if fl.preds.getLsbD a.toNat then 1 else 0) with pc := fl.pc + 4 }) ∧
    (Ready s f g [a] → d.toNat < 8 → b = 0 → sets (.pset f g d a b) (decide (x ≠ 0))) ∧
    (Fetched s f [a, b] → 8 ≤ d.toNat →
      ∀ c ∈ [Instr.cmpEq f g d a b, .cmpNe f g d a b, .cmpLt f g d a b, .cmpGe f g d a b, .cmpLtu f g d a b,
          .cmpGeu f g d a b, .pand f g d a b, .por f g d a b, .pxor f g d a b, .pnot f g d a b, .pset f g d a b],
        exec c s = .next (s.syncFault f.val 0x01 fl.pc none))

/-- `br` goes to PC + 4 × off17 and `jr` to s_a, each writing PC + 4 to s_d (R129, R130); a target of `jr` that is not a
multiple of 4 raises the fault with the lower code of R166, else one past the store raises FETCH. -/
def Obligations.BranchTargets : Prop :=
  ∀ (f : FloretId) (g : BitVec 4) (d a b : BitVec 5) (off : BitVec 17) (s : State),
    let fl := s.floret f.val
    let link := fl.wr d ((fl.pc + 4).setWidth 64)
    let x := fl.rd a
    (Ready s f g [d] →
      ∃ t, exec (.br f g d off) s = .next t ∧ Retires s t f { link with pc := BitVec.ofInt 20 (fl.pc.toNat + 4 * off.toInt) }) ∧
    (Fetched s f [d, a] → fl.guard g = false → ∀ c ∈ [Instr.br f g d off, .jr f g d a 0],
      ∃ t, exec c s = .next t ∧ Retires s t f { fl with pc := fl.pc + 4 }) ∧
    (Ready s f g [d, a] → b = 0 →
      (x.toNat < 2 ^ 19 → x.toNat % 4 = 0 →
        ∃ t, exec (.jr f g d a b) s = .next t ∧ Retires s t f { link with pc := BitVec.ofNat 20 x.toNat }) ∧
      (2 ^ 19 ≤ x.toNat → exec (.jr f g d a b) s = .next (s.syncFault f.val 0x02 fl.pc (some x))) ∧
      (x.toNat < 2 ^ 19 → x.toNat % 4 ≠ 0 → exec (.jr f g d a b) s = .next (s.syncFault f.val 0x03 fl.pc (some x))))

/-- Every floret instruction is held by the rules of issue (R33, R35, R38, R48, R121, R124): a floret that is not
RUNNABLE does nothing, but for `sys.rd` and `flt.park` while it waits for its bank; a PC past the store raises FETCH
with the PC as detail, and a line that is not in the instruction buffer blocks it; a floret whose turn it is not does
nothing, and a word with a reserved code raises ILLEGAL. The life of a floret outside its instructions (R33, R35, R38,
R120, R168): the start of an IDLE floret, the end of a block, of a wait, of a park and of a halt, the clearing of its
fault record and the bubble of a spikelet. A floret that starts ends the detector's holds on its step (R489). Where the
spec leaves something open, its clauses follow the model's choices in log entries 147 and 150. -/
def Obligations.FloretsIssueAndEnd : Prop :=
  (
  ∀ (c : Instr) (f : FloretId) (s : State), floretOf c = some f →
    let fl := s.floret f.val
    let line := fl.pc.toNat / 64
    (fl.status ≠ .runnable → fl.status ≠ .blocked .bank → exec c s = .next s) ∧
    (fl.status = .blocked .bank → (∀ g d a b, c ≠ .sysRd f g d a b) → (∀ g d a b, c ≠ .fltPark f g d a b) →
      exec c s = .next s) ∧
    (fl.status = .runnable → 0x80000 ≤ fl.pc.toNat →
      exec c s = .next (s.syncFault f.val 0x02 fl.pc (some (BitVec.ofNat 64 fl.pc.toNat)))) ∧
    (fl.status = .runnable → fl.pc.toNat < 0x80000 → line ∉ (s.spk (f.val / 16)).ibuf →
      exec c s = .next (s.setFloret f.val { fl with status := .blocked (.ibuf line) })) ∧
    (fl.status = .runnable → fl.pc.toNat < 0x80000 → line ∈ (s.spk (f.val / 16)).ibuf → s.turn f.val = false →
      exec c s = .next s) ∧
    (Fetches s f → s.badWord f = true → exec c s = .next (s.syncFault f.val 0x01 fl.pc none))) ∧
  (
  (∀ (f : FloretId) (pc : BitVec 19) (arg : W64) (lb : BitVec 9) (lr le : BitVec 7) (s : State),
    lb.toNat + lr.toNat ≤ 512 →
      ((s.floret f.val).status = .idle →
        ∃ t, exec (.floretStart f pc arg lb lr le) s = .next t ∧ { t with cores := s.cores, det := s.det } = s ∧ CoresBut s t f ∧
          { t.det with holds := s.det.holds } = s.det ∧
          (∀ h, h ∈ t.det.holds ↔ h ∈ s.det.holds ∧ ∀ x ∈ s.det.edges, x.1 ∈ h.cycle →
            x.2.src ≠ s.stepVertex (spkOfFloret f.val)) ∧
          t.spk (spkOfFloret f.val) = s.spk (spkOfFloret f.val) ∧
          (t.floret f.val).status = .runnable ∧ (t.floret f.val).pc.toNat = pc.toNat / 4 * 4 ∧
          (∀ r, (t.floret f.val).rd r = if r = 1 then arg else if r = 2 then (s.floretEc f.val).setWidth 64 else 0) ∧
          (t.floret f.val).preds = 0 ∧ (t.floret f.val).pend = 0 ∧ (t.floret f.val).lwBase = lb ∧
          (t.floret f.val).lwRows = lr ∧ (t.floret f.val).lwRes = le) ∧
      ((s.floret f.val).status ≠ .idle → exec (.floretStart f pc arg lb lr le) s = .next s)) ∧
  (∀ (f : FloretId) (s : State),
    let fl := s.floret f.val
    let i := spkOfFloret f.val
    let sp := s.spk i
    let runs := fun (c : Instr) => exec c s = .next (s.setFloret f.val { fl with status := .runnable })
    (∀ w, fl.status = .blocked w →
      (match w with
        | .ibuf line => line ∈ sp.ibuf
        | .slot => sp.mayTake (floretNo f.val) = true
        | .latQueue => sp.latQ.length < 4
        | .bank => (∀ r ∈ sp.bankQ, r.floret ≠ floretNo f.val) ∧ ∀ e ∈ sp.drains, e.floret = floretNo f.val → ∀ o, e.dst ≠ .bank o
        | .spill => False) → runs (.floretUnblock f)) ∧
    (∀ n cell, fl.status = .waiting (.sync n cell) → sp.slot n = none →
      exec (.floretWake f) s = .next ((s.setFloret f.val { fl with status := .runnable }).dropEdge (s.stepEdge i cell))) ∧
    (∀ n, fl.status = .waiting (.rops n) → sp.outstanding (floretNo f.val) ≤ n → runs (.floretWake f)) ∧
    (fl.status = .parked → exec (.parkExpire f) s = .next (s.setFloret f.val { fl with status := .runnable, park := 0 })) ∧
    (fl.status = .halting → sp.outstanding (floretNo f.val) = 0 →
      (∀ e ∈ sp.spill, e.floret = floretNo f.val → e.dirty = false) →
      ∃ t, exec (.floretHaltDone f) s = .next t ∧ { t with cores := s.cores } = s ∧ CoresBut s t f ∧
        t.floret f.val = { fl with status := .idle } ∧
        t.spk i = { sp with spill := sp.spill.filter (fun e => e.floret ≠ floretNo f.val) })) ∧
  (∀ (i : SpkId) (s : State),
    (∃ t, exec (.faultRecordClear i) s = .next t ∧ (t.spk i.val).frec = {} ∧
      (∀ k : Fin 16, (t.floret (i.val * 16 + k.val)).status =
        if (s.floret (i.val * 16 + k.val)).status = .faulted then .idle else (s.floret (i.val * 16 + k.val)).status) ∧
      ∀ y, y / 16 ≠ i.val → t.floret y = s.floret y) ∧
    exec (.issueBubble i) s = .next (if ∃ k : Fin 16, s.eligible (i.val * 16 + k.val) = true then s
      else s.setSpk i.val { s.spk i.val with bubbles := (s.spk i.val).bubbles + 1 })))

/-- A bank load or store within the bank, aligned and outside the spilled rows, joins the florets' class of the bank and
the PC moves on (R131, R45); a load leaves its register pending (R37). A misaligned address raises ALIGN and one past
the bank BANK_RANGE (R165, R166), each with the address as detail. The florets' class holds the grant of the bank (R45):
the request at the head leaves the queue and is served. A load of clean rows puts the bytes, zero-extended, into its
register and ends its pending write; a store of clean rows writes its bytes and no other byte of any bank; a row of the
landing set raises SHADOW with the request's own PC (R52, R165). Where the spec leaves something open, its clauses
follow the model's choices in log entry 147. -/
def Obligations.BankAccesses : Prop :=
  (
  ∀ (f : FloretId) (g : BitVec 4) (d a : BitVec 5) (imm : BitVec 12) (s : State),
    let fl := s.floret f.val
    let i := spkOfFloret f.val
    let sp := s.spk i
    let ea := fl.rd a + imm.signExtend 64
    let request := fun (op : BankOp) =>
      { sp with lastIssue := floretNo f.val, order := sp.order + 1,
                bankQ := sp.bankQ ++ [{ floret := floretNo f.val, pc := fl.pc, off := ea.toNat, op := op, order := sp.order }] }
    ∀ p ∈ [(Instr.ldU8 f g d a imm, 1, true), (.ldU16 f g d a imm, 2, true), (.ldU32 f g d a imm, 4, true),
        (.ld64 f g d a imm, 8, true), (.st8 f g d a imm, 1, false), (.st16 f g d a imm, 2, false),
        (.st32 f g d a imm, 4, false), (.st64 f g d a imm, 8, false)],
      Ready s f g [d, a] →
        (ea.toNat < 65536 → ea.toNat % p.2.1 = 0 → fl.spilled ea.toNat = none →
          ∃ t, exec p.1 s = .next t ∧ { t with cores := s.cores } = s ∧ CoresBut s t f ∧
            t.spk i = request (if p.2.2 then .load d p.2.1 else .store (fl.rd d) p.2.1) ∧
            t.floret f.val = { (if p.2.2 then fl.mark d else fl) with pc := fl.pc + 4 }) ∧
        (ea.toNat % p.2.1 ≠ 0 → exec p.1 s = .next (s.syncFault f.val 0x03 fl.pc (some ea))) ∧
        (ea.toNat % p.2.1 = 0 → 65536 ≤ ea.toNat → exec p.1 s = .next (s.syncFault f.val 0x04 fl.pc (some ea)))) ∧
  (
  ∀ (i : SpkId) (r : BankReq) (rest : List BankReq) (s : State),
    let sp := s.spk i.val
    let x := i.val * 16 + r.floret.val
    let s1 := (s.setArb (.bank i) { s.arb (.bank i) with holder := none }).setSpk i.val { sp with bankQ := rest }
    let s0 := if (s.floret x).status = .blocked .bank then s1.setStatus x .runnable else s1
    let clean := fun (n : Nat) => s.shadowHit i.val r.off n = false ∧
      ∀ row ∈ rowsOf r.off n, ∀ w < 8, s.eccAt ((bankBase i.val + row * 128) / 16 + w) = none
    sp.bankQ = r :: rest → sp.drainFirst r = false → (∃ h, (s.arb (.bank i)).holder = some h ∧ h.who = 2) →
      (∀ d n, r.op = .load d n → d ≠ 0 → clean n →
        ∃ t, exec (.bankAccessGrant i []) s = .next t ∧ { t with cores := s.cores, grn := s.grn } = s ∧
          (t.arb (.bank i)).holder = none ∧ (t.floret x).rd d = BitVec.ofNat 64 (ofLE (s.bankRead i.val r.off n)) ∧
          (t.floret x).pend = putBit (s.floret x).pend d.toNat false ∧
          (∀ e, e ≠ d → (t.floret x).rd e = (s.floret x).rd e) ∧ (t.spk i.val).bankQ = rest) ∧
      (∀ v n, r.op = .store v n → 0 < n → r.off + n ≤ 65536 → clean n →
        ∃ t, exec (.bankAccessGrant i []) s = .next t ∧ (t.spk i.val).bankQ = rest ∧
          (∀ k < n, t.bankByte i.val (r.off + k) = BitVec.ofNat 8 (v.toNat / 256 ^ k)) ∧
          ∀ (j : SpkId) (o : Nat), o < 65536 → (j ≠ i ∨ o < r.off ∨ r.off + n ≤ o) → t.bankByte j.val o = s.bankByte j.val o) ∧
      (∀ n, (∃ d, r.op = .load d n) ∨ (∃ v, r.op = .store v n) → s.shadowHit i.val r.off n = true →
        exec (.bankAccessGrant i []) s =
          .next ((s0.dropRest i.val r).raise i.val r.floret .sync 0x08 r.pc (BitVec.ofNat 64 r.off))))

/-- A load or store of the panicle's own store (R132): aligned and within the store, with no line held by a bundle and
no error in the words it touches, it completes at issue; the load's value is zero-extended, the store writes its bytes
and no other byte of memory. A misaligned address raises ALIGN and one past the store STORE_RANGE. The fills that a
floret waits for. A missing line of instructions whose words are clean enters the buffer, at most 32 lines, and the
floret may issue again (R38); an uncorrectable word raises STORE_UE (R611). A missed spill row is read from the
context's spill area through the page tables and the access completes; a load then holds the row's bytes (R194, R195),
where no stack resets and no bundle holds the row (R197). Where the spec leaves something open, its clauses follow the
model's choices in log entries 37, 52 and 150. -/
def Obligations.PanicleStoreAndFills : Prop :=
  (
  ∀ (f : FloretId) (g : BitVec 4) (d a : BitVec 5) (imm : BitVec 12) (s : State),
    let fl := s.floret f.val
    let p := panOfSpk (spkOfFloret f.val)
    let ea := fl.rd a + imm.signExtend 64
    let at_ := storeBase p + ea.toNat
    let clean := fun (n : Nat) => s.storeHeld p ea.toNat n = false ∧
      ∀ w ∈ wordsOf ea.toNat n, s.eccAt (storeBase p / 16 + w) = none
    Ready s f g [d, a] →
      (∀ q ∈ [(Instr.ldPs32 f g d a imm, 4), (.ldPs64 f g d a imm, 8)],
        ea.toNat < 524288 → ea.toNat % q.2 = 0 → clean q.2 →
          ∃ t, exec q.1 s = .next t ∧ Retires s t f
            { fl.wr d (BitVec.ofNat 64 (ofLE (s.read at_ q.2))) with pc := fl.pc + 4 }) ∧
      (∀ q ∈ [(Instr.stPs32 f g d a imm, 4), (.stPs64 f g d a imm, 8)],
        ea.toNat < 524288 → ea.toNat % q.2 = 0 → clean q.2 →
          ∃ t, exec q.1 s = .next t ∧ t.floret f.val = { fl with pc := fl.pc + 4 } ∧
            (∀ k < q.2, Tab.get 0 t.mem.bytes (at_ + k) = BitVec.ofNat 8 ((fl.rd d).toNat / 256 ^ k)) ∧
            (∀ b, b < at_ ∨ at_ + q.2 ≤ b → Tab.get 0 t.mem.bytes b = Tab.get 0 s.mem.bytes b) ∧
            ((∀ w ∈ s.mem.waits, w.addr + 8 ≤ at_ ∨ at_ + q.2 ≤ w.addr) →
              { t with cores := s.cores, mem := s.mem } = s ∧ CoresBut s t f)) ∧
      (∀ q ∈ [(Instr.ldPs32 f g d a imm, 4), (.ldPs64 f g d a imm, 8), (.stPs32 f g d a imm, 4), (.stPs64 f g d a imm, 8)],
        (ea.toNat % q.2 ≠ 0 → exec q.1 s = .next (s.syncFault f.val 0x03 fl.pc (some ea))) ∧
        (ea.toNat % q.2 = 0 → 524288 ≤ ea.toNat → exec q.1 s = .next (s.syncFault f.val 0x05 fl.pc (some ea))))) ∧
  (
  (∀ (f : FloretId) (line : Nat) (s : State),
    let i := spkOfFloret f.val
    let p := panOfSpk i
    (s.floret f.val).status = .blocked (.ibuf line) → s.storeHeld p (line * 64) 64 = false →
      ((∀ w ∈ wordsOf (line * 64) 64, s.eccAt (storeBase p / 16 + w) = none) →
        ∃ t, exec (.ibufFill f []) s = .next t ∧ { t with cores := s.cores } = s ∧ CoresBut s t f ∧
          t.floret f.val = { s.floret f.val with status := .runnable } ∧
          t.spk i = { s.spk i with ibuf := (line :: (s.spk i).ibuf.filter (· ≠ line)).take 32 }) ∧
      ((∃ w ∈ wordsOf (line * 64) 64, s.eccAt (storeBase p / 16 + w) = some true) →
        ∃ t, exec (.ibufFill f []) s = .next t ∧ (t.floret f.val).status = .faulted ∧
          ((s.spk i).frec.valid = false → (t.spk i).frec.code = 0x07 ∧
            (t.spk i).frec.detail = (s.floret f.val).pc.setWidth 64))) ∧
  (∀ (f : FloretId) (m : SpillMiss) (e : TlbEntry) (rest : List TlbEntry) (s : State),
    let i := spkOfFloret f.val
    let o := (s.spk i).owner
    let va := s.spillVa i (floretNo f.val) m.row
    let fl := s.floret f.val
    let pa := pteAddr e.pte + va % 2 ^ e.size
    let pn := s.pan (panOfSpk i)
    fl.status = .blocked .spill → fl.miss = some m → m.store = none → m.touch = false → fl.xl = none → (s.spk i).spill = [] →
    (∀ y ∈ pn.walks ++ pn.misses ++ pn.farWait ++ pn.farMore, y.who ≠ .spill f) →
    s.paResetting pa = false → s.paHeld pa 128 = false →
    (s.pan (panOfSpk i)).tlb = e :: rest → e.ctx = o.1 → e.gen = o.2 → e.vpn = va / 2 ^ e.size → e.pte.getLsbD 61 = true →
    s.lineUe pa 128 = false →
      ∃ t, exec (.spillFillDone f) s = .next t ∧
        t.floret f.val = { fl.wr m.dst (rowWord (s.read pa 128) m.off m.bytes) with
          status := .runnable, miss := none, pc := fl.pc + 4 } ∧
        (t.spk i).spill = [{ floret := floretNo f.val, row := m.row, dirty := false, data := s.read pa 128 }] ∧
        t.mem = s.mem))

/-- A remote operation at issue (R79, R135, R139, R140): with an aligned address that leads somewhere and a slot free
for the floret, it takes the lowest free slot, its result register becomes pending, and it is sent or held behind an
earlier one on its address (an add of `sync.sig` is held); `sync.wait` leaves the floret WAITING and posts its edge.
Without a slot the floret is blocked; a misaligned address raises ALIGN, one that breaks the layout ROP_ADDR. Where a
slot's request goes (R173 to R176, Table 5-2): to the bank's or the store's panicle of this package, to the granary
controller that holds the physical address of a virtual one whose leaf the TLB holds, to the mover of the panicle of
another package; an address that leads nowhere fails with ROP_TRANSLATION. How remote operations end (R136 to R139,
R80): `rop.wait` goes on once no more than n are outstanding; a held add is sent once the floret's earlier operations
are performed, and what waits for it goes on (R79, R190); a slot without a reply for 64 µs, or past its reissues, is
freed with its fault (ROP_TIMEOUT, ROP_DOMAIN_RESETTING) and its register keeps its value. Where the spec leaves
something open, its clauses follow the model's choices in log entries 18 and 147. -/
def Obligations.RemoteOperations : Prop :=
  (
  ∀ (f : FloretId) (g : BitVec 4) (d a b : BitVec 5) (n : Nat) (s : State),
    let fl := s.floret f.val
    let i := spkOfFloret f.val
    let sp := s.spk i
    let addr := fl.rd a
    let slot := fun (kind : SlotKind) (dst : BitVec 5) (opa opb : W64) =>
      ({ floret := floretNo f.val, kind := kind, pc := fl.pc, addr := addr, opa := opa, opb := opb, dst := dst,
         order := sp.order } : Slot)
    let free := addr.toNat % 8 = 0 ∧ (s.gaddr addr).isSome = true ∧ sp.mayTake (floretNo f.val) = true ∧ sp.freeSlot = some n
    let cell := s.cellAt sp.owner.1 addr
    (∀ q ∈ [(Instr.ropGet64 f g d a 0, [d, a], slot .get d 0 0), (.ropPut64 f g 0 a b, [a, b], slot .put 0 (fl.rd b) 0),
        (.ropAdd64 f g d a b, [d, a, b], slot .add d (fl.rd b) 0), (.ropSwap64 f g d a b, [d, a, b], slot .swap d (fl.rd b) 0),
        (.ropOr64 f g d a b, [d, a, b], slot .or d (fl.rd b) 0),
        (.ropCas64 f g d a b, [d, a, b], slot .cas d (fl.rd d) (fl.rd b))],
      Ready s f g q.2.1 → free →
        exec q.1 s = .next (((((s.setFloret f.val (fl.mark q.2.2.dst)).putSlot i n q.2.2).sendOrHold i n q.2.2).setPc
          f.val (fl.pc + 4)).issuedBy f.val)) ∧
    (Ready s f g [a, b] → free →
      (∃ t, exec (.syncSig f g 0 a b) s = .next t ∧ { t with cores := s.cores } = s ∧ CoresBut s t f ∧
        t.floret f.val = { fl with pc := fl.pc + 4 } ∧
        (t.spk i).slot n = some { slot .signal 0 (fl.rd b) 0 with stage := .held } ∧ (t.spk i).order = sp.order + 1 ∧
        ∀ k, k ≠ n → (t.spk i).slot k = sp.slot k) ∧
      exec (.syncWait f g 0 a b) s = .next ((((((s.setFloret f.val { fl with status := .waiting (.sync n cell) }).postEdge
        (s.stepEdge i cell)).putSlot i n (slot .wait 0 (fl.rd b) 0)).sendOrHold i n (slot .wait 0 (fl.rd b) 0)).setPc
          f.val (fl.pc + 4)).issuedBy f.val)) ∧
    (∀ q ∈ [(Instr.ropGet64 f g d a 0, [d, a]), (.ropPut64 f g 0 a b, [a, b]), (.ropAdd64 f g d a b, [d, a, b]),
        (.ropSwap64 f g d a b, [d, a, b]), (.ropOr64 f g d a b, [d, a, b]), (.ropCas64 f g d a b, [d, a, b]),
        (.syncSig f g 0 a b, [a, b]), (.syncWait f g 0 a b, [a, b])],
      Ready s f g q.2 →
        (addr.toNat % 8 ≠ 0 → exec q.1 s = .next (s.syncFault f.val 0x03 fl.pc (some addr))) ∧
        (addr.toNat % 8 = 0 → (s.gaddr addr).isNone = true →
          exec q.1 s = .next (s.syncFault f.val 0x22 fl.pc (some addr))) ∧
        (addr.toNat % 8 = 0 → (s.gaddr addr).isSome = true → sp.mayTake (floretNo f.val) = false →
          exec q.1 s = .next (s.setStatus f.val (.blocked .slot))))) ∧
  (
  ∀ (i n : Nat) (x : Slot) (ga : GAddr) (s : State), s.gaddr x.addr = some ga →
    let p := panOfSpk i
    let sent := fun (dst : Ec) =>
      (s.setSlot i n { x with stage := .sent }).inject p (s.slotPkt i n { x with stage := .sent } dst ga.loc)
    (∀ j o, ctxAddr ga.loc = .bank j o →
      s.sendSlot i n x = sent (if ga.own then s.spkEc j 0x10 else ecOf ga.pkg (tillerOfSpk j) (panOfSpk j % 192) 0 0x41)) ∧
    (∀ q o, ctxAddr ga.loc = .store q o →
      s.sendSlot i n x = sent (if ga.own then s.panEc q 0x40 else ecOf ga.pkg (tillerOfPan q) (q % 192) 0 0x41)) ∧
    (ctxAddr ga.loc = .virtual → ga.own = false → s.sendSlot i n x = sent (ecOf ga.pkg (tillerOfPan p) (p % 192) 0 0x41)) ∧
    (ctxAddr ga.loc = .virtual → ga.own = true →
      ∀ (e : TlbEntry) (rest : List TlbEntry), (s.pan p).tlb = e :: rest → e.ctx = (s.spk i).owner.1 →
        e.gen = (s.spk i).owner.2 → e.vpn = ga.loc / 2 ^ e.size → e.pte.getLsbD 61 = true →
        (x.kind.writes = true → e.pte.getLsbD 60 = true ∧ e.pte.getLsbD 57 = true) →
          let pa := pteAddr e.pte + ga.loc % 2 ^ e.size
          let s1 := (s.count p (fun c => { c with xlHit := satAdd c.xlHit 1 }))
          let s2 := (s1.setPan p { s1.pan p with tlb := tlbPut (s1.pan p).tlb e }).setSlot i n { x with stage := .sent }
          s.sendSlot i n x = s2.inject p (s2.slotPkt i n { x with stage := .sent } (s.stackEc (stackOfPa pa)) pa)) ∧
    (ctxAddr ga.loc = .other → s.sendSlot i n x = s.failRop i n x 0x24)) ∧
  (
  (∀ (f : FloretId) (g : BitVec 4) (b : BitVec 5) (s : State), Ready s f g [] → b.toNat < 4 →
    let fl := s.floret f.val
    let k := (s.spk (spkOfFloret f.val)).outstanding (floretNo f.val)
    ∃ t, exec (.ropWait f g 0 0 b) s = .next t ∧ Retires s t f
      (if k ≤ b.toNat then { fl with pc := fl.pc + 4 }
       else { fl with pc := fl.pc + 4, status := .waiting (.rops b.toNat) })) ∧
  (∀ (i : SpkId) (n : Fin 64) (x : Slot) (s : State), (s.spk i.val).slot n.val = some x →
    let y := i.val * 16 + x.floret.val
    let ends := fun (c : Instr) (code : Nat) => ∃ t, exec c s = .next t ∧ (t.spk i.val).slot n.val = none ∧
      (t.floret y).sregs = (s.floret y).sregs ∧ (x.dst ≠ 0 → (t.floret y).pend.getLsbD x.dst.toNat = false) ∧
      ((s.floret y).status ≠ .idle → (t.floret y).status = .faulted) ∧
      ((s.spk i.val).frec.valid = false → (t.spk i.val).frec.code = BitVec.ofNat 8 code ∧ (t.spk i.val).frec.detail = x.addr)
    (x.kind = .signal → x.stage = .held →
      exec (.syncSigSend i n) s =
        .next (if (s.spk i.val).earlier x then s else (s.sendSlot i.val n.val x).pump i.val) ∧
      exec (.remoteOpTimeout i n) s = .next s) ∧
    (x.kind ∈ [.get, .put, .add, .swap, .or, .cas, .signal] → (s.spk i.val).drains = [] →
      (∀ e ∈ (s.spk i.val).slots, ∀ y, e.2 = some y → y.stage = .held → y.kind = .signal) →
      (x.stage ≠ .held → ends (.remoteOpTimeout i n) (if x.drst then 0x21 else 0x20)) ∧
      (x.stage = .resetting → ends (.ropReissue i n true) 0x21)) ∧
    (x.stage = .resetting → exec (.ropReissue i n false) s = .next ((s.sendSlot i.val n.val x).pump i.val)) ∧
    (x.stage ≠ .resetting → ∀ e, exec (.ropReissue i n e) s = .next s) ∧
    (x.kind = .wait → exec (.remoteOpTimeout i n) s = .next s)))

/-- Panicle barriers (R141): `pbar.set` gives a barrier without arrivals a count of 1 to 1,024; `pbar.wait` counts an
arrival and waits, once the floret's earlier bank stores are performed (R190), and the last arrival clears the count of
arrivals and releases every floret that waits there. A count out of range, arrivals or a count never set raise BARRIER.
System instructions (R163, R164, Table 4-14): each system register reads as the table says and only HINT and LAT_STAT
change by it; a floret that waits for its bank may read TURN_HINT and go on waiting, or park (R48); `flt.park` parks for
the low 24 bits of its operand, none when they are 0; `flt.halt` stops issue and gives up an open bundle. -/
def Obligations.BarriersAndSystem : Prop :=
  (
  ∀ (f : FloretId) (g : BitVec 4) (a b : BitVec 5) (s : State), b.toNat < 8 →
    let fl := s.floret f.val
    let i := spkOfFloret f.val
    let p := panOfSpk i
    let sp := s.spk i
    let bars := (s.pan p).barriers
    let bar : Barrier := Tab.get {} bars b.toNat
    let c := (fl.rd a).toNat
    let becomes := fun (t : State) (v : Barrier) => { t with cores := s.cores } = s ∧
      t.pan p = { s.pan p with barriers := Tab.set {} bars b.toNat v } ∧ (∀ q, q ≠ p → t.pan q = s.pan q) ∧
      (∀ j, t.spk j = if j = i then { s.spk i with lastIssue := floretNo f.val } else s.spk j)
    (Ready s f g [a] →
      (bar.arrivals = 0 → 1 ≤ c → c ≤ 1024 → ∃ t, exec (.pbarSet f g 0 a b) s = .next t ∧ becomes t { bar with count := c } ∧
        ∀ y, t.floret y = if y = f.val then { fl with pc := fl.pc + 4 } else s.floret y) ∧
      (bar.arrivals ≠ 0 ∨ c < 1 ∨ 1024 < c → exec (.pbarSet f g 0 a b) s = .next (s.syncFault f.val 0x3A fl.pc none))) ∧
    (Ready s f g [] → 0 < bar.count → sp.storesLeft (floretNo f.val) = true →
      exec (.pbarWait f g 0 0 b) s = .next (s.setStatus f.val (.blocked .bank))) ∧
    (Ready s f g [] → sp.storesLeft (floretNo f.val) = false →
      (bar.count = 0 → exec (.pbarWait f g 0 0 b) s = .next (s.syncFault f.val 0x3A fl.pc none)) ∧
      (bar.arrivals + 1 < bar.count → ∃ t, exec (.pbarWait f g 0 0 b) s = .next t ∧
        becomes t { bar with arrivals := bar.arrivals + 1 } ∧
        ∀ y, t.floret y =
          if y = f.val then { fl with pc := fl.pc + 4, status := .waiting (.barrier b.toNat) } else s.floret y) ∧
      (0 < bar.count → bar.count ≤ bar.arrivals + 1 → ∃ t, exec (.pbarWait f g 0 0 b) s = .next t ∧
        becomes t { bar with arrivals := 0 } ∧
        ∀ y, t.floret y = if y = f.val then { fl with pc := fl.pc + 4 }
          else if y / 1024 = p ∧ (s.floret y).status = .waiting (.barrier b.toNat) then { s.floret y with status := .runnable }
          else s.floret y))) ∧
  (
  ∀ (f : FloretId) (g : BitVec 4) (d a : BitVec 5) (s : State),
    let fl := s.floret f.val
    let i := spkOfFloret f.val
    let sp := s.spk i
    (Ready s f g [d] → ∀ q ∈ [(0, fl, (s.floretEc f.val).setWidth 64),
        (1, fl, BitVec.ofNat 64 (sp.owner.2.toNat * 4096 + sp.owner.1.toNat)),
        (2, { fl with hint := putBit fl.hint 63 false }, fl.hint), (3, fl, s.refcnt), (4, fl, sp.step.setWidth 64),
        (5, fl, BitVec.ofNat 64 (sp.out * 256 + sp.outOf (floretNo f.val))),
        (6, { fl with latStat := 0 }, fl.latStat.setWidth 64), (7, fl, sp.lfsr.setWidth 64)],
      ∃ t, exec (.sysRd f g d 0 (BitVec.ofNat 5 q.1)) s = .next t ∧
        Retires s t f { q.2.1.wr d q.2.2 with pc := fl.pc + 4 }) ∧
    (Ready s f g [a] →
      let n : BitVec 24 := (fl.rd a).setWidth 24
      ∃ t, exec (.fltPark f g 0 a 0) s = .next t ∧ Retires s t f
        (if n = 0 then { fl with pc := fl.pc + 4 } else { fl with pc := fl.pc + 4, status := .parked, park := n })) ∧
    (fl.status = .blocked .bank →
      (Ready (s.setFloret f.val { fl with status := .runnable }) f g [d] →
        ∃ t, exec (.sysRd f g d 0 2) s = .next t ∧ Retires s t f
          { ({ fl with hint := putBit fl.hint 63 false } : Floret).wr d fl.hint with pc := fl.pc + 4 }) ∧
      (Ready (s.setFloret f.val { fl with status := .runnable }) f g [a] → (fl.rd a).setWidth 24 ≠ (0 : BitVec 24) →
        ∃ t, exec (.fltPark f g 0 a 0) s = .next t ∧
          Retires s t f { fl with pc := fl.pc + 4, status := .parked, park := (fl.rd a).setWidth 24 })) ∧
    (Ready s f g [] →
      (fl.bundle = none → ∃ t, exec (.fltHalt f g 0 0 0) s = .next t ∧
        Retires s t f { fl with pc := fl.pc + 4, status := .halting }) ∧
      (∀ k : Fin 4, fl.bundle = some k → ∃ t, exec (.fltHalt f g 0 0 0) s = .next t ∧
        t.floret f.val = { fl with pc := fl.pc + 4, status := .halting, bundle := none } ∧
        Tab.get none (t.pan (panOfSpk i)).slots k.val = none)))

/-- Building a bundle (R142 to R145): `bnd.open` takes the lowest free bundle slot of the panicle and writes the new
sequence number, or 2^63 when none is free; `bnd.put` and `bnd.add` append an action, `bnd.put` once the floret's
earlier bank accesses are done (R133); `bnd.drop` frees the slot. A second `bnd.open`, or `bnd.add`, `bnd.drop` and
`bnd.commit` without an open bundle, raise BND_STATE. `bnd.commit` (R145, R377): the bundle leaves its slot and one
remote-operation slot is held until its result. With 16 decisions logged it waits at the coordinator; a bundle without
actions commits at once with the result 0, its slot freed; without a slot free the floret is blocked. Where the spec
leaves something open, its clauses follow the model's choices in log entries 6 and 24. -/
def Obligations.BundlesOfFlorets : Prop :=
  (
  ∀ (f : FloretId) (g : BitVec 4) (d a b : BitVec 5) (s : State),
    let fl := s.floret f.val
    let i := spkOfFloret f.val
    let p := panOfSpk i
    let addr := fl.rd a
    let off := (fl.rd d).toNat % 65536
    let n := (fl.rd b).toNat
    let slots := (s.pan p).slots
    let owner := (s.spk i).owner.1
    let sp := s.spk i
    let same := fun (t : State) => UnitsBut s t f ∧ t.spk i = { s.spk i with lastIssue := floretNo f.val }
    let appends := fun (c : Instr) (k : Fin 4) (o : OpenBundle) (act : BndAct) (fl : Floret) =>
      ∃ t, exec c s = .next t ∧ same t ∧ t.floret f.val = { fl with pc := fl.pc + 4 } ∧
      t.pan p = { s.pan p with slots := Tab.set none slots k.val (some { o with acts := o.acts ++ [act] }) }
    (Ready s f g [d] → fl.bundle = none →
      (∀ k : Fin 4, Tab.get none slots k.val = none → (∀ j, j < k.val → Tab.get none slots j ≠ none) →
        ∃ t, exec (.bndOpen f g d 0 0) s = .next t ∧ same t ∧
          t.floret f.val = { ({ fl with bundle := some k, bndSeq := fl.bndSeq + 1 }.wr d ((fl.bndSeq + 1).setWidth 64)) with
            pc := fl.pc + 4 } ∧
          t.pan p = { s.pan p with slots := Tab.set none slots k.val (some { floret := f, seq := fl.bndSeq + 1 }) }) ∧
      ((∀ j, j < 4 → Tab.get none slots j ≠ none) →
        ∃ t, exec (.bndOpen f g d 0 0) s = .next t ∧ Retires s t f { fl.wr d (BitVec.ofNat 64 (2 ^ 63)) with pc := fl.pc + 4 })) ∧
    (Ready s f g [d] → fl.bundle ≠ none → exec (.bndOpen f g d 0 0) s = .next (s.syncFault f.val 0x30 fl.pc none)) ∧
    (∀ (k : Fin 4) (o : OpenBundle), s.openBundle f = some (k, o) →
      (Ready s f g [d, a, b] → 1 ≤ n → n ≤ 256 → off + n ≤ 65536 → sp.bankBusy (floretNo f.val) = true →
        exec (.bndPut f g d a b) s = .next (s.setStatus f.val (.blocked .bank))) ∧
      (Ready s f g [d, a, b] → 1 ≤ n → n ≤ 256 → off + n ≤ 65536 → sp.bankBusy (floretNo f.val) = false →
        fl.spilledRows off n = [] → (s.gaddr addr).isSome = true → s.shadowHit i off n = false →
        s.bndFull o addr = false → s.badTarget owner addr = false →
        (∀ row ∈ rowsOf off n, ∀ w < 8, s.eccAt ((bankBase i + row * 128) / 16 + w) = none) →
        appends (.bndPut f g d a b) k o (.put addr (s.bankRead i off n)) { fl with filled := [] }) ∧
      (Ready s f g [a, b] → addr.toNat % 8 = 0 → (s.gaddr addr).isSome = true → s.bndFull o addr = false →
        s.badTarget owner addr = false → appends (.bndAdd f g 0 a b) k o (.add addr (fl.rd b)) fl) ∧
      (Ready s f g [] → ∃ t, exec (.bndDrop f g 0 0 0) s = .next t ∧ same t ∧
        t.floret f.val = { fl with pc := fl.pc + 4, bundle := none } ∧
        t.pan p = { s.pan p with slots := Tab.set none slots k.val none })) ∧
    (s.openBundle f = none →
      (Ready s f g [] → exec (.bndDrop f g 0 0 0) s = .next (s.syncFault f.val 0x30 fl.pc none)) ∧
      (Ready s f g [d] → exec (.bndCommit f g d 0 0) s = .next (s.syncFault f.val 0x30 fl.pc none)) ∧
      (Ready s f g [a, b] → addr.toNat % 8 = 0 → (s.gaddr addr).isSome = true →
        exec (.bndAdd f g 0 a b) s = .next (s.syncFault f.val 0x30 fl.pc none)))) ∧
  (
  ∀ (f : FloretId) (g : BitVec 4) (d : BitVec 5) (k : Fin 4) (o : OpenBundle) (n : Nat) (s : State),
    let fl := s.floret f.val
    let i := spkOfFloret f.val
    let p := panOfSpk i
    let log := (s.panBnd p).coord
    Ready s f g [d] → s.openBundle f = some (k, o) →
      ((s.spk i).mayTake (floretNo f.val) = true → (s.spk i).freeSlot = some n →
        (16 ≤ log.countP (fun r => r.sent) →
          ∃ t, exec (.bndCommit f g d 0 0) s = .next t ∧ (t.floret f.val).bundle = none ∧
            (d ≠ 0 → (t.floret f.val).pend.getLsbD d.toNat = true) ∧ (t.floret f.val).sregs = fl.sregs ∧
            ((t.spk i).slot n).isSome = true ∧ Tab.get none (t.pan p).slots k.val = none ∧
            ∃ r, (t.panBnd p).coord = log ++ [r] ∧ r.id = { ec := s.floretEc f.val, seq := o.seq } ∧ r.sent = false ∧
              r.owed = some (n, d)) ∧
        (log.countP (fun r => r.sent) < 16 → (∀ r ∈ log, r.sent = true) →
          (∀ r ∈ log, r.id ≠ { ec := s.floretEc f.val, seq := o.seq }) → o.acts = [] → (s.spk i).drains = [] →
          (∀ e ∈ (s.spk i).slots, ∀ y, e.2 = some y → y.stage = .held → y.kind = .signal) →
          ∃ t, exec (.bndCommit f g d 0 0) s = .next t ∧ (t.floret f.val).rd d = 0 ∧ (t.floret f.val).bundle = none ∧
            (t.spk i).slot n = none ∧ (t.panBnd p).coord = log ∧
            (t.panBnd p).commits = satAdd (s.panBnd p).commits 1)) ∧
      ((s.spk i).mayTake (floretNo f.val) = false →
        exec (.bndCommit f g d 0 0) s = .next (s.setStatus f.val (.blocked .slot))))

/-- Lattice instructions (R146, R149 to R153): `lat.mm` queues an operation, at most four, else the floret is blocked;
`lat.rd` reads two elements of a valid row of a tile that is not in use; `lat.clr` zeroes a tile and validates its rows;
`lat.wait` goes on once none of the floret's operations and drains is left; a drain of a tile (to the bank, to remote
memory or to the tree) is issued with its band converted. An instruction that must wait changes nothing. Posts (R155 to
R157): a broadcast, a reduction and a mover descriptor that pass their checks are posted to the panicle; those of
broadcasts and descriptors hold a slot. A reduction to the mover without members (R350) goes to the mover at once. Where
the spec leaves something open, its clauses follow the model's choices in log entries 19 and 27. -/
def Obligations.LatticeAndPosts : Prop :=
  (
  ∀ (f : FloretId) (g : BitVec 4) (fmt d a b : BitVec 5) (imm : BitVec 12) (s : State),
    let fl := s.floret f.val
    let i := spkOfFloret f.val
    let sp := s.spk i
    let me := floretNo f.val
    let tile := imm.toNat % 4
    let row := imm.toNat / 4 % 32
    let h := imm.toNat / 128 % 2
    let inUse := fun (t : Nat) => sp.busy t || sp.draining me t
    (Ready s f g [a, b] →
      (sp.latQ.length < 4 → ∃ t, exec (.latMm f g fmt 0 a b) s = .next t ∧ UnitsBut s t f ∧ t.pan (panOfSpk i) = s.pan (panOfSpk i) ∧
        t.floret f.val = { fl with pc := fl.pc + 4 } ∧
        t.spk i = { sp with lastIssue := me, latQ := sp.latQ ++
          [{ floret := me, pc := fl.pc, fmt := fmt, sa := fl.rd a, sb := fl.rd b, run := fl.run }] }) ∧
      (4 ≤ sp.latQ.length → exec (.latMm f g fmt 0 a b) s = .next (s.setStatus f.val (.blocked .latQueue)))) ∧
    (Ready s f g [d] → imm.toNat < 256 →
      (inUse tile = true → exec (.latRd f g d 0 imm) s = .next s) ∧
      (inUse tile = false → sp.invalid.getLsbD (tile * 32 + row) = true →
        exec (.latRd f g d 0 imm) s = .next (s.syncFault f.val 0x0A fl.pc none)) ∧
      (inUse tile = false → sp.invalid.getLsbD (tile * 32 + row) = false →
        ∃ t, exec (.latRd f g d 0 imm) s = .next t ∧ Retires s t f
          { fl.wr d (Tab.get 0 sp.tiles (tileIx tile row (2 * h + 1)) ++ Tab.get 0 sp.tiles (tileIx tile row (2 * h))) with
            pc := fl.pc + 4 })) ∧
    (Ready s f g [] →
      (imm.toNat < 4 → inUse tile = true → exec (.latClr f g 0 0 imm) s = .next s) ∧
      (imm.toNat < 4 → inUse tile = false → ∃ t, exec (.latClr f g 0 0 imm) s = .next t ∧ UnitsBut s t f ∧
        t.floret f.val = { fl with pc := fl.pc + 4 } ∧
        (∀ x : Fin 512, Tab.get 0 (t.spk i).tiles x.val = if x.val / 128 = tile then 0 else Tab.get 0 sp.tiles x.val) ∧
        (∀ x : Fin 128, (t.spk i).invalid.getLsbD x.val = (decide (x.val / 32 ≠ tile) && sp.invalid.getLsbD x.val))) ∧
      (let left := (∃ o ∈ sp.latQ, o.floret = me) ∨ ∃ x ∈ sp.drains, x.floret = me
       (left → exec (.latWait f g 0 0 0) s = .next s) ∧
       (¬ left → ∃ t, exec (.latWait f g 0 0 0) s = .next t ∧ Retires s t f { fl with pc := fl.pc + 4 }))) ∧
    (Ready s f g [d, a, b] → ∀ (m : Fmt) (c : CvtCtl),
      let sd := fl.rd d
      let sa := fl.rd a
      let sb := fl.rd b
      let hh := fld sd 12 7
      let band := fld sd 6 2
      let t0 := fld sd 1 0
      let xs := bandElems sp.tiles t0 band hh
      let rs := if m = .fp32 then (xs.map (fun _ => 0), sp.lfsr) else lfsrDraw c xs.length sp.lfsr
      let bank := fld sd 27 26 = 0 ∧ sa.toNat % 16 = 0 ∧ sa.toNat < 65536 ∧ sa.toNat + hh * 4 * m.bytes ≤ 65536 ∧
        (m.isMx = true → sb.toNat % 4 = 0 ∧ sb.toNat + 4 ≤ 65536)
      let remote := fld sd 27 26 = 1 ∧ sa.toNat % 16 = 0 ∧ (s.gaddr sa).isSome = true ∧ sp.mayTake me = false ∧
        (m.isMx = true → sb.toNat % 4 = 0 ∧ (s.gaddr sb).isSome = true) ∧ (∀ x ∈ sp.drains, x.pieces = []) ∧
        ∀ e ∈ sp.slots, ∀ y, e.2 = some y → y.stage = .held → y.kind = .signal
      let tree := fld sd 27 26 = 2 ∧ s.treeBad i (fld sd 17 13) (sa.setWidth 8) hh = false ∧
        (s.pan (panOfSpk i)).red (sa.setWidth 8) = none
      drainFmt (sd.extractLsb' 13 5) = some m → CvtCtl.ofByte (sd.extractLsb' 18 8) = some c →
      (m.isMx = true → band = 0 ∧ hh = 32) → fld sd 63 28 = 0 → 1 ≤ hh → band + hh ≤ 32 → sp.bandBad t0 band hh = false →
      inUse t0 = false → bank ∨ remote ∨ tree →
        ∃ t dr, exec (.latSt f g d a b) s = .next t ∧ UnitsBut s t f ∧ t.floret f.val = { fl with pc := fl.pc + 4 } ∧
          t.spk i = { sp with lastIssue := me, order := sp.order + 1, lfsr := rs.2, drains := sp.drains ++ [dr] } ∧
          dr.dst = drainDest sd sa ∧ dr.data = (drainBand m c rs.1 xs).data ∧ dr.floret = me ∧ dr.tile.val = t0)) ∧
  (
  ∀ (f : FloretId) (g : BitVec 4) (a b : BitVec 5) (n : Nat) (s : State),
    let fl := s.floret f.val
    let i := spkOfFloret f.val
    let p := panOfSpk i
    let sp := s.spk i
    let mask := fl.rd a
    let c := fl.rd b
    let slotTaken := fun (t : State) => ∃ x, (t.spk i).slot n = some x ∧ x.kind = .post ∧ x.floret = floretNo f.val ∧
      ∀ k, k ≠ n → (t.spk i).slot k = sp.slot k
    let free := sp.mayTake (floretNo f.val) = true ∧ sp.freeSlot = some n
    (Ready s f g [a, b] → free → (∀ m ∈ bitsSet mask, s.floor.spkDead (p * 64 + m) = false) →
      (s.pan p).bidUsed (bcBid c) = false → fld c 62 61 < 3 → c.getLsbD 63 = false → 1 ≤ bcK c → bcK c ≤ 4096 →
      (bcSparse c = true → bcK c % 4 = 0) → bcAaddr c + bcK c * 4 * bcElem c ≤ 0x80000 →
      (bcMx c = true → bcSaddr c + 4 * ((bcK c + 31) / 32) ≤ 0x80000) → bcAaddr c % (4 * bcElem c) = 0 → bcSaddr c % 4 = 0 →
        ∃ t, exec (.bcPost f g 0 a b) s = .next t ∧ UnitsBut s t f ∧ t.floret f.val = { fl with pc := fl.pc + 4 } ∧ slotTaken t ∧
          t.pan p = { s.pan p with posts := (s.pan p).posts ++ [{ mask := mask, ctl := c, poster := f, slot := n }] }) ∧
    (Ready s f g [a, b] → (s.pan p).red (c.setWidth 8) = none → 1 ≤ redH c → redH c ≤ 32 → redOff c % 16 = 0 →
      (redDst c = 0 → redOff c + redH c * 16 ≤ 0x80000 → (∀ j, (s.spk j).drains = []) →
        ∃ t, exec (.redPost f g 0 a b) s = .next t ∧ UnitsBut s t f ∧ t.floret f.val = { fl with pc := fl.pc + 4 } ∧
          t.pan p = { s.pan p with reds := (s.pan p).reds ++
            [(c.setWidth 8, { poster := f, pc := fl.pc, mask := mask, ctl := c, run := fl.run })] }) ∧
      (redDst c = 2 → mask = 0 → fld c 55 54 = 0 → redOff c + redH c * 16 ≤ 0x80000 →
        ∃ t q, exec (.redPost f g 0 a b) s = .next t ∧ (t.leaf p).posts = (s.leaf p).posts ++ [q] ∧ q.tree = c.extractLsb' 56 8 ∧
          q.chunk = c.extractLsb' 41 13 ∧ q.masked = false ∧ t.floret f.val = { fl with pc := fl.pc + 4 })) ∧
    (Ready s f g [a] → free →
      let at_ := (fl.rd a).toNat
      at_ < 524288 → at_ % 32 = 0 → s.storeHeld p at_ 32 = false →
      (∀ w ∈ wordsOf at_ 32, s.eccAt (storeBase p / 16 + w) = none) →
      let m := movFields (s.read (storeBase p + at_) 32)
      (m.spec = true → exec (.movPost f g 0 a 0) s = .next (s.syncFault f.val 0x39 fl.pc (some (fl.rd a)))) ∧
      (m.spec = false →
        ∃ t, exec (.movPost f g 0 a 0) s = .next t ∧ UnitsBut s t f ∧ t.floret f.val = { fl with pc := fl.pc + 4 } ∧ slotTaken t ∧
          t.pan p = { s.pan p with movPosts := (s.pan p).movPosts ++
            [{ id := 0, src := .floret f fl.pc (fl.rd a), ctx := sp.owner.1, gen := sp.owner.2, d := m, post := n, run := fl.run }] })))

/-- Conversions (R159 to R162, R112): `cvt.r` converts two elements and keeps SAT and NAN, `cvt.up` widens two exactly
and keeps NAN; the accesses of `cvt.b` are queued for the bank, its stochastic values taken in issue order, or, where
some of its rows are spilled (R193), it first waits for the floret's earlier ones; `cvt.seed` seeds the generator and
turns 0 into 1. A code outside the permitted sets raises LAT_FORMAT. Where the spec leaves something open, its clauses
follow the model's choices in log entry 24. -/
def Obligations.Conversions : Prop :=
  ∀ (f : FloretId) (g : BitVec 4) (fmt d a b : BitVec 5) (s : State),
    let fl := s.floret f.val
    let i := spkOfFloret f.val
    let sp := s.spk i
    let x := fl.rd a
    (Ready s f g [d, a, b] → ∀ (m : Fmt) (c : CvtCtl), CvtCtl.ofByte ((fl.rd b).setWidth 8) = some c →
      let rs := (lfsrDraw c 2 sp.lfsr).1
      let e0 := cvtElem m c (rs.getD 0 0) (x.setWidth 32)
      let e1 := cvtElem m c (rs.getD 1 0) ((x >>> 32).setWidth 32)
      (cvtTarget fmt = some m →
        ∃ t, exec (.cvtR f g fmt d a b) s = .next t ∧ UnitsBut s t f ∧
          t.spk i = { sp with lastIssue := floretNo f.val, lfsr := (lfsrDraw c 2 sp.lfsr).2 } ∧
          t.floret f.val = { fl.wr d (BitVec.ofNat 64 (packBits m.width [e0.bits, e1.bits])) with
            pc := fl.pc + 4, latStat := orStat fl.latStat false false (e0.sat || e1.sat) (e0.nan || e1.nan) })) ∧
    (Ready s f g [d, a, b] → cvtTarget fmt = none ∨ CvtCtl.ofByte ((fl.rd b).setWidth 8) = none →
      exec (.cvtR f g fmt d a b) s = .next (s.syncFault f.val 0x0B fl.pc none)) ∧
    (Ready s f g [d, a] →
      (∀ m, Fmt.ofCode fmt = some m → m ≠ .fp32 →
        let w := if m.bytes = 2 then 16 else 8
        let hi := upElem m (x.toNat / 2 ^ w % 2 ^ w)
        let lo := upElem m (x.toNat % 2 ^ w)
        ∃ t, exec (.cvtUp f g fmt d a 0) s = .next t ∧ Retires s t f
          { fl.wr d (hi ++ lo) with
            pc := fl.pc + 4, latStat := orStat fl.latStat false false false ((fp32Val hi).isNan || (fp32Val lo).isNan) }) ∧
      (Fmt.ofCode fmt = none ∨ Fmt.ofCode fmt = some .fp32 →
        exec (.cvtUp f g fmt d a 0) s = .next (s.syncFault f.val 0x0B fl.pc none))) ∧
    (Ready s f g [d, a, b] → ∀ (m : Fmt) (c : CvtCtl),
      (Fmt.ofCode fmt = some m ∧ m.isMx = true) ∨ cvtTarget fmt = some m →
      CvtCtl.ofByte ((fl.rd b).setWidth 8) = some c → x.toNat < 65536 → x.toNat % 128 = 0 → (fl.rd d).toNat < 65536 →
      (fl.rd d).toNat % 32 = 0 → (fl.rd d).toNat + 32 * m.bytes ≤ 65536 →
        let l := lfsrDraw c 32 sp.lfsr
        let outs := cvtOuts (fl.rd d).toNat (32 * m.bytes) (if m.isMx then some (fld (fl.rd b) 31 16) else none)
        let whole := fl.spilledRows x.toNat 128 = [] ∧ ∀ o ∈ outs, fl.spilledRows o.1 o.2 = []
        let access := fun (off : Nat) (op : BankOp) =>
          ({ floret := floretNo f.val, pc := fl.pc, off := off, order := sp.order, op := op } : BankReq)
        (whole → ∃ t, exec (.cvtB f g fmt d a b) s = .next t ∧ UnitsBut s t f ∧ t.floret f.val = { fl with pc := fl.pc + 4 } ∧
          let reqs := access x.toNat (.cvt fmt ((fl.rd b).setWidth 8) l.1) :: outs.zipIdx.map (fun o =>
            access o.1.1 (.out o.1.2 [] (decide (o.2 + 1 = outs.length)) false false))
          t.spk i = { sp with
            lastIssue := floretNo f.val, lfsr := l.2, order := sp.order + 1, bankQ := sp.bankQ ++ reqs }) ∧
        (¬ whole → sp.bankBusy (floretNo f.val) = true →
          exec (.cvtB f g fmt d a b) s = .next (s.setStatus f.val (.blocked .bank)))) ∧
    (Ready s f g [a] →
      let v : W32 := x.setWidth 32
      ∃ t, exec (.cvtSeed f g 0 a 0) s = .next t ∧ UnitsBut s t f ∧ t.floret f.val = { fl with pc := fl.pc + 4 } ∧
        t.spk i = { sp with lastIssue := floretNo f.val, lfsr := if v = 0 then 1 else v })

/-- What a fault leaves behind (R33, R167, R168, R477): an empty record takes floret, kind, code, PC, context and detail
and the log one entry; a full one only sets OVF; the floret is FAULTED unless it is IDLE and its spilled rows go.
Write-backs (R42, R611): a corrected row of a bank or word of a store that awaits its write-back is written with new
check bits, so that its corrected errors are gone; uncorrectable marks stay, and no byte changes. Where the spec leaves
something open, its clauses follow the model's choices in log entry 2. -/
def Obligations.FaultsAndCorrections : Prop :=
  (
  ∀ (i : Nat) (f : Fin 16) (k : FKind) (code : Nat) (pc : BitVec 20) (detail : W64) (s : State),
    let t := s.raise i f k code pc detail
    let old := (s.spk i).frec
    let ctx := (s.spk i).owner.1
    let code8 : BitVec 8 := BitVec.ofNat 8 code
    let pc19 : BitVec 19 := pc.setWidth 19
    let r : FaultRec := { valid := true, floret := BitVec.ofNat 4 f.val, kind := k.bits, ctx := ctx, code := code8, pc := pc19, detail := detail }
    (old.valid = false → (t.spk i).frec = r ∧
      t.flt.count = s.flt.count + 1 ∧
      ∃ e, Tab.get none t.flt.log (s.flt.count.toNat % 1024) = some e ∧ e.code = 0x0401 ∧ e.cls = 2 ∧ e.ctx = some ctx ∧
        e.time = s.refcnt ∧ e.src = s.spkEc i f.val ∧
        e.detail = BitVec.ofNat 48 (code * 2 ^ 40 + f.val * 2 ^ 36 + pc.toNat % 2 ^ 19)) ∧
    (old.valid = true → (t.spk i).frec = { old with ovf := true } ∧ t.flt = s.flt) ∧
    (t.floret (i * 16 + f.val)).status =
      (if (s.floret (i * 16 + f.val)).status = .idle then .idle else .faulted) ∧
    ((s.floret (i * 16 + f.val)).status ≠ .idle → ∀ e ∈ (t.spk i).spill, e.floret ≠ f) ∧
    (∀ y, y ≠ i * 16 + f.val → t.floret y = s.floret y) ∧ (∀ j, j ≠ i → t.spk j = s.spk j) ∧ t.mem = s.mem ∧
    { t with cores := s.cores, flt := s.flt, mgt := s.mgt, det := s.det } = s) ∧
  (
  (∀ (i : SpkId) (row : Fin 512) (s : State), row ∈ (s.spk i.val).fixRows →
    ∃ t, exec (.eccWriteback i row) s = .next t ∧ (∀ j, j ≠ i.val → t.spk j = s.spk j) ∧
      t.spk i.val = { s.spk i.val with fixRows := (s.spk i.val).fixRows.filter (· ≠ row) } ∧
      (∀ w, t.eccAt w = if w / 8 = (bankBase i.val / 128 + row.val) ∧ s.eccAt w = some false then none else s.eccAt w) ∧
      t.mem.bytes = s.mem.bytes ∧ { t with cores := s.cores, mem := s.mem } = s) ∧
  (∀ (p : PanId) (word : Fin 32768) (s : State), word ∈ (s.pan p.val).fixWords →
    ∃ t, exec (.psEccWriteback p word) s = .next t ∧ (∀ j, j ≠ p.val → t.pan j = s.pan j) ∧
      t.pan p.val = { s.pan p.val with fixWords := (s.pan p.val).fixWords.filter (· ≠ word) } ∧
      (∀ w, t.eccAt w = if w = storeBase p.val / 16 + word.val ∧ s.eccAt w = some false then none else s.eccAt w) ∧
      t.mem.bytes = s.mem.bytes ∧ { t with cores := s.cores, mem := s.mem } = s))

/-- Lattice operations in the queue (R63, R64, R147, R148, R154): the checks at the head, the row-scale vector, a row
that arrives, the retirement of a finished operation, the timeout of an armed one; a failing operation leaves the queue,
its band becomes invalid and its fault carries the descriptor. Where the spec leaves something open, its clauses follow
the model's choices in log entries 20 and 21. -/
def Obligations.LatticeOperationsProgress : Prop :=
  ∀ (i : SpkId) (n : Nat) (o : LatOp) (s : State),
    let sp := s.spk i.val
    let p := panOfSpk i.val
    let puts := fun (t : State) (v : LatOp) => { t with cores := s.cores } = s ∧ t.spk i.val = { sp with latQ := putAt sp.latQ n v } ∧
      (∀ j, j ≠ i.val → t.spk j = s.spk j) ∧ (∀ y, t.floret y = s.floret y) ∧ ∀ q, t.pan q = s.pan q
    sp.latQ[n]? = some o →
      (∀ w code, o.wfmt = some w → s.failLat i.val n code =
        (s.setSpk i.val { sp with latQ := dropAt sp.latQ n, invalid := markRows sp.invalid o.tile o.band w.high true }).raiseRun
          i.val o.floret o.run .lattice code o.pc o.sa) ∧
      (sp.toHead = some n →
        (∀ code, o.check sp = some code → exec (.latOpHead i []) s = .next (s.failLat i.val n code)) ∧
        (∀ w, o.check sp = none → o.wfmt = some w →
          ((o.rsf && w.isMx) = false → ∃ t, exec (.latOpHead i []) s = .next t ∧ puts t { o with headed := true }) ∧
          ((o.rsf && w.isMx) = true → s.storeHeld p o.rsv 32 = false →
            (∀ x ∈ wordsOf o.rsv 32, s.eccAt (storeBase p / 16 + x) = none) →
            ∃ t, exec (.latOpHead i []) s = .next t ∧
              puts t { o with headed := true, factors := s.read (storeBase p + o.rsv) 32 }))) ∧
      (∀ st w, sp.rowFor st = some n → o.wfmt = some w →
        let row := o.first st + (o.stream st).come
        (sp.shadow.getLsbD row = true → exec (.latRowArrive i st []) s = .next (s.failLat i.val n 0x08)) ∧
        (sp.shadow.getLsbD row = false → (∀ x < 8, s.eccAt ((bankBase i.val + row * 128) / 16 + x) = none) →
          let rows := (o.stream st).rows ++ [s.bankRead i.val (row * 128) 128]
          let o1 := o.setStream st { come := (o.stream st).come + 1, rows := rows }
          ∃ t, exec (.latRowArrive i st []) s = .next t ∧ puts t { o1 with armed := o1.armed || o1.armable w })) ∧
      (∀ w, n = 0 → o.wfmt = some w →
        (o.done = false → exec (.latRetire i) s = .next s) ∧
        (o.done = true →
          let b := bandBits (bandElems sp.tiles o.tile o.band w.high)
          let x := i.val * 16 + o.floret.val
          ∃ t, exec (.latRetire i) s = .next t ∧ { t with cores := s.cores } = s ∧
            (let inv := if o.ovw then markRows sp.invalid o.tile o.band w.high false else sp.invalid
             t.spk i.val = { sp with latQ := sp.latQ.drop 1, invalid := inv }) ∧
            ∀ y, t.floret y = if y = x then { s.floret x with latStat := orStat (s.floret x).latStat b.1 b.2 false false }
              else s.floret y)) ∧
      ((∀ k < n, ∀ q, sp.latQ[k]? = some q → (q.armed && !q.done) = false) → o.armed = true → o.done = false →
        exec (.bcastTimeout i) s = .next (s.failLat i.val n 0x13))

/-- Broadcasts (R69 to R73, R155): the oldest post enters the wait list of eight and frees its slot; the head starts
once every member is armed for it; a beat reads its activation rows from the store, multiplies them into the member's
band, and the last beat ends the broadcast. An uncorrectable row ends it and fails the member. Drains and the reduce
tree (R68, R77, R78, R151, R152): a bank drain whose rows are clean writes its bytes and nothing else of any bank, a
landing row fails it, a remote drain ends when its writes are acknowledged, a submitted one at once; a reduction starts
when every member has submitted and its sums go to the store, a bank or the mover; one that still waits for a member
times out with REDUCE_TIMEOUT, which stops a submitter that has not started anew. Where the spec leaves something open,
its clauses follow the model's choices in log entries 19 and 26. -/
def Obligations.BroadcastsAndDrains : Prop :=
  (
  ∀ (p : PanId) (b : Bcast) (s : State),
    let pn := s.pan p.val
    let members := (bitsSet b.mask).map (fun m => p.val * 64 + m)
    (∀ rest, pn.posts = b :: rest →
      (8 ≤ pn.waitList.length → exec (.broadcastEnqueue p) s = .next s) ∧
      (pn.waitList.length < 8 → ∃ t, exec (.broadcastEnqueue p) s = .next t ∧ (t.pan p.val).posts = rest ∧
        (t.pan p.val).waitList = pn.waitList ++ [b] ∧
        ∀ x, (s.spk (spkOfFloret b.poster.val)).slot b.slot = some x → x.kind = .post → x.floret = floretNo b.poster.val →
          (s.spk (spkOfFloret b.poster.val)).drains = [] →
          (∀ e ∈ (s.spk (spkOfFloret b.poster.val)).slots, ∀ y, e.2 = some y → y.stage = .held → y.kind = .signal) →
            (t.spk (spkOfFloret b.poster.val)).slot b.slot = none ∧ t.mem = s.mem)) ∧
    (∀ rest, pn.running = none → pn.waitList = b :: rest →
      ((∃ i ∈ members, (s.spk i).armedFor (bcBid b.ctl) = none) → exec (.broadcastStart p) s = .next s) ∧
      ((∀ i ∈ members, ∃ n o, (s.spk i).armedFor (bcBid b.ctl) = some n ∧ (s.spk i).latQ[n]? = some o ∧ o.disagrees b.ctl = false) →
        exec (.broadcastStart p) s = .next (s.setPan p.val { pn with running := some b, waitList := rest }))) ∧
    (∀ (m : Nat) (n : Nat) (o : LatOp) (w a : Fmt),
      let i := p.val * 64 + m
      let sp := s.spk i
      let off := bcAaddr b.ctl + b.next * (4 * bcElem b.ctl)
      let soff := bcSaddr b.ctl + 4 * (b.next / 32)
      let row := s.read (storeBase p.val + off) (4 * bcElem b.ctl)
      let sa := if bcMx b.ctl then s.read (storeBase p.val + soff) 4 else []
      let held := s.storeHeld p.val off (4 * bcElem b.ctl) || (bcMx b.ctl && s.storeHeld p.val soff 4)
      pn.running = some b → bitsSet b.mask = [m] → sp.armedFor (bcBid b.ctl) = some n → sp.latQ[n]? = some o →
      o.wfmt = some w → o.afmt = some a → o.sparse = false → bcSparse b.ctl = false → bcElem b.ctl = a.bytes → o.ready w = true →
      held = false →
        ((∀ x ∈ wordsOf off (4 * bcElem b.ctl), s.eccAt (storeBase p.val / 16 + x) = none) →
          (bcMx b.ctl = true → ∀ x ∈ wordsOf soff 4, s.eccAt (storeBase p.val / 16 + x) = none) →
          (o.beats ≠ 0 ∨ o.ovw = true ∨ sp.bandBad o.tile o.band w.high = false) →
          ∀ o' tiles', o.denseBeat w a row sa sp.tiles = .ok o' tiles' →
            ∃ t, exec (.broadcastBeat p []) s = .next t ∧ { t with cores := s.cores } = s ∧
              t.spk i = { sp with latQ := putAt sp.latQ n o', tiles := tiles' } ∧ (∀ j, j ≠ i → t.spk j = s.spk j) ∧
              (let run := if bcTotal b.ctl ≤ b.next + 1 then none else some { b with next := b.next + 1 }
               t.pan p.val = { pn with running := run })) ∧
        ((∃ x ∈ wordsOf off (4 * bcElem b.ctl), s.eccAt (storeBase p.val / 16 + x) = some true) →
          ∃ t, exec (.broadcastBeat p []) s = .next t ∧ (t.pan p.val).running = none ∧
            (t.spk i).latQ = dropAt sp.latQ n ∧ (sp.frec.valid = false → (t.spk i).frec.code = 0x10)))) ∧
  (
  (∀ (i : SpkId) (tile : Fin 4) (d : Drain) (s : State), (s.spk i.val).drains.find? (fun x => x.tile = tile) = some d →
    let sp := s.spk i.val
    let x := i.val * 16 + d.floret.val
    let ended := fun (t : State) => (t.spk i.val).drains = sp.drains.filter (fun e => e.order ≠ d.order) ∧
      t.floret x = { s.floret x with latStat := orStat (s.floret x).latStat false false d.sat d.nan }
    (∀ off, d.dst = .bank off → sp.drainWaits d = false →
      (s.shadowHit i.val off d.data.length = true → exec (.drainComplete i tile) s = .next (s.failDrain i.val d 0x08)) ∧
      (let at2 := d.scaleAt.toNat
       let clean := fun (o n : Nat) => s.shadowHit i.val o n = false ∧ (n = 0 ∨ o + n ≤ 65536) ∧
         ∀ r ∈ rowsOf o n, ∀ w < 8, s.eccAt ((bankBase i.val + r * 128) / 16 + w) = none
       clean off d.data.length → clean at2 d.scale.length →
        ∃ t, exec (.drainComplete i tile) s = .next t ∧ ended t ∧ t.bankRead i.val at2 d.scale.length = d.scale ∧
          (d.scale = [] ∨ at2 + d.scale.length ≤ off ∨ off + d.data.length ≤ at2 →
            t.bankRead i.val off d.data.length = d.data) ∧
          ∀ (j : SpkId) (o : Nat), o < 65536 → (j ≠ i ∨ ((o < off ∨ off + d.data.length ≤ o) ∧
            (o < at2 ∨ at2 + d.scale.length ≤ o))) → t.bankByte j.val o = s.bankByte j.val o)) ∧
    (∀ a, d.dst = .remote a → if d.pieces = [] ∧ sp.drainSlots d = false then
        ∃ t, exec (.drainComplete i tile) s = .next t ∧ ended t ∧ t.mem = s.mem
      else exec (.drainComplete i tile) s = .next s) ∧
    (∀ rid, d.dst = .tree rid →
      (d.held = true → exec (.drainComplete i tile) s = .next s) ∧
      (d.held = false → ∃ t, exec (.drainComplete i tile) s = .next t ∧ ended t ∧ t.mem = s.mem))) ∧
  (∀ (i : SpkId) (rid : BitVec 8) (d : Drain) (s : State),
    (s.spk i.val).drains.find? (fun x => x.held && decide (x.dst = .tree rid)) = some d →
      ∃ t, exec (.heldDrainTimeout i rid) s = .next t ∧
        (t.spk i.val).drains = (s.spk i.val).drains.filter (fun e => e.order ≠ d.order) ∧
        ((s.spk i.val).frec.valid = false → (t.spk i.val).frec.code = 0x16 ∧ (t.spk i.val).frec.detail = d.sa)) ∧
  (∀ (p : PanId) (rid : BitVec 8) (r : PanRed) (s : State), (s.pan p.val).red rid = some r →
    let all := ∀ m ∈ bitsSet r.mask, ∃ t ∈ r.subs, t.member.val = m
    let bytes := (r.rows.flatMap (fun x => x)).flatMap (fun x => toLE 4 x.toNat)
    let at_ := storeBase p.val + redOff r.ctl
    (all → ∃ t, exec (.panicleReductionStart p rid) s = .next t ∧ (t.pan p.val).red rid = some { r with started := true } ∧
      { t with cores := s.cores } = s ∧ ∀ i, t.spk i = s.spk i) ∧
    (¬ all → exec (.panicleReductionStart p rid) s = .next s) ∧
    (r.started = true → redDst r.ctl = 0 → s.storeHeld p.val (redOff r.ctl) bytes.length = false →
      (∀ w ∈ wordsOf (redOff r.ctl) bytes.length, s.eccAt (storeBase p.val / 16 + w) = none) →
      ∃ t, exec (.panicleReductionDone p rid) s = .next t ∧ (t.pan p.val).red rid = none ∧ t.read at_ bytes.length = bytes ∧
        ∀ b, b < at_ ∨ at_ + bytes.length ≤ b → Tab.get 0 t.mem.bytes b = Tab.get 0 s.mem.bytes b) ∧
    (r.started = true → redDst r.ctl = 1 →
      let i := p.val * 64 + fld r.ctl 21 16
      s.shadowHit i (redOff r.ctl) bytes.length = false → redOff r.ctl + bytes.length ≤ 65536 →
      ∃ t, exec (.panicleReductionDone p rid) s = .next t ∧ (t.pan p.val).red rid = none ∧
        t.bankRead i (redOff r.ctl) bytes.length = bytes) ∧
    (r.started = true → redDst r.ctl = 2 → ∃ t q, exec (.panicleReductionDone p rid) s = .next t ∧
      (t.pan p.val).red rid = none ∧ t.mem = s.mem ∧ (t.leaf p.val).posts = (s.leaf p.val).posts ++ [q] ∧
      q.payload = if s.redLen p.val r.mask r.ctl < bytes.length then (r.rows.flatMap (fun x => x)).flatMap (fun x => toLE 2 (toBf16 x))
        else bytes) ∧
    (r.started = false → r.subs ≠ [] → ¬ all → ∃ t, exec (.reduceTimeout p rid) s = .next t ∧ (t.pan p.val).red rid = none ∧ t.mem = s.mem ∧
      ∀ u ∈ r.subs, let x := (p.val * 64 + u.member.val) * 16 + u.floret.val
        (s.floret x).status ≠ .idle → (s.floret x).run = u.run → (t.floret x).status = .faulted) ∧
    (r.started = true ∨ r.subs = [] ∨ all → exec (.reduceTimeout p rid) s = .next s)))

/-- The rule of the shared arbiter (R225): the winner is a waiting requester of the highest priority among those that
wait, the first of it from where its search starts; with nobody waiting nobody wins. Who waits (R45, R232, R257, R258,
R297): the florets of a spikelet whose oldest bank request need not wait for a drain, the class of an open request of a
pseudo-channel, the class of a packet that a panicle put into the fabric, with room for it in the L port's buffer, and
the channel of the oldest packet routed to a sub-sheaf at its next straw, each until it is granted. Turn hints of
florets (R48, R228): after a decision of a bank, a floret whose request is still in the class has a valid hint with the
number of requests ahead of it and the class's estimate plus that many mean grants of the class, both saturating, and is
BLOCKED if it was RUNNABLE. Where the class was granted, the requests behind its first have lost (log entry 163). A
decision (R225, R226, R228, R229): the winner's request is granted and counted and the next search at its priority
starts behind it, the others have waited on (newcomers at most as long, log entry 167); without requests nothing is
granted. In a pseudo-channel a pending emergency refresh wins, an idle slot serves a pending one (R236), and the one
request that the winning class serves next is granted (R233); a granted packet is the oldest of its class that has room
(R257, R258), and at a straw the oldest of its channel, or of the share that is due (R297, R339). Preemption and stalls
(R226, R227, R49, R259, R298): the emergency requester splits a grant of more than 64 bytes at the next 64-byte boundary
and the rest stands at the head of its class; the stall watchdog withdraws the grant, and the holder's operation fails:
a lattice operation, a drain or a floret's bank request with BANK_STALL, a packet being injected by its aborted tail,
which frees its floret's slot, or one on a straw, whose context is named (log entry 159). -/
def Obligations.ArbitersDecide : Prop :=
  (
  ∀ (n : Nat) (prio : Nat → Nat) (start : Tab Nat) (ws : List Nat), 0 < n → (∀ r ∈ ws, r < n) →
    (ws = [] → winnerOf n prio start ws = none) ∧
    (ws ≠ [] → ∃ w, winnerOf n prio start ws = some w ∧ w ∈ ws ∧ (∀ r ∈ ws, prio r ≤ prio w) ∧
      ∀ k < n, (Tab.get 0 start (prio w) + k) % n ∈ ws → prio ((Tab.get 0 start (prio w) + k) % n) = prio w →
        (∀ j < k, (Tab.get 0 start (prio w) + j) % n ≠ w) → (Tab.get 0 start (prio w) + k) % n = w)) ∧
  (
  ∀ s : State,
    (∀ a, ∀ r ∈ s.waitingAt a, r < arbSize a) ∧
    (∀ (a : ArbId) (r : Nat), r < arbSize a → 0 < Tab.get 0 (s.arb a).reqs r → r ∈ s.waitingAt a) ∧
    (∀ (i : SpkId) (r : BankReq) (rest : List BankReq), (s.spk i.val).bankQ = r :: rest → (s.spk i.val).drainFirst r = false →
      2 ∈ s.waitingAt (.bank i)) ∧
    (∀ (n : StackId) (pc : Fin 64), ∀ o ∈ (s.stack n.val).openReqs, o.granted = false → linePc o.req.line = pc →
      o.req.cls.val ∈ s.waitingAt (.hbm n pc)) ∧
    (∀ (p : PanId) (r : Nat), r < 4 → ∀ q ∈ s.fab.sent, s.injects p.val r q = true → q ∉ (s.arb (.inject p)).given →
      (∀ x ∈ s.fab.routed, x.pkt ≠ q) → flitsOn q.vc (s.arb (.inject p)).given + flitsOf q ≤ 33 → r ∈ s.waitingAt (.inject p)) ∧
    (∀ (w : StrawId) (n vc : Nat) (q : Packet) (rest : List Packet), vc < 8 → s.sheafOf w.val = some n →
      s.shfWaits n (w.val / 4) vc = q :: rest → s.shfNext n (w.val / 4) q = some w.val → vc ∈ s.waitingAt (.sheaf w))) ∧
  (
  ∀ (i : SpkId) (elapsed len w : Nat) (pre post : List BankReq) (r : BankReq) (s : State),
    let a := ArbId.bank i
    let x := i.val * 16 + r.floret.val
    Tab.get 0 (s.arb a).reqs 3 = 0 → winnerOf 3 (s.prioOf a) (s.arb a).start (s.waitingAt a) = some w →
    (s.spk i.val).bankQ.drop (if w = 2 then 1 else 0) = pre ++ r :: post → (∀ q ∈ post, q.floret ≠ r.floret) →
      ∃ t, exec (.arbiterDecision a elapsed len) s = .next t ∧ (t.floret x).hint.getLsbD 63 = true ∧
        fld (t.floret x).hint 7 0 = Nat.min pre.length 255 ∧
        (let left := (s.waitingAt a).erase w
         let e := classEst (t.arb a) (serveOrder 3 (s.prioOf a) left.length (t.arb a).start left)
         fld (t.floret x).hint 31 8 = Nat.min (e + meanTimes pre.length (Tab.get [] (t.arb a).lensOf 2)) (2 ^ 24 - 1)) ∧
        (∀ h, w ≠ 2 → Tab.get none (t.arb a).hint 2 = some h →
          fld (t.floret x).hint 31 8 = Nat.min (h.est + meanTimes pre.length (Tab.get [] (t.arb a).lensOf 2)) (2 ^ 24 - 1)) ∧
        (t.floret x).status = (if (s.floret x).status = .runnable then .blocked .bank else (s.floret x).status) ∧
        (t.floret x).sregs = (s.floret x).sregs ∧ (t.floret x).pc = (s.floret x).pc ∧ t.spk i.val = s.spk i.val ∧ t.mem = s.mem) ∧
  (
  (∀ (a : ArbId) (elapsed len : Nat) (s : State),
    let b := s.arb a
    let n := arbSize a
    let calm := match arbEmergency a with
      | some e => Tab.get 0 b.reqs e = 0
      | none => True
    let bankLike := match a with
      | .hbm _ _ => False
      | .inject p => ∀ m ∈ (s.pan p.val).movs, m.stage ≠ .waiting
      | _ => True
    bankLike → calm →
      (s.waitingAt a = [] → ∃ t, exec (.arbiterDecision a elapsed len) s = .next t ∧ (t.arb a).holder = none ∧
        (t.arb a).reqs = b.reqs ∧ t.cores = s.cores ∧ t.mem = s.mem) ∧
      (∀ w, winnerOf n (s.prioOf a) b.start (s.waitingAt a) = some w → w ∈ s.waitingAt a →
        ∃ t, exec (.arbiterDecision a elapsed len) s = .next t ∧
          Tab.get 0 (t.arb a).reqs w = Tab.get 0 b.reqs w - 1 ∧ (∀ r, r ≠ w → Tab.get 0 (t.arb a).reqs r = Tab.get 0 b.reqs r) ∧
          Tab.get 0 (t.arb a).waited w = 0 ∧
          (∀ r ∈ s.waitingAt a, r ≠ w → Tab.get 0 b.waited r ≤ Tab.get 0 (t.arb a).waited r ∧
            Tab.get 0 (t.arb a).waited r ≤ Tab.get 0 b.waited r + elapsed ∧
            (r ∈ b.known → Tab.get 0 (t.arb a).waited r = Tab.get 0 b.waited r + elapsed)) ∧
          Tab.get 0 (t.arb a).start (s.prioOf a w) = (w + 1) % n ∧ s.prioOf a w < 4 ∧
          (∀ p, p ≠ s.prioOf a w → Tab.get 0 (t.arb a).start p = Tab.get 0 b.start p) ∧ (t.arb a).holder.map (·.who) = some w ∧
          (Tab.get {} (t.arb a).ctr w).grants = satAdd (Tab.get {} b.ctr w).grants 1 ∧ t.mem = s.mem ∧
          (∀ p q, a = .inject p → (s.injReady p w).head? = some q → t.injPkt p.val w = some q ∧ q ∈ s.fab.sent) ∧
          (∀ v n q, a = .sheaf v → s.sheafOf v.val = some n → q ∈ s.shfQueue v w →
            (if w = 2 ∨ w = 3 then ((s.straw v.val).nextShare (s.shfQueue v w) 33).2 else (s.shfQueue v w).head?) = some q →
              t.stalledOn v.val w = some q ∧ q ∈ s.shfRouted n (v.val / 4) w ++ s.shfNamed v.val w))) ∧
  (∀ (n : StackId) (pc : Fin 64) (elapsed len : Nat) (s : State),
    let b := s.arb (.hbm n pc)
    let k := s.stack n.val
    let pending := Tab.get 0 k.refresh pc.val
    (0 < Tab.get 0 b.reqs 6 → ∃ t, exec (.arbiterDecision (.hbm n pc) elapsed len) s = .next t ∧
      (t.arb (.hbm n pc)).holder.map (·.who) = some 6 ∧ Tab.get 0 (t.stack n.val).refresh pc.val = pending - 1 ∧ t.mem = s.mem) ∧
    (Tab.get 0 b.reqs 6 = 0 → k.throttled = false → s.pwr.grnThrottle = false → s.waitingAt (.hbm n pc) = [] → 0 < pending →
      ∃ t, exec (.arbiterDecision (.hbm n pc) elapsed len) s = .next t ∧ (t.arb (.hbm n pc)).holder.map (·.who) = some 6 ∧
        Tab.get 0 (t.stack n.val).refresh pc.val = pending - 1 ∧ (t.stack n.val).openReqs = k.openReqs ∧ t.mem = s.mem) ∧
    (Tab.get 0 b.reqs 6 = 0 → (k.throttled || s.pwr.grnThrottle) = true → k.gapOwed.getLsbD pc.val = true →
      ∃ t, exec (.arbiterDecision (.hbm n pc) elapsed len) s = .next t ∧
        (t.stack n.val) = { k with gapOwed := putBit k.gapOwed pc.val false } ∧
        (t.arb (.hbm n pc)).holder = b.holder ∧ (t.arb (.hbm n pc)).reqs = b.reqs ∧ t.mem = s.mem) ∧
    (∀ w, Tab.get 0 b.reqs 6 = 0 → k.throttled = false → s.pwr.grnThrottle = false → s.waitingAt (.hbm n pc) ≠ [] →
      winnerOf 6 (s.prioOf (.hbm n pc)) b.start (s.waitingAt (.hbm n pc)) = some w →
      ∃ t, exec (.arbiterDecision (.hbm n pc) elapsed len) s = .next t ∧
        Tab.get 0 (t.stack n.val).lvl (pc.val * 4 + s.prioOf (.hbm n pc) w) =
          satAdd (Tab.get 0 k.lvl (pc.val * 4 + s.prioOf (.hbm n pc) w)) 1 ∧
        (t.arb (.hbm n pc)).holder.map (·.who) = some w ∧ s.prioOf (.hbm n pc) w < 4 ∧
        Tab.get 0 (t.arb (.hbm n pc)).start (s.prioOf (.hbm n pc) w) = (w + 1) % 6 ∧
        (∀ p, p ≠ s.prioOf (.hbm n pc) w → Tab.get 0 (t.arb (.hbm n pc)).start p = Tab.get 0 b.start p) ∧
        ∀ o, k.served pc w (len / 2) = [o] → (∀ g ∈ b.rest, g.who ≠ w) → w ≠ 4 → (w = 5 → k.fixesAt pc = []) →
          wholeLine o.req = false →
          k.openReqs.find? (fun x => x.id = o.id) = some o → (t.stack n.val).openReqs.map (fun x => (x.id, x.req, x.granted)) =
            k.openReqs.map (fun x => (x.id, x.req, x.granted || decide (x.id = o.id)))))) ∧
  (
  (∀ (a : ArbId) (e moved : Nat) (h : Grant) (s : State), arbEmergency a = some e → (s.arb a).holder = some h → h.who ≠ e →
    let b := s.arb a
    let cut := (moved + 63) / 64 * 64
    ∃ t, exec (.emergencyPreempt a moved) s = .next t ∧ 0 < Tab.get 0 (t.arb a).reqs e ∧
      (if 64 < h.bytes ∧ h.whole = false ∧ cut < h.bytes then
        (t.arb a).holder = none ∧ (t.arb a).rest.head? = some { h with bytes := h.bytes - cut, aim := h.aim.after (cut / 64) }
       else (t.arb a).holder = some h ∧ (t.arb a).rest = b.rest) ∧
      ∀ r, r ≠ e → Tab.get 0 (t.arb a).reqs r = Tab.get 0 b.reqs r) ∧
  (∀ (a : ArbId) (s : State), (s.arb a).holder = none → exec (.grantStallWatchdog a) s = .next s) ∧
  (∀ (p : PanId) (h : Grant) (s : State), (s.arb (.inject p)).holder = some h →
    ∀ c ∈ [Instr.grantStallWatchdog (.inject p), .injStall p],
      let stalls := fun (t : State) => exec c s = .next t ∧ (t.arb (.inject p)).holder = none ∧
        t.panArb p.val = { s.panArb p.val with stall := true }
      (s.injPkt p.val h.who = none → ∃ t, stalls t ∧ t.fab.sent = s.fab.sent ∧ { t with grn := s.grn, fab := s.fab } = s) ∧
      (∀ q, s.injPkt p.val h.who = some q → q.kind = 1 → 0x80 ≤ q.op.toNat → ∃ t, stalls t ∧
        t.fab.sent = s.fab.sent.erase q ∧ { t with grn := s.grn, fab := s.fab, freeIx := s.freeIx } = s) ∧
      (∀ q i n x, s.injPkt p.val h.who = some q → q.kind = 0 → q.op.toNat < 0x20 → ecFn q.src < 16 → ecSpkIx q.src = i →
        fld q.rtag 7 0 = n → (s.spk i).slot n = some x → x.stage = .sent → q.rtag.getLsbD 8 = (s.spk i).parity.getLsbD n → (s.spk i).drains = [] →
        (∀ e ∈ (s.spk i).slots, ∀ y, e.2 = some y → y.stage = .held → y.kind = .signal) →
        ∃ t, stalls t ∧ t.fab.sent = s.fab.sent.erase q ∧ (t.spk i).slot n = none)) ∧
  (∀ (w : StrawId) (h : Grant) (s : State), (s.arb (.sheaf w)).holder = some h →
    ∀ c ∈ [Instr.grantStallWatchdog (.sheaf w), .shfStall w],
      ∃ t, exec c s = .next t ∧ (t.arb (.sheaf w)).holder = none ∧ { t with grn := s.grn, fab := s.fab } = s ∧
        ∀ k, s.stalledOn w.val h.who = some k → t.fab.sent = s.fab.sent.erase k ∧
          (t.straw w.val).stalls = (s.straw w.val).stalls ++ [k.ctx]) ∧
  (∀ (i : SpkId) (h : Grant) (s : State), (s.arb (.bank i)).holder = some h →
    let s0 := s.setArb (.bank i) { s.arb (.bank i) with holder := none }
    ∀ c ∈ [Instr.grantStallWatchdog (.bank i), .bankGrantStall i],
      (∀ k, h.aim = .latOp k → exec c s = .next (s0.failLat i.val k 0x09)) ∧
      ∀ k d, h.aim = .latDrain k → (s.spk i.val).drains.find? (fun d => d.order = k) = some d →
        exec c s = .next (s0.failDrain i.val d 0x09)) ∧
  (∀ (i : SpkId) (h : Grant) (r : BankReq) (rest : List BankReq) (s : State),
    (s.arb (.bank i)).holder = some h → h.who = 2 → h.aim = .other → (s.spk i.val).bankQ = r :: rest →
    ∀ c ∈ [Instr.grantStallWatchdog (.bank i), .bankGrantStall i],
      ∃ t, exec c s = .next t ∧ (t.arb (.bank i)).holder = none ∧ t.mem = s.mem ∧
        (t.spk i.val).bankQ = rest.filter (fun q => !(decide (q.floret = r.floret) && decide (q.order = r.order))) ∧
        ((s.spk i.val).frec.valid = false → (t.spk i.val).frec.code = 0x09 ∧ (t.spk i.val).frec.detail = BitVec.ofNat 64 r.off)))

/-- Requests at their home (R188, R314, Table 9-8): one that passes the checks, at words without error that no prepared
bundle holds, in lines without an open request of a controller with room, is performed and answered with status 0: reads
return the old bytes, read-modify-writes the old word (a signal none), writes change exactly their bytes; a wait whose
cell has reached its threshold is answered, another is registered. One that fails a check is answered with that status
and does nothing. Where the spec leaves something open, its clauses follow the model's choices in log entries 44 and
155. -/
def Obligations.RequestsArePerformed : Prop :=
  ∀ (pkt : Packet) (h : Home) (room : Nat) (s : State), Leads pkt h room →
    let at_ := fun (op : Nat) => { pkt with op := BitVec.ofNat 8 op }
    let fits := fun (op : Nat) => s.homeCheck (at_ op) h room = 0 ∧ s.holder h (pktLen (at_ op)) = none ∧
      s.homeClean h (pktLen (at_ op)) ∧ s.grnBusy h (pktLen (at_ op)) = false
    let v : W64 := BitVec.ofNat 64 (ofLE (s.homeBytes h 8))
    (∀ q ∈ [(Instr.addReq pkt, 0x03, v + pkt.opa, v), (.swapReq pkt, 0x04, pkt.opa, v), (.orReq pkt, 0x05, v ||| pkt.opa, v),
        (.casReq pkt, 0x06, if v = pkt.opa then pkt.opb else v, v), (.syncSigReq pkt, 0x08, v + pkt.opa, 0),
        (.putReq pkt, 0x02, pkt.opa, 0)],
      fits q.2.1 → ∃ u : State, exec q.1 s = .next (u.reply (at_ q.2.1) 0 q.2.2.2) ∧
        HomeWritten s u h (toLE 8 q.2.2.1.toNat) ∧ (s.mem.waits = [] → { u with mem := s.mem, cores := s.cores, grn := s.grn } = s.consume (at_ q.2.1))) ∧
    (fits 0x01 → ∃ u : State, exec (.getReq pkt) s = .next (u.reply (at_ 0x01) 0 v) ∧ u.mem = s.mem ∧
      { u with cores := s.cores, grn := s.grn } = s.consume (at_ 0x01)) ∧
    (fits 0x09 → v < pkt.opa → ∃ t, exec (.syncWaitReq pkt) s = .next t ∧ t.homeBytes h 8 = s.homeBytes h 8 ∧
      t.mem.waits = s.mem.waits ++ [{ addr := h.addr, threshold := pkt.opa, who := .packet (at_ 0x09) }]) ∧
    (fits 0x09 → pkt.opa ≤ v → ∃ u : State, exec (.syncWaitReq pkt) s = .next (u.reply (at_ 0x09) 0 0) ∧ u.mem.waits = s.mem.waits) ∧
    (fits 0x10 → ∃ u : State, exec (.readReq pkt) s = .next (u.replyData (at_ 0x10) (s.homeBytes h pkt.opa.toNat)) ∧ u.mem = s.mem) ∧
    (fits 0x11 → ∃ u : State, exec (.writeReq pkt) s = .next (u.reply (at_ 0x11) 0 0) ∧ HomeWritten s u h pkt.payload) ∧
    (∀ q ∈ [(Instr.getReq pkt, 0x01), (.putReq pkt, 0x02), (.addReq pkt, 0x03), (.swapReq pkt, 0x04), (.orReq pkt, 0x05),
        (.casReq pkt, 0x06), (.syncSigReq pkt, 0x08), (.syncWaitReq pkt, 0x09), (.readReq pkt, 0x10), (.writeReq pkt, 0x11)],
      let st := s.homeCheck (at_ q.2) h room
      st ≠ 0 → exec q.1 s = .next ((s.consume (at_ q.2)).reply (at_ q.2) st 0))

/-- Replies and steward messages (R137, R315, R335, R424, R425): a floret's reply with status OK frees its slot and
lands its value, DOMAIN_RESETTING leaves the operation to be reissued, another status raises its fault, and one that
matches no slot changes nothing; a stale generation of its context, or of the domain that asked for itself, is only
counted; a forwarded command enters its proxy queue unless 4,096 are in flight (R28), a completion and an edge reach the
master, and an absent coordinate and firmware's own messages are only answered. Where the spec leaves something open,
its clauses follow the model's choices in log entry 78. -/
def Obligations.RepliesAndStewardMessages : Prop :=
  (∀ (pkt : Packet) (x : Slot) (s : State),
    let i := ecSpkIx pkt.dst
    let n := pkt.rtag.toNat % 256
    let f := i * 16 + x.floret.val
    let s0 := s.consume pkt
    ecFn pkt.dst < 16 →
      ((s.spk i).slot n = none → pkt.gen = (s.ctx pkt.ctx.toNat).gen → exec (.reply pkt) s = .next s0) ∧
      (pkt.gen ≠ (s.ctx pkt.ctx.toNat).gen →
        let d := 8 + tillerOfSpk i
        exec (.reply pkt) s = .next (s0.setDom d { s.dom d with ctxStale := satAdd (s.dom d).ctxStale 1 })) ∧
      ((s.spk i).slot n = some x → x.floret.val = ecFn pkt.dst → x.stage = .sent →
        pkt.rtag.getLsbD 8 = (s.spk i).parity.getLsbD n → pkt.gen = (s.ctx pkt.ctx.toNat).gen → (s.spk i).drains = [] →
        (∀ e ∈ (s.spk i).slots, ∀ y, e.2 = some y → y.stage = .held → y.kind = .signal) →
        (pkt.status = 1 → exec (.reply pkt) s = .next (s0.setSlot i n { x with stage := .resetting, drst := true })) ∧
        (pkt.status = 0 → s.slotHides i x = false → ∃ t, exec (.reply pkt) s = .next t ∧ (t.spk i).slot n = none ∧
          t.floret f = (if x.kind ∈ [.get, .add, .swap, .or, .cas] then (s.floret f).land x.dst pkt.opa else s.floret f) ∧
          (∀ y, y ≠ f → t.floret y = s.floret y) ∧ t.mem = s.mem) ∧
        (pkt.status ∈ [2, 3, 4, 5, 6, 7] → x.kind ∈ [.get, .put, .add, .swap, .or, .cas, .signal, .wait] →
          ∃ t, exec (.reply pkt) s = .next t ∧ (t.spk i).slot n = none ∧ (t.floret f).sregs = (s.floret f).sregs ∧
          ((s.floret f).status ≠ .idle → (t.floret f).status = .faulted) ∧
          ((s.spk i).frec.valid = false → (t.spk i).frec.code = BitVec.ofNat 8 (statusFault pkt.status.toNat))))) ∧
  (∀ (pkt : Packet) (s : State), ecFn pkt.dst = 0x60 →
    let d := 8 + ecTil pkt.dst
    exec (.reply pkt) s = .next (if pkt.gen = (s.dom d).gen then s.consume pkt else
      (s.consume pkt).setDom d { s.dom d with domStale := satAdd (s.dom d).domStale 1 })) ∧
  (∀ (pkt : Packet) (src : Ec) (q : QueueId) (seq : W32) (cfg : W32) (bytes : List Byte) (s : State),
    let s0 := (s.consume pkt).reply pkt 0 0
    let c : HCmd := { seq := seq, bytes := bytes, cfg := cfg, gen := (s.ctx (cfg.extractLsb' 12 12).toNat).gen, via := some src }
    exec (.stewardMsg pkt (.forward src q seq cfg bytes)) s = .next (if 4096 ≤ s.inflight then s else s0.addCmd q.val c) ∧
    (∀ post e, exec (.stewardMsg pkt (.edge post e)) s =
      .next (if s0.isMaster then (if post then s0.recordEdge e else s0.removeEdge e) else s0)) ∧
    (∀ (m : Fin 64) (st : BitVec 16) (res : W64) (d : HCmd), s0.cmd q seq = some d → d.via = none → m ∈ d.away →
      exec (.stewardMsg pkt (.completion q seq m st res)) s = .next (s0.memberDone q seq m st res)) ∧
    (∀ axis at_, exec (.stewardMsg pkt (.absent axis at_)) s = .next s0) ∧
    exec (.stewardMsg pkt (.firmware src bytes)) s = .next s0)

/-- A walk (R177 to R182): through valid, aligned tables to the leaf of a 64 KiB page, or to a larger leaf at a higher
level; an invalid entry is refused with TRANSLATION, an uncorrectable one with ECC_UE, a context without tables with
TRANSLATION. Walks that end, invalidations and far misses (R184 to R186, R199 to R202): the slot that a walk serves goes
on with its result; an invalidation removes exactly the entries that overlap its range and is acknowledged once no
access in it is under way, the oldest such first; a far miss fills a free frame of the context's pool with the page's
bytes from host memory and points its entry there, with FAR and D clear. Where the spec leaves something open, its
clauses follow the model's choices in log entry 10. -/
def Obligations.PagesAreTranslated : Prop :=
  (
  ∀ (ctx : BitVec 12) (va : Nat) (s : State),
    let c := s.ctx ctx.toNat
    let entry := fun (a : Nat) => (BitVec.ofNat 64 (ofLE (s.read a 8)) : W64)
    let a1 := c.l1 + 8 * (va / 2 ^ 30 % 2 ^ 13)
    let e1 := entry a1
    let a2 := pteAddr e1 + 8 * (va / 2 ^ 21 % 2 ^ 9)
    let e2 := entry a2
    let a3 := pteAddr e2 + 8 * (va / 2 ^ 16 % 2 ^ 5)
    let e3 := entry a3
    let table := fun (e : W64) (n : Nat) => e.getLsbD 63 = true ∧ e.getLsbD 62 = false ∧ pteAddr e % n = 0 ∧ pteAddr e < granaryEnd
    let leaf := fun (e : W64) (n : Nat) =>
      e.getLsbD 63 = true ∧ e.getLsbD 62 = true ∧ e.getLsbD 59 = false ∧ pteAddr e % n = 0 ∧ pteAddr e < granaryEnd
    (c.st = .free → s.walk ctx va = .refuse 3) ∧
    (c.st ≠ .free → s.lineUe a1 8 = true → s.walk ctx va = .refuse 4) ∧
    (c.st ≠ .free → s.lineUe a1 8 = false →
      (e1.getLsbD 63 = false → s.walk ctx va = .refuse 3) ∧
      (leaf e1 (2 ^ 30) → s.walk ctx va = .leaf { size := 30, pte := e1, at_ := a1 }) ∧
      (table e1 4096 → s.lineUe a2 8 = false →
        (leaf e2 (2 ^ 21) → s.walk ctx va = .leaf { size := 21, pte := e2, at_ := a2 }) ∧
        (table e2 256 → s.lineUe a3 8 = false →
          (leaf e3 (2 ^ 16) → s.walk ctx va = .leaf { size := 16, pte := e3, at_ := a3 }) ∧
          (e3.getLsbD 63 = false → s.walk ctx va = .refuse 3) ∧
          (e3.getLsbD 63 = true → e3.getLsbD 62 = false → s.walk ctx va = .refuse 3))))) ∧
  (
  (∀ (p : PanId) (j : Nat) (x : Xl) (i : SpkId) (n : Nat) (y : Slot) (s : State),
    let pn := s.pan p.val
    let s1 := s.setPan p.val { pn with walks := dropAt pn.walks j }
    pn.walks[j]? = some x → pn.misses = [] → x.who = .slot i n → (s.spk i.val).slot n = some y → y.stage = .translating →
      exec (.walkComplete p j true) s = .next ((s1.slotXlat i.val n y x.va (.refuse 4)).pump i.val) ∧
      (let q := s1.endWalk p.val x.ctx x.gen x.va x.write
       exec (.walkComplete p j false) s = .next ((q.1.slotXlat i.val n y x.va q.2).pump i.val))) ∧
  (∀ (p : PanId) (c : CtxId) (va len : W64) (s : State),
    ∃ t, exec (.invalidation p c va len) s = .next t ∧ (t.pan p.val).inval = (s.pan p.val).inval ++ [(BitVec.ofNat 12 c.val, va.toNat, len.toNat)] ∧
      (∀ e, e ∈ (t.pan p.val).tlb ↔ e ∈ (s.pan p.val).tlb ∧ ¬ (e.ctx = BitVec.ofNat 12 c.val ∧
        e.vpn * 2 ^ e.size < va.toNat + len.toNat ∧ va.toNat < (e.vpn + 1) * 2 ^ e.size)) ∧
      { t with cores := s.cores } = s ∧ (∀ q, q ≠ p.val → t.pan q = s.pan q) ∧ (∀ i, t.spk i = s.spk i) ∧
      ∀ y, t.floret y = s.floret y) ∧
  (∀ (p : PanId) (s : State), (∀ v ∈ (s.pan p.val).inval, s.accessIn p.val v.1 v.2.1 v.2.2 = true) →
    exec (.invalidationAck p) s = .next s) ∧
  (∀ (p : PanId) (ctx : BitVec 12) (va len : Nat) (pre post : List (BitVec 12 × Nat × Nat)) (s : State),
    (s.pan p.val).inval = pre ++ (ctx, va, len) :: post → (∀ v ∈ pre, s.accessIn p.val v.1 v.2.1 v.2.2 = true) →
    (s.accessIn p.val ctx va len = false → ∀ v, s.host.invals = [v] → v.ctx = ctx → v.va = va → v.len = len →
      (v.waits = [p] →
        let s1 := s.setPan p.val { s.pan p.val with inval := pre ++ post }
        let s2 := { s1 with host := { s1.host with invals := [] } }
        let c := s.ctx ctx.toNat
        let us : List Unmapped := v.frames.map (fun f => { ext := f, at_ := s.refcnt })
        exec (.invalidationAck p) s =
          .next ((s2.setCtx ctx.toNat { c with unmapped := c.unmapped ++ us }).finish v.queue v.seq 0 v.pages)) ∧
      ((∃ q ∈ v.waits, q ≠ p) → ∃ t, exec (.invalidationAck p) s = .next t ∧ (t.pan p.val).inval = pre ++ post ∧
        t.host.invals = [{ v with waits := v.waits.filter (· ≠ p) }] ∧ { t with cores := s.cores, host := s.host } = s))) ∧
  (∀ (c : CtxId) (va : Local) (k f at_ host : Nat) (s : State),
    let x := s.ctx c.val
    let page := va.toNat / 65536 * 65536
    let e := ofLE (s.read at_ 8)
    let slot := e / 2 ^ 16 % 2 ^ 28
    x.farPool[k]? = some f → s.l3At c.val page = some at_ → x.farHost slot = some host → x.st = .live → s.isMaster = true → e / 2 ^ 59 % 2 = 1 →
    (∀ h ∈ x.farHeld, h.frame ≠ f) → (∀ q, (s.pan q).farWait = [] ∧ (s.pan q).farMore = []) →
    (at_ + 8 ≤ f * 65536 ∨ f * 65536 + 65536 ≤ at_) →
      ∃ t, exec (.farMissService c va k) s = .next t ∧ t.read (f * 65536) 65536 = s.hostRead x.fn host 65536 ∧
        ofLE (t.read at_ 8) = (pteFar e false (f * 65536)).toNat ∧ t.mem.host = s.mem.host ∧
        (t.ctx c.val).farHeld = x.farHeld ++ [{ frame := f, va := page, slot := slot }] ∧
        t.host.farFills = satAdd s.host.farFills 1 ∧
        (∀ m ∈ t.host.farMisses, m ∈ s.host.farMisses ∧ ¬ (m.ctx = BitVec.ofNat 12 c.val ∧ m.va = page))))

/-- The panicle mover (R157, R158, R51, R208): the oldest post becomes a descriptor in flight and its slot is freed; a
transfer between stores of the package leaves the source's bytes at the destination and no other byte changed; a bad
descriptor, a failed access or a timeout raises MOV_FAIL on the poster; a run-ahead write lands only in landing rows of
its step. Where the spec leaves something open, its clauses follow the model's choices in log entries 7 and 49. -/
def Obligations.MoverDescriptors : Prop :=
  (∀ (p : PanId) (m : MovDesc) (rest : List MovDesc) (s : State),
    let pn := s.pan p.val
    let free := match m.src with
      | .sequencer => True
      | .floret f _ _ => let sp := s.spk (spkOfFloret f.val)
        sp.drains = [] ∧ ∀ e ∈ sp.slots, ∀ y, e.2 = some y → y.stage = .held → y.kind = .signal
    pn.movPosts = m :: rest → s.movUsed p.val < 256 → free →
      ∃ t, exec (.moverDescriptorAccept p) s = .next t ∧ (t.pan p.val).movPosts = rest ∧
        (t.pan p.val).movs = pn.movs ++ [{ m with id := pn.movNext, tag := pn.freeTag }] ∧ (t.pan p.val).movNext = pn.movNext + 1 ∧
        (match m.src with
          | .sequencer => True
          | .floret f _ _ => ∀ x, (s.spk (spkOfFloret f.val)).slot m.post = some x → x.kind = .post → x.floret = floretNo f.val →
            (t.spk (spkOfFloret f.val)).slot m.post = none)) ∧
  (∀ (p : PanId) (id : Nat) (m : MovDesc) (f : FloretId) (pc : BitVec 20) (a : W64) (s : State),
    s.mov p.val id = some m → m.src = .floret f pc a →
    let fails := (s.movFail p.val m).settleAll
    (m.stage = .waiting → s.fenced p.val m = true → exec (.moverDescriptorStart p id) s = .next s) ∧
    (m.stage = .waiting → s.fenced p.val m = false → m.d.spec = false →
      (s.movBad m = true → exec (.moverDescriptorStart p id) s = .next fails) ∧
      (∀ g h, s.movBad m = false → s.gaddr m.d.src = some g → s.gaddr m.d.dst = some h → g.own = true → h.own = true →
        exec (.moverDescriptorStart p id) s = .next (s.setMov p.val { m with stage := .started }).settleAll)) ∧
    (m.stage = .started →
      exec (.moverDescriptorTimeout p id) s = .next fails ∧
      (m.out ≠ 0 → ∀ bs st, exec (.moverDescriptorComplete p id bs st) s = .next s) ∧
      (m.out = 0 → ∀ bs st, st ≠ 0 → exec (.moverDescriptorComplete p id bs st) s = .next fails) ∧
      (∀ (g h : GAddr) (q1 o1 q2 o2 : Nat) (bs : List Byte),
        let n := m.d.len.toNat
        s.movBad m = false → m.d.spec = false → m.d.sig = false → m.cut = false → m.out = 0 → m.data = [] → m.wrote = 0 → s.gaddr m.d.src = some g → s.gaddr m.d.dst = some h →
        g.own = true → h.own = true → ctxAddr g.loc = .store q1 o1 → ctxAddr h.loc = .store q2 o2 → n ≤ 2048 →
        g.loc % 65536 + n ≤ 65536 → h.loc % 65536 + n ≤ 65536 →
        s.homeCheck (s.movPkt p.val m 0x10 (BitVec.ofNat 64 n) []) (.store q1 o1) 524288 = 0 →
        s.homeCheck (s.movPkt p.val m 0x11 0 (s.storeRead q1 o1 n)) (.store q2 o2) 524288 = 0 →
        s.storeHeld q1 o1 n = false → s.storeHeld q2 o2 n = false → s.homeClean (.store q1 o1) n → s.homeClean (.store q2 o2) n →
          ∃ t, exec (.moverDescriptorComplete p id bs 0) s = .next t ∧
            HomeWritten s t (.store q2 o2) (s.storeRead q1 o1 n) ∧ t.mov p.val id = none))) ∧
  (∀ (p : PanId) (m : MovDesc) (f : FloretId) (pc : BitVec 20) (a : W64) (s : State), m.src = .floret f pc a →
    let i := spkOfFloret f.val
    let t := s.movFail p.val m
    (t.pan p.val).movs = (s.pan p.val).movs.filter (fun x => x.id ≠ m.id) ∧
    ((s.spk i).frec.valid = false → (t.spk i).frec.code = 0x38 ∧ (t.spk i).frec.detail = a ∧ (t.spk i).frec.kind = 3)) ∧
  (∀ (i : SpkId) (off : BitVec 16) (tag : BitVec 8) (bs : List Byte) (s : State),
    let good := tag = (s.spk i.val).landing ∧ ∀ r ∈ rowsOf off.toNat bs.length, (s.spk i.val).shadow.getLsbD r = true
    (good → ∃ t, exec (.runAheadWrite i off tag bs) s = .next t ∧ HomeWritten s t (.bank i.val off.toNat) bs) ∧
    (¬ good → exec (.runAheadWrite i off tag bs) s =
      .next (s.count (panOfSpk i.val) (fun c => { c with raDiscard := satAdd c.raDiscard 1 }))))

/-- Steps (R53, R54, R211, R213, R410, Table 5-8): a quiet panicle reports its step, a recorded fault fails it; a launch
waits for its reports, ends when its graph is done, and else commits its next step: landing rows stop being shadow rows,
its panicles are bound with all their spikelets (R171), these seeded, and awaited. A cancelled step leaves zero rows; an
exhausted budget fails the launch with the count of its steps, unless its timer pauses (R501, R536). Where the spec
leaves something open, its clauses follow the model's choices in log entries 8, 45, 47, 48 and 192. -/
def Obligations.StepsCommit : Prop :=
  (∀ (t : TillerId) (p : PanId) (l : Launch) (s : State), tillerOfPan p.val = t.val → s.launchOn p = some l → p ∈ l.waiting →
    (∀ code ec, s.panFault p.val = some (code, ec) →
      exec (.stepReport t p) s = .next (s.stepFault l code ec (l.index - 1))) ∧
    (s.panFault p.val = none → exec (.stepReport t p) s = .next (if s.panQuiet p.val then
      s.setLaunch { l with waiting := l.waiting.filter (· ≠ p) } else s))) ∧
  (∀ (t : TillerId) (l : Launch) (s : State), s.launches = [l] → (s.seqr t.val).launches = [l] → leadTiller l.graph = t.val →
    l.outcome = none →
    (l.running = true → l.waiting ≠ [] → exec (.stepCommit t) s = .next s) ∧
    (l.running = false ∨ l.waiting = [] →
      (l.graph.length ≤ l.step →
        let l' := { l with running := false, outcome := some (0, l.step) }
        exec (.stepCommit t) s = .next ((s.setLaunch l').settleLaunch l')) ∧
      (∀ d, l.graph[l.step]? = some d → l.graph.length = l.step + 1 → l.stage = .runAhead → s.ahead l = [] → s.deadUnit d = none →
        d.starts = [] →
        ∃ u, exec (.stepCommit t) s = .next u ∧ (∃ l', (u.seqr t.val).launches = [l'] ∧ l'.step = l.step + 1 ∧ l'.running = true ∧
          l'.waiting = d.panicles) ∧
          (∀ q ∈ d.landing, ∀ r ∈ q.2, (u.spk q.1.val).shadow.getLsbD r.val = false) ∧
          ∀ p ∈ d.panicles, (u.pan p.val).bound = some (l.ctx, l.gen) ∧ ∀ k < 64,
            let i := p.val * 64 + k
            ((s.pan p.val).bound ≠ some (l.ctx, l.gen) → (u.spk i).bound = some (l.ctx, l.gen)) ∧ (u.spk i).step = l.index ∧
              (u.spk i).ibuf = [] ∧
              (u.spk i).lfsr = lfsrSeed (s.ctx l.ctx.toNat).seed ((s.spkEc i 0).setWidth 64) l.index)) ∧
    (∀ d, l.graph[l.step]? = some d → l.stage ≠ .unmarked →
      ∃ u, exec (.stepCancel t) s = .next u ∧ (∃ l', (u.seqr t.val).launches = [l'] ∧ l'.stage = .unmarked ∧ l'.step = l.step) ∧
        ∀ q ∈ d.landing, ∀ r ∈ q.2, (u.spk q.1.val).shadow.getLsbD r.val = false ∧ (u.spk q.1.val).zero.getLsbD r.val = true) ∧
    exec (.stepBudget l.queue l.seq) s = .next (if s.budgetPaused l then s else (s.log 0x0403 2 (some l.ctx) (s.seqEc t.val) 0
      (if l.running then l.index - 1 else l.index).toNat).failLaunch l 0x10B l.step))

/-- The address hash (R218, R220): the stack and the stack-local address of a granary address by the rule's formulas;
every granary address has one stack and one stack-local address, and every stack-local address of every stack one
granary address; the pseudo-channel of a stack-local address. -/
def Obligations.GranaryHashIsABijection : Prop :=
  (∀ pa, pa < granaryEnd → (hashPa pa).1 < 24 ∧ (hashPa pa).2 < 2 ^ 36 ∧ unhash (hashPa pa).1 (hashPa pa).2 = pa) ∧
  (∀ pa, pa < granaryEnd →
    let q := pa / 4096 / 24
    let h := (q ^^^ (q / 2 ^ 5) ^^^ (q / 2 ^ 10) ^^^ (q / 2 ^ 15) ^^^ (q / 2 ^ 20)) % 32
    hashPa pa = ((pa / 4096 % 24 + h) % 24, q * 4096 + pa % 4096)) ∧
  (∀ n la, n < 24 → la < 2 ^ 36 → unhash n la < granaryEnd ∧ hashPa (unhash n la) = (n, la)) ∧
  ∀ la, pcOf la = (la / 2 ^ 8 % 64 ^^^ la / 2 ^ 14 % 64) ∧ pcOf la < 64

/-- Requests of a controller (R221 to R224, R235, R239 to R241): answered DOMAIN_RESETTING while the stack resets, not
issued as a run-ahead read while its pseudo-channel pauses, left waiting at an open limit, answered from the prefetch
buffer for a buffered demand read, else opened, and its class waits at the pseudo-channel's arbiter; a clean read
returns the line or merges the masked bytes of a write, an uncorrectable one answers ECC_UE and leaves the line; a
request that is not granted, or that has an earlier one for its line before it, waits; the timeout answers TIMEOUT and
is recorded. Where the spec leaves something open, its clauses follow the model's choices in log entry 145. -/
def Obligations.GranaryRequests : Prop :=
  (∀ (n : StackId) (r : GrnReq) (s : State), r.bytes.length = 64 →
    let k := s.stack n.val
    let pc := linePc r.line
    (k.resetting = true → ∃ t, exec (.granaryRequest n r) s = .next t ∧
      (t.stack n.val).replies = k.replies ++ [{ id := k.nextId, ctx := r.ctx, status := 1, data := [] }] ∧ { t with grn := s.grn } = s) ∧
    (k.resetting = false → r.cls = 3 → k.paused.getLsbD pc.val = true → exec (.granaryRequest n r) s = .next s) ∧
    (k.resetting = false → (r.cls = 3 → k.paused.getLsbD pc.val = false) → k.full r = true → exec (.granaryRequest n r) s =
      .next (s.setStack n.val { k with credit := k.credit ++ [r] })) ∧
    (k.resetting = false → k.full r = false → r.cls = 0 → r.line ∈ k.pfBuf → k.hasLine r.line = false → ∃ t, exec (.granaryRequest n r) s = .next t ∧
      (t.stack n.val).replies = k.replies ++ [{ id := k.nextId, ctx := r.ctx, status := 0, data := s.lineRead n r.line }] ∧
      (t.stack n.val).pfHit = satAdd k.pfHit 1 ∧ (t.stack n.val).openReqs = k.openReqs ∧ { t with grn := s.grn } = s) ∧
    (k.resetting = false → (r.cls = 3 → k.paused.getLsbD pc.val = false) → k.full r = false → r.cls ≠ 0 ∨ r.line ∉ k.pfBuf ∨ k.hasLine r.line = true → ∃ t, exec (.granaryRequest n r) s = .next t ∧
      (t.stack n.val).openReqs = k.openReqs ++ [{ id := k.nextId, req := r }] ∧ (t.stack n.val).nextId = k.nextId + 1 ∧
      r.cls.val ∈ t.waitingAt (.hbm n pc) ∧ { t with grn := s.grn } = s)) ∧
  (∀ (n : StackId) (id : Nat) (o : GrnOpen) (s : State),
    let k := s.stack n.val
    let r := o.req
    let at_ := lineAddr n r.line
    let gone := fun (t : State) => ∀ x ∈ (t.stack n.val).openReqs, x ∉ k.openReqs.filter (fun y => y.id = id)
    k.openReqs.find? (fun x => x.id = id) = some o → k.credit = [] →
      (o.granted = false ∨ k.turn o = false → exec (.granaryReadReturn n id {}) s = .next s) ∧
      (o.granted = true → k.turn o = true → s.lineMark n r.line ≠ some true →
        ∃ t, exec (.granaryReadReturn n id {}) s = .next t ∧ gone t ∧
          (∃ e ∈ (t.stack n.val).replies, e.id = id ∧ e.status = 0 ∧ e.data = if r.write then [] else s.lineRead n r.line) ∧
          t.lineRead n r.line = (if r.write then maskLine (s.lineRead n r.line) r.bytes r.mask else s.lineRead n r.line) ∧
          (∀ b, b < at_ ∨ at_ + 64 ≤ b → Tab.get 0 t.mem.bytes b = Tab.get 0 s.mem.bytes b) ∧
          (r.write = true → r.line ∉ (t.stack n.val).pfBuf)) ∧
      (o.granted = true → k.turn o = true → wholeLine r = false → ∃ t, exec (.granaryReadReturn n id { ue := true }) s = .next t ∧ gone t ∧
        (∃ e ∈ (t.stack n.val).replies, e.id = id ∧ e.status = 4 ∧ e.ctx = r.ctx) ∧ t.mem.bytes = s.mem.bytes ∧
        (t.stack n.val).ueCount = satAdd k.ueCount 1 ∧ t.lineMark n r.line = some true ∧ t.flt.count = s.flt.count + 1 ∧
        (k.ueValid = false → (t.stack n.val).ueValid = true ∧ (t.stack n.val).ueAddr = BitVec.ofNat 36 (r.line.toNat * 64)) ∧
        (k.ueValid = true → (t.stack n.val).ueOvf = true ∧ (t.stack n.val).ueAddr = k.ueAddr)) ∧
      (∃ t, exec (.granaryRequestTimeout n id false) s = .next t ∧ gone t ∧
        (∃ e ∈ (t.stack n.val).replies, e.id = id ∧ e.status = 7 ∧ e.ctx = r.ctx) ∧ t.mem = s.mem ∧
        (k.errValid = false → (t.stack n.val).errValid = true ∧ (t.stack n.val).errKind = 0 ∧ (t.stack n.val).errCtx = r.ctx)))

/-- Refresh, temperature, scrub and repair of a stack (R236, R237, R242 to R247): the eighth pending refresh asks as the
emergency requester; the temperature sets the refresh rate and the throttle; a scrub in a grant of its class reads the
next line and records an uncorrectable one without failing anyone, and waits for a decision else; a row that is due is
soft-repaired while its bank has a repair row left, else its frames are retired. The prefetcher (R248, R249): a prime
gives every enabled controller the tiller's streams in place of its earlier ones, at most 16, translated from the
context's ranges without far pages and without leaves with NSPEC; a fill buffers a line of a stream, most recently used
first, 8,192 at most, and drops and counts an uncorrectable one; a disabled prefetcher loses its streams and its buffer.
-/
def Obligations.StacksAndPrefetchers : Prop :=
  (
  (∀ (n : StackId) (pc : Fin 64) (s : State),
    let k := s.stack n.val
    let p := Tab.get 0 k.refresh pc.val
    let s1 := s.setStack n.val { k with refresh := Tab.set 0 k.refresh pc.val (p + 1) }
    exec (.refreshPending n pc) s = .next (if 7 ≤ p then s1.ask (.hbm n pc) 6 else s1)) ∧
  (∀ (n : StackId) (temp : BitVec 8) (s : State),
    let k := s.stack n.val
    let c := temp.toNat
    ∃ t, exec (.stackTempRead n temp) s = .next t ∧ (t.stack n.val).temp = temp ∧ k.tmax ≤ (t.stack n.val).tmax ∧
      temp ≤ (t.stack n.val).tmax ∧ (t.stack n.val).trefi.toNat = (if c < 85 then 0 else if c < 95 then 1 else 2) ∧
      (t.stack n.val).throttled = (decide (95 ≤ c) || (decide (92 ≤ c) && k.throttled)) ∧
      t.pwr.hot.getLsbD n.val = (decide (105 ≤ c) || (decide (100 ≤ c) && s.pwr.hot.getLsbD n.val)) ∧
      (c < 110 → t.mem = s.mem) ∧ (110 ≤ c → t.mgt.trip = true)) ∧
  (∀ (n : StackId) (s : State),
    let k := s.stack n.val
    let pc := linePc k.scrubPos
    let a : ArbId := .hbm n pc
    let ws := (List.range 6).flatMap (fun r => List.replicate (s.grnWaiting n pc r) r)
    let turn := (s.arb a).holder.map (·.who) = some 4 ∨ ((s.arb a).holder = none ∧ s.winner a (4 :: ws) = some 4)
    (k.scrubEn = false ∨ k.hasLine k.scrubPos = true → ∀ e, exec (.patrolScrub n e) s = .next s) ∧
    (k.scrubEn = true → k.hasLine k.scrubPos = false → turn → s.lineMark n k.scrubPos = none →
      ∃ t, exec (.patrolScrub n {}) s = .next t ∧ (t.stack n.val).scrubPos = k.scrubPos + 1 ∧ (t.arb a).holder = none ∧
        (t.stack n.val).openReqs = k.openReqs ∧ (t.stack n.val).replies = k.replies ∧ (t.stack n.val).ueCount = k.ueCount ∧
        { t with grn := s.grn } = s ∧ ∀ m, m ≠ n.val → t.stack m = s.stack m) ∧
    (k.scrubEn = true → k.hasLine k.scrubPos = false → turn →
      ∃ t, exec (.patrolScrub n { ue := true }) s = .next t ∧ (t.stack n.val).scrubPos = k.scrubPos + 1 ∧
        t.lineMark n k.scrubPos = some true ∧ (t.stack n.val).ueCount = satAdd k.ueCount 1 ∧ (t.stack n.val).replies = k.replies ∧
        t.mem.bytes = s.mem.bytes) ∧
    (k.scrubEn = true → k.hasLine k.scrubPos = false → ¬ turn → ∀ e, exec (.patrolScrub n e) s =
      .next (s.setArb a { s.arb a with reqs := Tab.set 0 (s.arb a).reqs 4 1 }))) ∧
  (∀ (n : StackId) (la : BitVec 36) (s : State),
    let k := s.stack n.val
    let bank := bankKey la.toNat
    let row := rowKey la.toNat
    let due := k.repairDue row s.refcnt = true
    (¬ due → exec (.rowRepair n la) s = .next s) ∧
    (due → k.rowsTaken bank < 2 → ∃ t, exec (.rowRepair n la) s = .next t ∧ (t.stack n.val).soft = k.soft ++ [row] ∧
      row ∉ (t.stack n.val).rowBad ∧ t.floor = s.floor ∧ t.mem.bytes = s.mem.bytes ∧
      ∀ l, t.lineMark n l = s.lineMark n l ∨ (s.lineMark n l = some false ∧ t.lineMark n l = none)) ∧
    (due → 2 ≤ k.rowsTaken bank → ∃ t, exec (.rowRepair n la) s = .next t ∧ (t.stack n.val).soft = k.soft ∧ t.mem = s.mem ∧
      (∀ f ∈ rowFrames n.val la.toNat, f ∈ t.floor.retired) ∧ ∀ f ∈ s.floor.retired, f ∈ t.floor.retired))) ∧
  (
  (∀ (t : TillerId) (ctx : CtxId) (ranges : List (W64 × Nat)) (s : State), (s.streamsOf ctx ranges).length ≤ 16 ∧
    ∃ u, exec (.prefetchPrime t { ctx := ctx, ranges := ranges }) s = .next u ∧ { u with grn := s.grn } = s ∧ ∀ n : StackId,
      let now := (s.stack n.val).streams.filter (fun x => x.1 ≠ t) ++ (s.streamsOf ctx ranges).map (fun x => (t, x.1, x.2))
      u.stack n.val = if (s.stack n.val).pfEn then { s.stack n.val with streams := now } else s.stack n.val) ∧
  (∀ (ctx : CtxId) (va g : Nat) (s : State), s.streamGranule ctx va = some g → ∃ l, s.walk (BitVec.ofNat 12 ctx.val) va = .leaf l ∧
    l.pte.getLsbD 59 = false ∧ l.pte.getLsbD 58 = false ∧ g = (pteAddr l.pte + va % 2 ^ l.size) / 4096) ∧
  (∀ (n : StackId) (line : BitVec 30) (x : TillerId × BitVec 29 × Nat) (s : State),
    let k := s.stack n.val
    let granule := lineAddr n line / 4096
    (k.pfEn = false → ∀ ue, exec (.prefetchFill n line ue) s = .next s) ∧
    (s.lineHeld n.val (lineAddr n line / 64) = true → ∀ ue, exec (.prefetchFill n line ue) s = .next s) ∧
    (k.pfEn = true → s.lineHeld n.val (lineAddr n line / 64) = false →
      x ∈ k.streams → x.2.1.toNat ≤ granule → granule < x.2.1.toNat + x.2.2 →
      (∃ t, exec (.prefetchFill n line true) s = .next t ∧ (t.stack n.val).pfDrop = satAdd k.pfDrop 1 ∧
        (t.stack n.val).pfBuf = k.pfBuf ∧ (t.stack n.val).ueCount = satAdd k.ueCount 1 ∧ t.lineMark n line = some true ∧
        t.mem.bytes = s.mem.bytes) ∧
      (s.lineMark n line = none → ∃ t, exec (.prefetchFill n line false) s = .next t ∧
        (t.stack n.val).pfBuf = (line :: k.pfBuf.filter (· ≠ line)).take 8192 ∧ (t.stack n.val).pfDrop = k.pfDrop ∧
        (t.stack n.val).openReqs = k.openReqs ∧ { t with grn := s.grn } = s))) ∧
  (∀ (n : StackId) (v : W32) (s : State), ∃ t, exec (.grnPfCtrl n v) s = .next t ∧ { t with grn := s.grn } = s ∧
    (t.stack n.val).pfEn = v.getLsbD 31 ∧ (t.stack n.val).backoff = v.setWidth 16 ∧
    (v.getLsbD 31 = false → (t.stack n.val).streams = [] ∧ (t.stack n.val).pfBuf = []) ∧
    (v.getLsbD 31 = true → (t.stack n.val).streams = (s.stack n.val).streams ∧ (t.stack n.val).pfBuf = (s.stack n.val).pfBuf)))

/-- A mesh link (R252 to R254): a flit that passes its check comes off the wire, and with the head a packet enters the
input buffer of its port; one that fails is discarded with those after it until its replay, and eight failed replays
declare the link down; a link that is down, leads off the die or to no station delivers nothing. One slot of a bridge
direction (R263, R265, R270): the transmitter drives a frame on both planes, each copy comes with its errors, and the
receiver takes the slot, or its elastic buffers while the output is held; a direction that is down takes none. What a
bridge receiver makes of the two copies of a slot (R264 to R267, Table 7-5): a good copy from the active plane of the
sequenced flit that it expects is delivered and acknowledged, with the standby plane faulted if its copy fails; a copy
that only the standby plane has right switches over and holds the output; else nothing is delivered and a NAK is sent,
with a mismatch counted where both copies pass and differ. Another flit, or a direction that is down, changes nothing.
Where the spec leaves something open, its clauses follow the model's choices in log entries 53 and 54. -/
def Obligations.LinksReceive : Prop :=
  (
  ∀ (p : PanId) (port : Fin 6) (flit : MeshFlit) (replay : Bool) (s : State),
    let l := s.link p.val port.val
    let rx := Instr.meshFlitReceive p port { flit := flit, replay := replay }
    (l.down = true ∨ meshOff p.val port.val = true ∨ (l.discard = true ∧ replay = false) → exec rx s = .next s) ∧
    (l.down = false → meshOff p.val port.val = false → (l.discard = true → replay = true) →
      (flit.crc = Config.crc16 flit.data flit.vc flit.typ →
        (l.wire = [] → exec rx s = .next (s.setLink p.val port.val { l with fails := 0, discard := false })) ∧
        ∀ k n rest, l.wire = (k, n) :: rest → ∃ t, exec rx s = .next t ∧
          t.link p.val port.val =
            { l with fails := 0, discard := false, wire := if n + 1 < flitsOf k then (k, n + 1) :: rest else rest } ∧
          t.fab.parked = (if n = 0 ∧ s.hasPkt k = true then s.fab.parked ++ [{ at_ := p.val, port := port.val, pkt := k }]
            else s.fab.parked) ∧ { t with fab := s.fab } = s) ∧
      (flit.crc ≠ Config.crc16 flit.data flit.vc flit.typ → ∃ t, exec rx s = .next t ∧
        (t.link p.val port.val).fails = l.fails + 1 ∧ (t.link p.val port.val).discard = true ∧
        ((t.link p.val port.val).down = true ↔ 8 ≤ l.fails) ∧ { t with fab := s.fab } = s ∧
        (l.fails < 8 → (t.link p.val port.val).wire = l.wire)))) ∧
  (
  ∀ (bridge : Fin 12) (dir : Fin 2) (dataA dataB : BitVec 512) (sideA sideB : W64) (s : State),
    let b := dirOf bridge dir
    let errA := sideA ++ dataA
    let errB := sideB ++ dataB
    let d := s.dir b.val
    let r := s.bridgeDrive b.val
    let e := r.1.dir b.val
    let s1 := r.1.setDir b.val { e with slots := e.slots + 1 }
    let rx := Instr.bridgeFlitReceive bridge dir dataA sideA dataB sideB
    (d.down = true → exec rx s = .next s) ∧
    (d.down = false → d.hold = false → exec rx s = .next (s1.bridgeTake b.val (r.2 ^^^ errA) (r.2 ^^^ errB))) ∧
    (d.down = false → d.hold = true → d.elastic.length < 1024 → ∃ t, exec rx s = .next t ∧
      (t.dir b.val).elastic = d.elastic ++ [(r.2 ^^^ errA, r.2 ^^^ errB)] ∧ (t.dir b.val).expected = d.expected ∧
      (t.dir b.val).slots = d.slots + 1)) ∧
  (
  ∀ (b : DirId) (ca cb : BitVec 576) (s : State),
    let d := s.dir b.val
    let act := d.drive
    let mine := if act then cb else ca
    let other := if act then ca else cb
    let same := frameData ca = frameData cb ∧ frameLow ca = frameLow cb
    let t := s.bridgeTake b.val ca cb
    let wanted := fun (f : BitVec 576) => seqdType ((frameLow f).extractLsb' 10 3) = true ∧ (frameLow f).extractLsb' 20 12 = d.expected
    let delivered := (t.dir b.val).expected = d.expected + 1 ∧ (t.dir b.val).naks = d.naks ∧
      (1, d.expected) ∈ (t.dir (oppDir b.val)).ctl
    let naked := (t.dir b.val).expected = d.expected ∧ (t.dir b.val).naks = satAdd d.naks 1 ∧ t.fab.parked = s.fab.parked ∧
      (0, d.expected) ∈ (t.dir (oppDir b.val)).ctl
    (d.down = true ∨ (d.plane act).state ≠ .active → t = s) ∧
    (frameOk mine = true → seqdType ((frameLow mine).extractLsb' 10 3) = true → (frameLow mine).extractLsb' 20 12 ≠ d.expected → t = s) ∧
    (d.down = false → (d.plane act).state = .active →
      (frameOk mine = true → wanted mine →
        ((d.plane (!act)).state = .standby → frameOk other = true ∧ same) → t = s.bridgeDeliver b.val mine ∧ delivered) ∧
      ((d.plane (!act)).state = .standby →
        (frameOk mine = true → wanted mine → frameOk other = true → ¬ same →
          naked ∧ (t.dir b.val).mismatch = satAdd d.mismatch 1) ∧
        (frameOk mine = true → wanted mine → frameOk other = false →
          delivered ∧ ((t.dir b.val).plane act).state = .active ∧ ((t.dir b.val).plane (!act)).state ∈ [.faulted, .held] ∧
          ((t.dir b.val).plane (!act)).crc = satAdd (d.plane (!act)).crc 1) ∧
        (frameOk mine = false → frameOk other = true → wanted other →
          (t.dir b.val).drive = !act ∧ (t.dir b.val).hold = true ∧ (t.dir b.val).released = true ∧
          (t.dir b.val).elastic = (ca, cb) :: d.elastic ∧ ((t.dir b.val).plane (!act)).state = .active ∧
          (t.dir b.val).switches = satAdd d.switches 1 ∧ (t.dir b.val).expected = d.expected) ∧
        (frameOk mine = false → frameOk other = false →
          naked ∧ ((t.dir b.val).plane act).crc = satAdd (d.plane act).crc 1 ∧
          ((t.dir b.val).plane (!act)).crc = satAdd (d.plane (!act)).crc 1)) ∧
      ((d.plane (!act)).state ≠ .standby → frameOk mine = false →
        naked ∧ ((t.dir b.val).plane act).crc = satAdd (d.plane act).crc 1)))

/-- The link of a bridge direction (R263, R264, R267 to R270, R273): the end of a switch-over sends PLANE_SWITCHED and
takes up the slots that waited; the transmitter keeps the former plane on PRBS; an acknowledgement frees the flits up to
it and ends the NAKs of a flit that it covers; a NAK sends the transmitter back to its flit, and the eighth of one flit
declares the direction down with both planes held; so does a driver that DRIVE_SEL does not select; NBR_FORCE switches
to a healthy standby plane or is refused. Retraining and lanes (R271, R272, R274 to R277): a faulted plane retrains by
itself where AUTO_RETRAIN is set, a held one by a steward; more than eight failing lanes or 1 ms hold it; else it
becomes STANDBY, or takes DRIVE_SEL where no plane is active; the fourth error of a lane within 1 ms starts its sparing,
a clean spared lane returns, three times an hour at most. Where the spec leaves something open, its clauses follow the
model's choices in log entries 55, 58 and 59. -/
def Obligations.BridgeLinksAndPlanes : Prop :=
  (
  ∀ (b : DirId) (seq : BitVec 12) (s : State),
    let d := s.dir b.val
    let downed := fun (t : State) => (t.dir b.val).down = true ∧ (t.dir b.val).failed = true ∧ (t.dir b.val).a.state = .held ∧
      (t.dir b.val).b.state = .held ∧ (t.dir b.val).replay = [] ∧ (t.dir b.val).txq = [] ∧ t.flt.count = s.flt.count + 1
    (d.hold = true → d.down = false →
      let s1 := (s.setDir b.val { d with hold := false, released := false, elastic := [] }).sendCtl b.val 2 d.expected
      (2, d.expected) ∈ (s1.dir (oppDir b.val)).ctl ∧
      (d.elastic = [] → exec (.switchOverComplete b) s = .next s1) ∧
      (∀ q, d.elastic = [q] → exec (.switchOverComplete b) s = .next (s1.bridgeTake b.val q.1 q.2)) ∧
      ∃ t, exec (.switchOverComplete b) s = .next t) ∧
    (d.hold = false → exec (.switchOverComplete b) s = .next s) ∧
    exec (.planeSwitched b) s = .next (s.setDir b.val { d with txPrbs := some (!d.drive) }) ∧
    (∃ t, exec (.bridgeAck b seq) s = .next t ∧ (t.dir b.val).txAcked = seq ∧
      (t.dir b.val).replay = d.replay.filter (fun f => 2048 ≤ (seq - f.seq).toNat) ∧
      (t.dir b.val).nakRun = (if d.nakSeq.any (fun n => decide (2048 ≤ (seq - n).toNat)) then d.nakRun else 0) ∧
      { t with fab := s.fab } = s ∧ ∀ k, k ≠ b.val → t.dir k = s.dir k) ∧
    (d.down = true → exec (.bridgeNak b seq) s = .next s) ∧
    (d.down = false →
      let n := if d.nakSeq = some seq then d.nakRun + 1 else 1
      (n < 8 → exec (.bridgeNak b seq) s = .next (s.setDir b.val
        { d with nakSeq := some seq, nakRun := n, out := (d.replay.takeWhile (fun f => decide (f.seq ≠ seq))).length })) ∧
      (8 ≤ n → ∃ t, exec (.bridgeNak b seq) s = .next t ∧ downed t)) ∧
    (∀ x y,
      let bad := if d.released then x || y else if d.drive then x else y
      (bad = true → ∃ t, exec (.interlockViolation b x y) s = .next t ∧ downed t ∧
        (t.dir b.val).interlock = true ∧ (t.dir b.val).hold = true) ∧
      (bad = false → exec (.interlockViolation b x y) s = .next s)) ∧
    (let to_ := d.plane (!d.drive)
     let may := (d.plane d.drive).state = .active ∧ to_.state = .standby ∧ s.healthy to_ = true ∧ d.hold = false
     (may → ∃ t, exec (.nbrForce b) s = .next t ∧ (t.dir b.val).drive = !d.drive ∧ (t.dir b.val).hold = true ∧
       (t.dir b.val).released = true ∧ (t.dir b.val).elastic = d.elastic ∧ ((t.dir b.val).plane d.drive).state = .standby ∧
       ((t.dir b.val).plane (!d.drive)).state = .active ∧ (t.dir b.val).switches = satAdd d.switches 1) ∧
     (¬ may → exec (.nbrForce b) s = .next (s.setDir b.val { d with forceRefused := true })))) ∧
  (
  ∀ (b : DirId) (pl : Plane) (s : State),
    let d := s.dir b.val
    let x := d.plane pl
    let becomes := fun (t : State) (st : PlaneState) => ((t.dir b.val).plane pl).state = st ∧
      ((t.dir b.val).plane (!pl)).state = (d.plane (!pl)).state
    let steward := if pl then Instr.nbrRetrainB b else .nbrRetrainA b
    (d.autoRetrain = true → x.state = .faulted → ∃ t, exec (.planeAutoRetrain b pl) s = .next t ∧ becomes t .retrain) ∧
    (d.autoRetrain = false ∨ x.state ≠ .faulted → exec (.planeAutoRetrain b pl) s = .next s) ∧
    (x.state = .held → ∃ t, exec steward s = .next t ∧ becomes t .retrain ∧ { t with fab := s.fab } = s) ∧
    (x.state ≠ .held → exec steward s = .next s) ∧
    (x.state = .retrain →
      (∀ fl, 8 < fl.length → ∃ t, exec (.planeRetrainDone b pl fl) s = .next t ∧ becomes t .held) ∧
      (∃ t, exec (.planeRetrainFail b pl) s = .next t ∧ becomes t .held ∧ t.flt.count = s.flt.count + 1) ∧
      (∀ fl, fl.length ≤ 8 → ∃ t, exec (.planeRetrainDone b pl fl) s = .next t ∧
        (if (d.plane (!pl)).state = .active then becomes t .standby ∧ (t.dir b.val).drive = d.drive
         else becomes t .active ∧ (t.dir b.val).drive = pl) ∧ (t.dir b.val).down = d.failed)) ∧
    (∀ (lane : Fin 296) (got : BitVec 2), let want := d.pattern b.val pl lane.val
      (got = want → exec (.bridgePrbsError b pl lane got) s = .next s) ∧
      (got ≠ want → ∃ t, exec (.bridgePrbsError b pl lane got) s = .next t ∧
        ((t.dir b.val).plane pl).prbs = satAdd x.prbs (popc (got ^^^ want)) ∧ ((t.dir b.val).plane pl).lastErr = some s.refcnt ∧
        becomes t x.state)) ∧
    (∀ (lane : Fin 288) (i : Nat), x.sparing.find? (fun q => q.1 = lane.val) = some (lane.val, i) →
      ∃ t, exec (.laneSpared b pl lane) s = .next t ∧
        ((t.dir b.val).plane pl).spare i = { used := true, lane := BitVec.ofNat 9 lane.val, since := s.refcnt } ∧
        becomes t x.state ∧ t.flt.count = s.flt.count + 1) ∧
    (∀ sp : Fin 8, (x.spare sp.val).used = true →
      (x.stuck (x.spare sp.val).lane.toNat = false → ∃ t, exec (.laneReturnStart b pl sp) s = .next t ∧
        ((t.dir b.val).plane pl).spare sp.val = { x.spare sp.val with returning := true }) ∧
      (x.stuck (x.spare sp.val).lane.toNat = true → exec (.laneReturnStart b pl sp) s = .next s) ∧
      ((x.spare sp.val).returning = true → ∃ t, exec (.laneReturned b pl sp) s = .next t ∧
        ((t.dir b.val).plane pl).spare sp.val = {} ∧ t.flt.count = s.flt.count + 1)))

/-- A router (R253, R312, R317 to R322, R325, R347): a head that is its port's oldest of its channel goes by the
on-package entry of its epoch's bank: on the unit's own die to the unit, elsewhere to the primary bridge while its
direction is up, else to the detour, on VC7 and escaped; a reduction packet that names a straw goes to it; it waits
while the next buffer has no room for the whole packet. A head with a malformed EC or without a valid entry is dropped
and counted, and so is a packet that has aged, also one that a straw holds for resending. The next hop (R253, R255,
R256, R319): a packet goes along its row and then along its column to the router of its exit, over a link that is up
into a buffer with room for all of it, never past 33 flits of its channel; there it leaves, or enters its bridge where
the far end has room for it. Table commands (R317, R326, R329, Table 9-19), on one die or, with BROADCAST, on all nine:
TBL_WRITE writes the data register to an entry of a RETIRED bank, TBL_READ reads an entry, SEAL freezes a RETIRED bank
with its sum, UNSEAL retires a SEALED one; anything else is refused. Epochs (R268, R326, R327): only the hub's copy of
INJ flips, and only with the other bank SEALED and nothing DRAINING on every die; the new bank is then ACTIVE and the
old one DRAINING everywhere, and directions whose planes have trained again return to service; what drains is RETIRED
when its time ends. Where the spec leaves something open, its clauses follow the model's choices in log entries 72 and
184. -/
def Obligations.RoutersAndTables : Prop :=
  (
  ∀ (d : DieId) (at_ : PanId) (pkt : Packet) (s : State),
    let r := s.die d.val
    let e := r.entry pkt.epoch.toNat 0 (ecPanIx pkt.dst)
    let pri := fld e 27 24
    let det := fld e 22 19
    let node := nodeOf d at_
    let run := exec (.packetRoute d at_ pkt) s
    let goes := fun (port : Nat) (x : Exit) (detour : Bool) (q : Packet) =>
      ((s.unpark pkt).goOn d node x q = none → run = .next s) ∧
      ∀ u out, (s.unpark pkt).goOn d node x q = some (u, out) →
        ∃ v, run = .next (if port = 5 then v.sheafGo node else v) ∧
          (∃ h ∈ v.fab.routed, h.die = d ∧ h.at_ = at_ ∧ h.exit = x ∧ h.pkt = q ∧ h.out = out) ∧
          v.die d.val = if detour then { r with detour := satAdd r.detour 1 } else r
    let dropped := fun (t : State) => t.fab.sent = s.fab.sent.erase pkt ∧ t.fab.ingress = s.fab.ingress.erase pkt ∧
      t.fab.delivered = s.fab.delivered
    (s.hasPkt pkt = false ∨ s.portOf node pkt = none → run = .next s) ∧
    (s.hasPkt pkt = true → ∃ t, exec (.packetAgeDrop d pkt) s = .next t ∧ dropped t ∧ (t.die d.val).age = satAdd r.age 1) ∧
    (s.hasPkt pkt = false → ∀ w : StrawId, w.val / 4 = d.val → (∃ q ∈ (s.straw w.val).unacked, q.pkt = pkt) →
      ∃ t, exec (.packetAgeDrop d pkt) s = .next t ∧ (t.die d.val).age = satAdd r.age 1 ∧
        ∀ q ∈ (t.straw w.val).unacked, q.pkt ≠ pkt) ∧
    ∀ port, s.hasPkt pkt = true → s.portOf node pkt = some port →
      (ecMalformed pkt.dst = true → ∃ t, run = .next t ∧ dropped t ∧ (t.die d.val).invalid = satAdd r.invalid 1) ∧
      (ecMalformed pkt.dst = false → ∀ w, pkt.via = some w → d.val = w.val / 4 → goes port (.toStraw w) false pkt) ∧
      (ecMalformed pkt.dst = false → pkt.via = none → ecPkg pkt.dst = s.fab.coord → ecFn pkt.dst ≠ 0x7F →
        (e.getLsbD 31 = false → ∃ t, run = .next t ∧ dropped t ∧ (t.die d.val).noRoute = satAdd r.noRoute 1) ∧
        (e.getLsbD 31 = true →
          (d.val = ecTil pkt.dst → pri = 15 →
            goes port (if stationFn (ecFn pkt.dst) then .toStation (ecFn pkt.dst) else .toPanicle (Fin.ofNat 1536 (ecPanIx pkt.dst)))
              false pkt) ∧
          (d.val ≠ ecTil pkt.dst → pri < 12 → ∀ x, bridgeDirFrom d.val pri = some x →
            ((s.dir x).down = false →
              goes port (.toBridge (Fin.ofNat 12 pri) (subPort pri (rowAt d at_ port).val)) false pkt) ∧
            ((s.dir x).down = true → e.getLsbD 23 = true → det < 12 → ∀ y, bridgeDirFrom d.val det = some y →
              (s.dir y).down = false →
              goes port (.toBridge (Fin.ofNat 12 det) (subPort det (rowAt d at_ port).val)) true
                (if pkt.esc = true ∨ pkt.vc = 7 then pkt else { pkt with vc := 7, esc := true })))))) ∧
  (
  ∀ (d : DieId) (node : Nat) (x : Exit) (q : Packet) (s : State),
    let i := node % 192
    let j := exitRouter d.val i x
    let o := if i % 16 < j % 16 then 1 else if j % 16 < i % 16 then 3 else if i / 16 < j / 16 then 2 else 0
    let next := d.val * 192 + (if o = 0 then i - 16 else if o = 1 then i + 1 else if o = 2 then i + 16 else i - 1)
    let back := (o + 2) % 4
    let l := s.link next back
    (d.val = 8 ∨ j = i →
      ((∀ b k, x ≠ .toBridge b k) → s.goOn d node x q = some (s, true)) ∧
      ∀ b k, x = .toBridge b k → ∀ dir, bridgeDirFrom d.val b.val = some dir →
        s.goOn d node x q = if flitsOf q ≤ (s.dir dir).creditFor k q.vc then some (s.bridgeSend dir k q, false) else none) ∧
    (d.val ≠ 8 → j ≠ i →
      (l.down = true ∨ 33 < s.bufFlits next back q.vc + flitsOf q → s.goOn d node x q = none) ∧
      (l.down = false → s.bufFlits next back q.vc + flitsOf q ≤ 33 →
        ∃ t, s.goOn d node x q = some (t, false) ∧ t = s.setLink next back { l with wire := l.wire ++ [(q, 0)] } ∧
          t.bufFlits next back q.vc ≤ 33))) ∧
  (
  ∀ (d : DieId) (cmd : W32) (s : State),
    let b := fld cmd 28 28
    let table := fld cmd 23 22
    let i := fld cmd 11 0
    let refused := fun (t : State) (k : Nat) => (t.die k).tblRefused = true ∧ (t.die k).tables = (s.die k).tables ∧
      (t.die k).bank0 = (s.die k).bank0 ∧ (t.die k).bank1 = (s.die k).bank1
    (∃ t, exec (.tblWrite d cmd) s = .next t ∧ ∀ k ∈ tblDies d.val cmd,
      ((s.die k).bank b = .retired → i < tableSize table → (t.die k).entry b table i = (s.die d.val).data ∧
        ∀ b' table' i', b' < 2 → table' < 3 → i' < 4096 → (b', table', i') ≠ (b, table, i) →
          (t.die k).entry b' table' i' = (s.die k).entry b' table' i') ∧
      ((s.die k).bank b ≠ .retired ∨ tableSize table ≤ i → refused t k)) ∧
    (∃ t, exec (.tblRead d cmd) s = .next t ∧ (t.die d.val).tables = (s.die d.val).tables ∧
      (i < tableSize table → (t.die d.val).data = (s.die d.val).entry b table i) ∧
      (tableSize table ≤ i → refused t d.val ∧ (t.die d.val).data = (s.die d.val).data)) ∧
    (∃ t, exec (.tblSeal d cmd) s = .next t ∧ ∀ k ∈ tblDies d.val cmd,
      ((s.die k).bank b = .retired → (t.die k).bank b = .sealed ∧ (t.die k).sum = (s.die k).sumOf b ∧
        (t.die k).bank (1 - b) = (s.die k).bank (1 - b) ∧ (t.die k).tables = (s.die k).tables) ∧
      ((s.die k).bank b ≠ .retired → refused t k)) ∧
    (∃ t, exec (.tblUnseal d cmd) s = .next t ∧ ∀ k ∈ tblDies d.val cmd,
      ((s.die k).bank b = .sealed → (t.die k).bank b = .retired ∧ (t.die k).bank (1 - b) = (s.die k).bank (1 - b)) ∧
      ((s.die k).bank b ≠ .sealed → refused t k))) ∧
  (
  ∀ (d : DieId) (inj bank : BitVec 1) (s : State),
    let ready := ∀ k, k < 9 → (s.die k).bank inj.toNat = .sealed ∧ (s.die k).bank0 ≠ .draining ∧ (s.die k).bank1 ≠ .draining
    (d.val ≠ 8 ∨ inj = s.fab.inj → exec (.epochFlip d inj) s = .next s) ∧
    (d.val = 8 → inj ≠ s.fab.inj → ready → ∃ t, exec (.epochFlip d inj) s = .next t ∧ t.fab.inj = inj ∧
      t.fab.drainAt = some s.refcnt ∧
      (∀ k, k < 9 → (t.die k).bank inj.toNat = .active ∧ (t.die k).tables = (s.die k).tables ∧
        (t.die k).bank s.fab.inj.toNat =
          if (s.die k).bank s.fab.inj.toNat = .active then .draining else (s.die k).bank s.fab.inj.toNat) ∧
      ∀ b, b < 24 → (t.dir b).down = (if (s.dir b).failed && (s.dir b).ready then false else (s.dir b).down)) ∧
    (d.val = 8 → inj ≠ s.fab.inj → ¬ ready → ∃ t, exec (.epochFlip d inj) s = .next t ∧ t.fab.inj = s.fab.inj ∧
      (t.die 8).flipRefused = true ∧ ∀ k, (t.die k).bank0 = (s.die k).bank0 ∧ (t.die k).bank1 = (s.die k).bank1) ∧
    ∃ t, exec (.bankDrainExpire bank) s = .next t ∧ t.fab.drainAt = none ∧ ∀ k, k < 9 → (t.die k).bank bank.toNat =
      if (s.die k).bank bank.toNat = .draining then .retired else (s.die k).bank bank.toNat)

/-- Reception (R321, R333, R336, Table 9-14): of sequenced packets the expected one is delivered and the next is
expected, an earlier one is acknowledged again and counted, a later one answered by a NAK; a packet with NEW founds the
numbering of an entry that has been quiet; without an entry it asks for RESYNC; an endpoint without room drops VC7,
takes the channels that are always consumed and leaves the others. The sender's side (R330, R333, R334, R336), at an
endpoint where no packet stalls: an acknowledgement takes what comes before it off the resend list; a NAK sends
everything from its number on again, in the current epoch; RESYNC sends from the oldest with NEW; the retry timer sends
again, three times at most; an owed acknowledgement goes alone; an unused entry that no other has outlasted is evicted.
Where the spec leaves something open, its clauses follow the model's choices in log entries 32 and 33. -/
def Obligations.TransportDelivers : Prop :=
  (
  ∀ (ep : EpId) (free : Bool) (pkt : Packet) (s : State),
    let key := peerKey pkt.src
    let s1 := if pkt.av then s.acked ep.val key pkt.ack else s
    let room := free || alwaysTaken pkt.vc
    let runs := fun (t : State) => exec (.transportReceive ep free pkt) s = .next t
    let got := fun (t : State) => t.fab.delivered = s1.fab.delivered ++ [pkt] ∧
      ∃ y, t.peer ep.val key = some y ∧ y.expected = some (pkt.tseq + 1) ∧ y.ackOwed = true ∧ y.lastRecv = some s1.refcnt
    let control := fun (t : State) (op : BitVec 8) => ∃ q ∈ t.fab.sent, q.op = op ∧ q.kind = 2 ∧ q.dst = pkt.src ∧ q.epoch = s1.fab.inj
    (pkt.kind ≠ 0 → pkt.kind ≠ 1 → runs s) ∧
    (room = false → pkt.vc ≠ 7 → runs s) ∧
    (pkt.kind = 0 ∨ pkt.kind = 1 → room = true ∨ pkt.vc = 7 →
      (s1.peer ep.val key = none → pkt.new = false →
        ∃ t, runs t ∧ t.fab.delivered = s1.fab.delivered ∧ control t 0x42) ∧
      (s1.peer ep.val key = none → pkt.new = true → (s1.peersOf ep.val).length < 4096 →
        (room = true → ∃ t, runs t ∧ got t) ∧ (room = false → ∃ t, runs t ∧ t.fab.delivered = s1.fab.delivered)) ∧
      (∀ x e, s1.peer ep.val key = some x → x.expected = some e →
        let quiet := ∀ t, x.lastRecv = some t → s1.since t ms2 = true
        (pkt.new = true → quiet → room = true → ∃ t, runs t ∧ got t) ∧
        (¬ (pkt.new = true ∧ quiet) → room = true →
          (pkt.tseq = e → ∃ t, runs t ∧ got t) ∧
          (tseqBefore pkt.tseq e = true → ∃ t, runs t ∧ t.fab.delivered = s1.fab.delivered ∧
            (∃ y, t.peer ep.val key = some y ∧ y.expected = some e ∧ y.ackOwed = true) ∧
            (ep.val < 1536 → (t.pan ep.val).ctr.tpDup = satAdd (s1.pan ep.val).ctr.tpDup 1)) ∧
          (pkt.tseq ≠ e → tseqBefore pkt.tseq e = false → (∀ t, x.lastNak = some t → s1.since t us2 = true) →
            ∃ t, runs t ∧ t.fab.delivered = s1.fab.delivered ∧ control t 0x41 ∧
              (ep.val < 1536 → (t.pan ep.val).ctr.tpNak = satAdd (s1.pan ep.val).ctr.tpNak 1)))))) ∧
  (
  ∀ (ep : EpId) (peer : Ec) (pkt : Packet) (x : Peer) (s : State), (∀ q ∈ s.fab.stalled, q.1 ≠ ep) →
    let left := x.unacked.filter (fun p => !tseqBefore p.tseq pkt.ack)
    let again := fun (t : State) (p : Packet) => ∃ q ∈ t.fab.sent, q.tseq = p.tseq ∧ q.dst = p.dst ∧ q.payload = p.payload ∧
      q.op = p.op ∧ q.epoch = s.fab.inj
    (pkt.av = false → exec (.ack ep pkt) s = .next (s.takePkt pkt)) ∧
    (s.peer ep.val (peerKey pkt.src) = some x →
      (pkt.av = true → ∃ t y, exec (.ack ep pkt) s = .next t ∧ t.peer ep.val (peerKey pkt.src) = some y ∧ y.unacked = left ∧
        y.retries = (if left.length < x.unacked.length then 0 else x.retries) ∧ t.fab.sent = s.fab.sent.erase pkt) ∧
      (∃ t y, exec (.nak ep pkt) s = .next t ∧ t.peer ep.val (peerKey pkt.src) = some y ∧ y.unacked = left ∧
        y.retries = (if left.length < x.unacked.length then 0 else x.retries) ∧ ∀ p ∈ left, again t p) ∧
      (∀ p rest, x.unacked = p :: rest → ∃ t y, exec (.resyncPacket ep pkt) s = .next t ∧
        t.peer ep.val (peerKey pkt.src) = some y ∧ y.unacked = { p with new := true } :: rest ∧
        ∃ q ∈ t.fab.sent, q.tseq = p.tseq ∧ q.new = true ∧ q.payload = p.payload ∧ q.dst = p.dst)) ∧
    (s.peer ep.val (peerKey pkt.src) = none → (pkt.av = true → exec (.ack ep pkt) s = .next (s.takePkt pkt)) ∧
      exec (.nak ep pkt) s = .next (s.takePkt pkt) ∧ exec (.resyncPacket ep pkt) s = .next (s.takePkt pkt)) ∧
    (s.peer ep.val (peerKey peer) = some x →
      (∀ p rest, x.unacked = p :: rest → x.retries < 3 → ∃ t y, exec (.retryTimer ep peer) s = .next t ∧
        t.peer ep.val (peerKey peer) = some y ∧ y.retries = x.retries + 1 ∧ y.unacked = x.unacked ∧ again t p ∧
        (ep.val < 1536 → (t.pan ep.val).ctr.tpRetry = satAdd (s.pan ep.val).ctr.tpRetry 1)) ∧
      (x.unacked = [] → exec (.retryTimer ep peer) s = .next s) ∧
      (∀ e, x.ackOwed = true → x.expected = some e → ∃ t y, exec (.ackTimer ep peer) s = .next t ∧
        t.peer ep.val (peerKey peer) = some y ∧ y.ackOwed = false ∧
        ∃ q ∈ t.fab.sent, q.op = 0x40 ∧ q.kind = 2 ∧ q.dst = peer ∧ q.ack = e ∧ q.av = true) ∧
      (x.ackOwed = false → exec (.ackTimer ep peer) s = .next s) ∧
      (s.evictable x = true → (∀ y ∈ s.peersOf ep.val, s.evictable y = true → x.lastUse ≤ y.lastUse) →
        ∃ t, exec (.peerEntryEvict ep peer) s = .next t ∧ t.peer ep.val (peerKey peer) = none ∧
          ∀ y ∈ s.fab.peers, y.isFor ep.val (peerKey peer) = false → y ∈ t.fab.peers) ∧
      (s.evictable x = false → exec (.peerEntryEvict ep peer) s = .next s)) ∧
    (s.peer ep.val (peerKey peer) = none → exec (.retryTimer ep peer) s = .next s ∧ exec (.ackTimer ep peer) s = .next s ∧
      exec (.peerEntryEvict ep peer) s = .next s))

/-- What a straw makes of a frame (R285, R286, R291, R296, R302, R347): one that fails its check is discarded, counted
and NAKed; the expected one is acknowledged, and with its last frame a packet goes to the sheaf, which gives it to the
rachis when it is the next in SSEQ order and the X port has room, and drops a duplicate; a reduction packet bypasses
that order, and one for the port's combiner stays there; on a straw of no sheaf it is discarded and counted; an ACK ends
the resend list up to its SEQ. A straw that is not UP takes ROLL_CALL frames only, and one that has not trained none. A
straw's states (R286, R303, R604): the ninth NAK of one frame or a lost wavelength declares an UP straw down and starts
training; training ends in ROLL_CALL, or in DOWN, MISSING where the plan expects a peer; AUTO, RETRAIN and EN start
training again, and EN cleared turns the straw off. Where the spec leaves something open, its clauses follow the model's
choices in log entries 62, 63, 69, 73 and 184. -/
def Obligations.StrawsReceiveAndTrain : Prop :=
  (
  ∀ (w : StrawId) (fec : Nat) (data : BitVec 512) (seq : BitVec 14) (sseq : BitVec 10) (vc typ : BitVec 3) (resv : BitVec 2)
      (crc : W32) (s : State),
    let frame := strawFrame data seq sseq vc typ resv crc
    let x := s.straw w.val
    let y := { x with fec := satAdd x.fec fec }
    let ctl := data.extractLsb' 4 14
    let runs := fun (t : State) => exec (.strawFrameReceive w fec data seq sseq vc typ resv crc) s = .next t
    let sends := fun (t : State) (code : BitVec 4) (n : BitVec 14) =>
      mkFrame (strawCtl code n) (strawLow x.txNext 0 0 5) ∈ (t.straw w.val).driven
    (x.trained = false → runs (s.setStraw w.val y)) ∧
    (x.trained = true → frameOk frame = false → ∃ t, runs t ∧ t.fab.ingress = s.fab.ingress ∧
      (t.straw w.val).crc = satAdd x.crc 1 ∧ (t.straw w.val).rxNext = x.rxNext ∧
      (x.state = .up → (t.straw w.val).naks = satAdd x.naks 1 ∧ sends t 0 x.rxNext) ∧
      (x.state ≠ .up → (t.straw w.val).naks = x.naks)) ∧
    (x.trained = true → frameOk frame = true →
      (typ = 5 → fld data 3 0 = 4 → runs ((s.setStraw w.val y).rollHeard w.val (rollOf data))) ∧
      (x.state ≠ .up → typ ≠ 5 → runs (s.setStraw w.val y)) ∧
      (x.state = .up → typ = 5 →
        (fld data 3 0 = 0 → runs ((s.setStraw w.val y).nakStraw w.val ctl)) ∧
        (fld data 3 0 = 1 → ∃ t, runs t ∧ (t.straw w.val).unacked = x.unacked.filter (fun q => !seqUpTo q.seq ctl) ∧
          (t.straw w.val).nakRun = (if x.nakSeq.any (fun n => !seqUpTo n ctl) then x.nakRun else 0) ∧ t.fab.ingress = s.fab.ingress)) ∧
      (x.state = .up → seqdType typ = true → seq ≠ x.rxNext → runs (s.setStraw w.val y)) ∧
      (x.state = .up → seqdType typ = true → seq = x.rxNext →
        (s.sheafOf w.val = none → ∃ t, runs t ∧ (t.straw w.val).crc = satAdd x.crc 1 ∧ t.fab.ingress = s.fab.ingress ∧
          (t.straw w.val).rxNext = x.rxNext + 1 ∧ sends t 1 seq) ∧
        ∀ n, s.sheafOf w.val = some n →
          (typ = 1 → ∃ t, runs t ∧ (t.straw w.val).partly = some (sseq, toLE 64 data.toNat) ∧
            (t.straw w.val).rxNext = x.rxNext + 1 ∧ sends t 1 seq ∧ t.fab.ingress = s.fab.ingress) ∧
          (typ = 2 → ∃ t, runs t ∧ (t.straw w.val).partly = x.partly.map (fun q => (q.1, q.2 ++ toLE 64 data.toNat)) ∧
            (t.straw w.val).rxNext = x.rxNext + 1 ∧ t.fab.ingress = s.fab.ingress) ∧
          (typ = 6 → ∃ t, runs t ∧ (t.straw w.val).partly = none ∧ t.fab.ingress = s.fab.ingress) ∧
          ∀ ss bs, (typ = 4 ∧ ss = sseq ∧ bs = toLE 64 data.toNat) ∨
              (typ = 3 ∧ ∃ b, x.partly = some (ss, b) ∧ bs = b ++ toLE 64 data.toNat) →
            let q := pktOf bs
            let key := w.val / 4 * 8 + q.vc.toNat
            let next := Tab.get 0 (s.sheaf n).rxNext key
            (q.kind = 3 → q.word.getLsbD 17 = true → ∃ t, runs t ∧ t.fab.ingress = s.fab.ingress ++ [q] ∧
              t.fab.parked = s.fab.parked ∧ t.fab.sheaves = s.fab.sheaves) ∧
            (q.kind = 3 → q.word.getLsbD 17 = false → Tab.get [] (s.sheaf n).reorder (1024 + w.val * 8 + q.vc.toNat) = [] →
              s.room (strawRouter w.val) 5 q = true → ∃ t, runs t ∧ t.fab.ingress = s.fab.ingress ++ [q] ∧
                t.fab.parked = s.fab.parked ++ [{ at_ := strawRouter w.val, port := 5, pkt := q }]) ∧
            (q.kind ≠ 3 → ss = next → Tab.get [] (s.sheaf n).reorder key = [] →
              (s.room (strawRouter w.val) 5 q = true → ∃ t, runs t ∧ t.fab.ingress = s.fab.ingress ++ [q] ∧
                t.fab.parked = s.fab.parked ++ [{ at_ := strawRouter w.val, port := 5, pkt := q }] ∧
                Tab.get 0 (t.sheaf n).rxNext key = next + 1 ∧ (t.straw w.val).rxNext = x.rxNext + 1) ∧
              (s.room (strawRouter w.val) 5 q = false → ∃ t, runs t ∧ t.fab.ingress = s.fab.ingress ∧
                Tab.get [] (t.sheaf n).reorder key = [{ sseq := ss, straw := w.val, pkt := q }])) ∧
            (q.kind ≠ 3 → sseqBefore ss next = true → ∃ t, runs t ∧ t.fab.ingress = s.fab.ingress ∧ t.fab.sheaves = s.fab.sheaves)))) ∧
  (
  ∀ (w : StrawId) (seq : BitVec 14) (lock : BitVec 8) (s : State),
    let x := s.straw w.val
    let run := if x.nakSeq = some seq then x.nakRun + 1 else 1
    let trains := fun (t : State) => (t.straw w.val).state = .training ∧ (t.straw w.val).rxNext = 0
    let missing := fun (t : State) => (t.straw w.val).state = .down ∧ (s.expectsPeer w.val = true →
      (t.straw w.val).outcome = .missing ∧ t.flt.count = s.flt.count + 1)
    (x.state ≠ .up → exec (.strawNak w seq) s = .next s) ∧
    (x.state = .up → run < 9 → exec (.strawNak w seq) s =
      .next (s.setStraw w.val { (x.drive (x.replayFrom seq)) with nakSeq := some seq, nakRun := run })) ∧
    (x.state = .up → 9 ≤ run → ∃ t, exec (.strawNak w seq) s = .next t ∧ trains t) ∧
    exec (.strawLossOfLight w 0xFF) s = .next (s.setStraw w.val { x with lambda := 0xFF }) ∧
    (lock ≠ 0xFF → x.state = .up ∨ x.state = .held → ∃ t, exec (.strawLossOfLight w lock) s = .next t ∧ trains t ∧
      (t.straw w.val).lambda = lock) ∧
    (x.state = .training → exec (.strawTrained w) s = .next (s.setStraw w.val { x with state := .rollCall, lambda := 0xFF, same := 0 })) ∧
    (x.state ≠ .training → exec (.strawTrained w) s = .next s ∧ exec (.strawTrainingTimeout w lock) s = .next s) ∧
    (x.state = .training → ∃ t, exec (.strawTrainingTimeout w lock) s = .next t ∧ missing t ∧ (t.straw w.val).lambda = lock) ∧
    (x.state = .rollCall → s.expectsPeer w.val = true → ∃ t, exec (.rollCallTimeout w) s = .next t ∧ missing t) ∧
    (x.state ≠ .rollCall ∨ s.expectsPeer w.val = false → exec (.rollCallTimeout w) s = .next s) ∧
    (x.state = .down → x.auto = true → exec (.strawAutoRetry w) s = .next (s.setStraw w.val x.train)) ∧
    (x.state ≠ .down ∨ x.auto = false → exec (.strawAutoRetry w) s = .next s) ∧
    (x.state = .down ∨ x.state = .held → exec (.strawRetrain w) s = .next (s.setStraw w.val x.train)) ∧
    (x.state ≠ .down → x.state ≠ .held → exec (.strawRetrain w) s = .next s) ∧
    (∃ t, exec (.strawEn w true) s = .next t ∧ (t.straw w.val).en = true ∧
      (t.straw w.val).state = if x.state = .off then .training else x.state) ∧
    (∃ t, exec (.strawEn w false) s = .next t ∧ (t.straw w.val).en = false ∧ (t.straw w.val).state = .off))

/-- Roll call (R300 to R303, Table 8-6): a trained straw sends its identity and its plan; under a plan, two frames of
one identity that echo this straw make it UP where they name the serial and the straw that the plan gives, QUARANTINED
where the plan gives no peer or does not know the serial, and HELD where they are another port of the plan; another
identity on an UP straw sends it back to ROLL_CALL. Sheaves, shares and rings (R288, R290 to R297, R304 to R307, R338,
R339, R347, R363): the first packet of its flow goes out on the straw that granted it, with credit, frame by frame and
with the next SSEQ, or is dropped after 15 straws; a reduction packet goes on the straw that it names, or is lost where
that is not UP; a straw in two sheaves or a sheaf of more than 16 is refused, and so is a second OWNER of a straw; a
weight of 0 leaves the weight; SHEAF_DEGRADED is raised once; four torus straws out of UP, one of them MISSING, make a
coordinate absent, of which the packages of the rack plan are told; absent bits are cleared by ones. Where the spec
leaves something open, its clauses follow the model's choices in log entries 64, 70 and 71. -/
def Obligations.RollCallAndRings : Prop :=
  (
  ∀ (w : StrawId) (data : BitVec 512) (b : List Byte) (s : State),
    let x := s.straw w.val
    let f := rollOf data
    let same := ∃ h, x.heard = some h ∧ rollId h = rollId f
    let runs := fun (t : State) => exec (.rollCall w data) s = .next t
    (x.trained = true → ∃ t r, exec (.rollCallSend w) s = .next t ∧ (t.straw w.val).sentRoll = some r ∧ r.straw.toNat = w.val ∧
      r.serial = s.sec.otp.serial ∧ r.holdsPlan = s.fab.plan.isSome ∧ (r.up = true ↔ x.state = .up) ∧ r.plan = s.planVersion ∧
      mkFrame (rollBits x.txNext r) (strawLow x.txNext 0 0 5) ∈ (t.straw w.val).driven) ∧
    (x.trained = false → exec (.rollCallSend w) s = .next s ∧ runs s) ∧
    (x.state = .up → ¬ same → ∃ t, runs t ∧ (t.straw w.val).state = .rollCall) ∧
    (x.state = .rollCall → ¬ same ∨ s.fab.plan = none → ∃ t, runs t ∧ (t.straw w.val).state = .rollCall ∧
      (t.straw w.val).heard = some f) ∧
    (x.state = .rollCall → same → 1 ≤ x.same → f.echoValid = true → f.echoSerial = s.sec.otp.serial → f.echoStraw.toNat = w.val →
      s.fab.plan = some b →
      (∀ serial, planPeer b w.val = some serial → planKnows b f.serial = true →
        (f.serial = serial → f.straw.toNat = planStraw b w.val → ∃ t, runs t ∧ (t.straw w.val).state = .up ∧
          (t.straw w.val).outcome = .matched ∧ (t.straw w.val).missingSeen = false) ∧
        (f.serial ≠ serial → ∃ t, runs t ∧ (t.straw w.val).state = .held ∧ (t.straw w.val).outcome = .miswired)) ∧
      (planPeer b w.val = none ∨ planKnows b f.serial = false → ∃ t, runs t ∧ (t.straw w.val).state = .quarantined ∧
        (t.straw w.val).outcome = .unexpected))) ∧
  (
  (∀ (d : TillerId) (n : SheafId) (w : StrawId) (pkt : Packet) (s : State),
    let first := (s.shfRouted n.val d.val pkt.vc.toNat).find? (sameFlow pkt) = some pkt
    let may := w.val ∈ s.liveOn n.val d.val ∧ pkt ∈ s.givenTo w.val ∧ (s.straw w.val).ready pkt = true
    let key := d.val * 8 + pkt.vc.toNat
    let q := Tab.get 0 (s.sheaf n.val).txNext key
    let run := exec (.sheafTransmit d n w pkt) s
    let named := pkt ∈ s.shfNamed w.val pkt.vc.toNat
    let x := s.straw w.val
    (s.hasPkt pkt = false → run = .next s) ∧
    (s.hasPkt pkt = true → pkt.via.isSome = true →
      (¬ named → run = .next s) ∧
      (named → x.state ≠ .up → run = .next (s.takePkt pkt)) ∧
      (named → x.state = .up → pkt.pkgs ≠ 15 → pkt ∉ s.givenTo w.val ∨ x.ready pkt = false → run = .next s) ∧
      (named → x.state = .up → pkt.pkgs ≠ 15 → pkt ∈ s.givenTo w.val → x.ready pkt = true → ∃ t, run = .next t ∧
        t.fab.sheaves = s.fab.sheaves ∧ ∃ e, (t.straw w.val).unacked = x.unacked ++ [e] ∧
          e.pkt = { pkt with pkgs := pkt.pkgs + 1 } ∧ ∀ v, v ≠ w.val → t.straw v = s.straw v)) ∧
    (pkt.via = none →
    (¬ first → run = .next s) ∧
    (s.hasPkt pkt = true → first → pkt.pkgs = 15 → ∃ t, run = .next t ∧
      t.fab.sent = s.fab.sent.erase pkt ∧ t.fab.straws = s.fab.straws ∧ (t.die d.val).age = satAdd (s.die d.val).age 1) ∧
    (s.hasPkt pkt = true → first → pkt.pkgs ≠ 15 → ¬ may → run = .next s) ∧
    (s.hasPkt pkt = true → first → pkt.pkgs ≠ 15 → may → ∃ t, run = .next t ∧
      Tab.get 0 (t.sheaf n.val).txNext key = q + 1 ∧ ∃ e,
        (t.straw w.val).unacked = (s.straw w.val).unacked ++ [e] ∧ e.sseq = q ∧ e.pkt = { pkt with pkgs := pkt.pkgs + 1 } ∧
        (t.straw w.val).txNext = (s.straw w.val).txNext + BitVec.ofNat 14 (flitsOf pkt - 1) + 1 ∧
        (t.straw w.val).driven = ((pktFrames (s.straw w.val).txNext q e.pkt).reverse ++ (s.straw w.val).driven).take 8192 ∧
        (t.straw w.val).creditFor pkt.vc = (s.straw w.val).creditFor pkt.vc - flitsOf pkt ∧
        ∀ v, v ≠ w.val → t.straw v = s.straw v))) ∧
  (∀ (n : SheafId) (v : W32) (s : State),
    let refused := (∃ m, m < 32 ∧ m ≠ n.val ∧ (s.sheaf m).members &&& v ≠ 0) ∨ 16 < popc v
    (refused → exec (.sheafMembersWrite n v) s = .next (s.setSheaf n.val { s.sheaf n.val with cfgErr := true })) ∧
    (¬ refused → ∃ t, exec (.sheafMembersWrite n v) s = .next t ∧ (t.sheaf n.val).members = v ∧
      ∀ m, m ≠ n.val → (t.sheaf m).members = (s.sheaf m).members)) ∧
  (∀ (n : SheafId) (s : State),
    let less := (s.live n.val).length < popc (s.sheaf n.val).members
    (less → (s.sheaf n.val).degraded = false → ∃ t, exec (.sheafDegraded n) s = .next t ∧ (t.sheaf n.val).degraded = true ∧
      t.flt.count = s.flt.count + 1) ∧
    (¬ less ∨ (s.sheaf n.val).degraded = true → exec (.sheafDegraded n) s = .next s)) ∧
  (∀ (w : StrawId) (i : Fin 16) (v : W32) (s : State),
    let x := s.straw w.val
    let second := v.getLsbD 31 = true ∧ ∃ j, j < 16 ∧ j ≠ i.val ∧ (x.shareAt j).getLsbD 31 = true
    (second → ∃ t, exec (.shareWrite w i v) s = .next t ∧ t.straw w.val = x ∧
      ∀ n, s.sheafOf w.val = some n → (t.sheaf n).cfgErr = true) ∧
    (¬ second → ∃ t, exec (.shareWrite w i v) s = .next t ∧ (∀ j, j ≠ i.val → (t.straw w.val).shareAt j = x.shareAt j) ∧
      let r := (t.straw w.val).shareAt i.val
      r.getLsbD 31 = v.getLsbD 31 ∧ fld r 15 0 = fld v 15 0 ∧
        fld r 23 16 = if fld v 23 16 = 0 then fld (x.shareAt i.val) 23 16 else fld v 23 16)) ∧
  ∀ (axis : Fin 3) (coord : Fin 4) (mask : BitVec 4) (s : State),
    let r := s.ring axis.val
    (∃ t, exec (.ringAbsentClear axis mask) s = .next t ∧ (t.ring axis.val).absent = r.absent &&& ~~~mask ∧
      (t.ring axis.val).state = t.ringState axis.val) ∧
    (s.torusTo axis.val coord.val = none → exec (.coordAbsent axis coord) s = .next s) ∧
    ∀ ws, s.torusTo axis.val coord.val = some ws →
      let gone := (∀ w ∈ ws, (s.straw w).state ≠ .up) ∧ (∃ w ∈ ws, (s.straw w).missingSeen = true) ∧
        r.absent.getLsbD coord.val = false
      (gone → ∃ t, exec (.coordAbsent axis coord) s = .next t ∧ (t.ring axis.val).absent = putBit r.absent coord.val true ∧
        (t.ring axis.val).state = t.ringState axis.val ∧
        ∀ b, s.fab.plan = some b → ∀ i, i < 64 → i ≠ coordIx s.fab.coord → leAt b (32 + 16 * i + 8) 1 % 2 = 1 →
          (ecOf (s.pkgOfIx i) 0 0 0 0x7F, StwMsg.absent axis coord) ∈ t.host.stwOut) ∧
      (¬ gone → exec (.coordAbsent axis coord) s = .next s))

/-- A combiner node takes a RED_UP (R346 to R349, R353, R356, R359, R362, Table 10-5): without an entry, on a closed
key, after the node has answered, or from no child of it, the packet is discarded and counted; a wrong function or
length, or a second packet of one child, or want of a slot, aborts the key upward or, at the root, downward, as does an
edge that is not UP when the key arrives; a good one is stored; the last child's sends the payloads, combined in child
order, to the parent, or, at the root, to every child, and closes the key. What ends a key at a node (R346, R349, R359):
a result or an abort from the parent goes to every child and closes the key; a stale one is counted; an abort from a
child goes on up, or down from the root; a gather that takes too long fails, a down packet that does not come frees the
slot. Where the spec leaves something open, its clauses follow the model's choices in log entries 28, 29, 30 and 196. -/
def Obligations.ReductionNodes : Prop :=
  (
  ∀ (n : NodeId) (pkt : Packet) (m : Nat) (e : RedNode) (s : State),
    let i := nodeIx n
    let c := s.comb i
    let k := pktKey pkt
    let x := (e.key k).getD { key := k }
    let ix := pktCidx pkt
    let bytes := pkt.payload
    let parts := Tab.set none x.parts ix (some bytes)
    let res := combineAll e.rfn ((List.range e.fanin).map (fun d => (Tab.get none parts d).getD []))
    let refused := exec (.redUp n pkt) s = .next (((s.takePkt pkt).rideIn pkt).redDiscard i)
    let up := fun (t : State) (op : BitVec 8) (b : List Byte) => ∃ q ∈ t.fab.sent, q.op = op ∧ q.kind = 3 ∧ q.vc = 4 ∧
      q.dst = entryEc e.words 2 ∧ q.via = viaStraw (entryPvia e.words) ∧ q.payload = b
    let down := fun (t : State) (op : BitVec 8) (b : List Byte) => ∀ d, d < e.fanin → ∃ q ∈ t.fab.sent, q.op = op ∧ q.kind = 3 ∧
      q.vc = 5 ∧ q.dst = entryEc e.words (4 + 2 * d) ∧ q.via = viaStraw (e.cvia d) ∧ q.payload = b
    let waits := fun (t : State) => ∃ e', (t.comb i).nodes[m]? = some e' ∧ ∃ y, e'.key k = some y ∧ y.st = .awaitDown
    let closed := fun (t : State) => k ∈ (t.comb i).closed ∧ ∃ e', (t.comb i).nodes[m]? = some e' ∧ e'.key k = none
    let good := pktRfn pkt = e.rfn ∧ (e.rfn = 1 → bytes.length ≤ 1024) ∧ Tab.get none x.parts ix = none ∧
      ∀ q ∈ x.parts, ∀ b, q.2 = some b → b.length = bytes.length
    let parentDown := e.root = false ∧ s.edgeDown (entryPvia e.words) = true
    (c.find pkt = none ∨ k ∈ c.closed → refused) ∧
    (c.find pkt = some m → c.nodes[m]? = some e → k ∉ c.closed →
      (x.st = .awaitDown ∨ e.fanin ≤ ix → refused) ∧
      (x.st = .gather → ix < e.fanin →
        (¬ good ∨ e.win * e.fanin ≤ e.used → ∃ t, exec (.redUp n pkt) s = .next t ∧ (t.comb i).aborts = satAdd c.aborts 1 ∧
          (t.comb i).discard = satAdd c.discard 1 ∧
          (if e.root then down t 0x32 (abortPayload (s.combEc i) ix) ∧ closed t
           else up t 0x32 (abortPayload (s.combEc i) ix) ∧ waits t)) ∧
        (good → e.used < e.win * e.fanin → parts.length = 1 → parentDown → ∃ t, exec (.redUp n pkt) s = .next t ∧
          (t.comb i).aborts = satAdd c.aborts 1 ∧ down t 0x32 (abortPayload (s.combEc i) 0xFF) ∧ closed t) ∧
        (good → e.used < e.win * e.fanin → parts.length = 1 → ¬ parentDown → (∃ d, d < e.fanin ∧ s.edgeDown (e.cvia d) = true) →
          ∃ t, exec (.redUp n pkt) s = .next t ∧ (t.comb i).aborts = satAdd c.aborts 1 ∧ if e.root then closed t else waits t) ∧
        (good → e.used < e.win * e.fanin → parts.length ≠ 1 ∨ ¬ parentDown ∧ (∀ d, d < e.fanin → s.edgeDown (e.cvia d) = false) →
          (parts.length ≠ e.fanin → ∃ t, exec (.redUp n pkt) s = .next t ∧
            ∃ e', (t.comb i).nodes[m]? = some e' ∧ e'.key k = some { x with parts := parts }) ∧
          (parts.length = e.fanin → ∃ t, exec (.redUp n pkt) s = .next t ∧ (t.comb i).combined = satAdd c.combined 1 ∧
            (if e.root then down t 0x31 res ∧ closed t else up t 0x30 res ∧ waits t)))))) ∧
  (
  ∀ (n : NodeId) (pkt : Packet) (m : Nat) (e : RedNode) (x : NodeKey) (key : RedKey) (s : State),
    let i := nodeIx n
    let c := s.comb i
    let k := pktKey pkt
    let up := fun (t : State) (k : RedKey) => (∃ q ∈ t.fab.sent, q.op = 0x32 ∧ q.vc = 4 ∧ q.dst = entryEc e.words 2) ∧
      ∃ e', (t.comb i).nodes[m]? = some e' ∧ ∃ y, e'.key k = some y ∧ y.st = .awaitDown
    let down := fun (t : State) (op : BitVec 8) => ∀ d, d < e.fanin → ∃ q ∈ t.fab.sent, q.op = op ∧ q.vc = 5 ∧
      q.dst = entryEc e.words (4 + 2 * d)
    let closed := fun (t : State) (k : RedKey) => k ∈ (t.comb i).closed ∧ ∃ e', (t.comb i).nodes[m]? = some e' ∧ e'.key k = none
    let stale := pkt.gen ≠ (s.ctx pkt.ctx.toNat).gen
    (stale → ∃ t, exec (.redDown (.node n) pkt) s = .next t ∧ (t.comb i).discard = satAdd c.discard 1 ∧ (t.comb i).nodes = c.nodes) ∧
    (c.find pkt = some m → c.nodes[m]? = some e → k ∉ c.closed → e.key k = some x →
      (¬ stale → x.st = .awaitDown → ∃ t, exec (.redDown (.node n) pkt) s = .next t ∧ down t 0x31 ∧ closed t k) ∧
      (¬ stale → x.st = .gather → ∃ t, exec (.redDown (.node n) pkt) s = .next t ∧ (t.comb i).discard = satAdd c.discard 1 ∧
        (t.comb i).nodes = c.nodes) ∧
      (pktDown pkt = true → ∃ t, exec (.redAbort (.node n) pkt) s = .next t ∧ down t 0x32 ∧ closed t k) ∧
      (pktDown pkt = false → x.st = .gather → ∃ t, exec (.redAbort (.node n) pkt) s = .next t ∧
        (t.comb i).aborts = satAdd c.aborts 1 ∧ if e.root then down t 0x32 ∧ closed t k else up t k)) ∧
    (c.ofKey key = none → exec (.gatherTimeout n key) s = .next s ∧ exec (.awaitDownTimeout n key) s = .next s) ∧
    (c.ofKey key = some m → c.nodes[m]? = some e → e.key key = some x →
      (x.st = .gather → exec (.awaitDownTimeout n key) s = .next s ∧ ∃ t, exec (.gatherTimeout n key) s = .next t ∧
        (t.comb i).aborts = satAdd c.aborts 1 ∧ if e.root then down t 0x32 ∧ closed t key else up t key) ∧
      (x.st = .awaitDown → exec (.gatherTimeout n key) s = .next s ∧ ∃ t, exec (.awaitDownTimeout n key) s = .next t ∧ closed t key)))

/-- Leaves (R350 to R352, R358, R360): an accepted post goes to its parent while its window has room and is held
otherwise, and one without a leaf or out of order fails; a result is written and then 1 is added to the sync cell; an
abort, or no result in time, adds 2^32 and is recorded. Where the spec leaves something open, its clauses follow the
model's choices in log entries 31 and 196. -/
def Obligations.LeavesPostAndComplete : Prop :=
  (∀ (p : PanId) (q : RedPost) (rest : List RedPost) (n : Nat) (e : RedLeaf) (s : State),
    let u := s.leaf p.val
    let runs := fun (t : State) => exec (.reductionPostAccept p) s = .next t
    let k : RedKey := { tree := q.tree, tag := q.tag, chunk := q.chunk }
    let bytes := if q.masked then q.payload else s.storeRead p.val q.roff (q.h * 16)
    (u.posts = [] ∨ 256 ≤ s.movUsed p.val → runs s) ∧
    (u.posts = q :: rest → s.movUsed p.val < 256 →
      (u.find q.tree = none → ∃ t, runs t ∧ (t.leaf p.val).posts = rest ∧ (t.leaf p.val).fails = satAdd u.fails 1 ∧
        (u.failValid = false → (t.leaf p.val).failStatus = 0x45 ∧ (t.leaf p.val).failChunk = q.chunk)) ∧
      (u.find q.tree = some n → u.leaves[n]? = some e → s.storeHeld p.val q.roff (q.h * 16) = false →
        (e.badPost q = true → ∃ t, runs t ∧ (t.leaf p.val).posts = rest ∧ (t.leaf p.val).fails = satAdd u.fails 1 ∧
          (u.failValid = false → (t.leaf p.val).failStatus = 0x46)) ∧
        (e.badPost q = false → q.masked = true ∨ s.homeClean (.store p.val q.roff) (q.h * 16) →
          (e.out.length < e.win → (∀ y ∈ u.heldPosts, y.tree ≠ q.tree) → ∃ t, runs t ∧ (t.leaf p.val).posts = rest ∧
            (∃ y ∈ t.fab.sent, y.op = 0x30 ∧ y.vc = 4 ∧ y.dst = entryEc e.words 2 ∧ y.via = viaStraw (entryPvia e.words) ∧ y.src = s.panEc p.val 0x41 ∧ y.payload = bytes) ∧
            ∃ e', (t.leaf p.val).leaves[n]? = some e' ∧ e'.out = e.out ++ [{ key := k, roff := q.roff }]) ∧
          (e.win ≤ e.out.length → ∃ t, runs t ∧ (t.leaf p.val).posts = rest ∧ t.fab.sent = s.fab.sent ∧
            ∃ y, (t.leaf p.val).heldPosts = u.heldPosts ++ [y] ∧ y.tree = q.tree ∧ y.chunk = q.chunk ∧ y.payload = bytes))))) ∧
  (∀ (p : PanId) (pkt : Packet) (n : Nat) (e : RedLeaf) (o : LeafChunk) (s : State),
    let u := s.leaf p.val
    let k := pktKey pkt
    let cell := storeBase p.val + e.sync
    let len := pkt.payload.length
    let failed := fun (t : State) (status : BitVec 8) => (t.leaf p.val).fails = satAdd u.fails 1 ∧ t.word cell = s.word cell + 0x100000000 ∧
      (u.failValid = false → (t.leaf p.val).failStatus = status ∧ (t.leaf p.val).failTree = k.tree)
    u.leaves.findIdx? (fun e => e.v && decide (e.tree = k.tree) && decide (e.slice = pkt.slice) && decide (e.ctx = pkt.ctx)) = some n →
    u.leaves[n]? = some e → e.out.find? (fun x => x.key = k) = some o → s.leafHeld p.val pkt = false → e.sync % 8 = 0 →
    s.homeClean (.store p.val e.sync) 8 →
      (∃ t, exec (.redAbort (.leaf p) pkt) s = .next t ∧ failed t (BitVec.ofNat 8 (pktRedStatus pkt))) ∧
      (pkt.gen = (s.ctx pkt.ctx.toNat).gen →
        (e.res = false → ∃ t, exec (.redDown (.leaf p) pkt) s = .next t ∧ (t.leaf p.val).done = satAdd u.done 1 ∧
          t.word cell = s.word cell + 1) ∧
        (e.res = true → s.homeClean (.store p.val o.roff) len → o.roff + len ≤ e.sync ∨ e.sync + 8 ≤ o.roff →
          ∃ t, exec (.redDown (.leaf p) pkt) s = .next t ∧ (t.leaf p.val).done = satAdd u.done 1 ∧
            t.word cell = s.word cell + 1 ∧ t.storeRead p.val o.roff len = pkt.payload)) ∧
      (pkt.gen ≠ (s.ctx pkt.ctx.toNat).gen → ∃ t, exec (.redDown (.leaf p) pkt) s = .next t ∧
        t.red.leaves = s.red.leaves ∧ (t.comb p.val).discard = satAdd (s.comb p.val).discard 1 ∧ t.mem = s.mem)) ∧
  ∀ (p : PanId) (k : RedKey) (n : Nat) (e : RedLeaf) (s : State),
    let u := s.leaf p.val
    let at_ := u.leaves.findIdx? (fun e => e.out.any (fun o => o.key = k))
    (at_ = none → exec (.resultTimeout p k) s = .next s) ∧
    (at_ = some n → u.leaves[n]? = some e → e.sync % 8 = 0 → s.homeClean (.store p.val e.sync) 8 →
      ∃ t, exec (.resultTimeout p k) s = .next t ∧ (t.leaf p.val).fails = satAdd u.fails 1 ∧
        t.word (storeBase p.val + e.sync) = s.word (storeBase p.val + e.sync) + 0x100000000 ∧
        (u.failValid = false → (t.leaf p.val).failStatus = 0x44 ∧ (t.leaf p.val).failChunk = k.chunk))

/-- Homes take in PREPARE and LOCK packets (R370 to R373, R380, R617, Table 11-7): a straw stages a PREPARE while its
slice has a slot, else answers STAGE_FULL; a resetting home answers DOMAIN_RESETTING, one whose check fails its code, a
full lock table LOCK_FULL; else the record locks every line that no other bundle uses; once all lines are locked and
read it is PREPARED with the image of its actions and votes, or refuses where a line is uncorrectable; locks that take
too long are refused. Decisions at homes and agents (R373, R379, R382, R386, R387, Table 11-7), for a record on which no
request waits: COMMIT writes every line of the image and confirms, at an agent it goes on to the controllers; with
another generation or in a resetting domain it is answered DOMAIN_RESETTING; ABORT, a wound answered without a record,
or no answer at all frees the record and writes nothing; RELEASE frees a committed record; a PREPARED record asks for
its decision. Where the spec leaves something open, its clauses follow the model's choices in log entries 5, 40, 41 and
52. -/
def Obligations.HomesTakePart : Prop :=
  (
  (∀ (w : StrawId) (pkt : Packet) (s : State),
    let slots := fun (t : State) => (Tab.get {} t.red.slots w.val : StrawSlots)
    let k := slots s
    let cap := match k.parts.find? (fun x => x.slice = pkt.slice) with
      | some x => x.bnd
      | none => 0
    let used := k.staged.countP (fun x => x.slice = pkt.slice)
    (used < cap → ∃ t, exec (.prepareStaging w pkt) s = .next t ∧ { t with red := s.red } = s ∧
      slots t = { k with staged := k.staged ++ [{ slice := pkt.slice, pkt := pkt }], stagedCt := satAdd k.stagedCt 1 }) ∧
    (cap ≤ used → ∃ u, exec (.prepareStaging w pkt) s = .next (u.bndReply pkt 0 0x04 (s.dom 1).gen) ∧
      slots u = { k with fullCt := satAdd k.fullCt 1 } ∧ u.fab.ingress = s.fab.ingress.erase pkt)) ∧
  (∀ (p : PanId) (n : StackId) (pkt : Packet) (s : State),
    ∀ q ∈ [(Instr.prepare (.store p) pkt, HomeId.store p, (0x20 : BitVec 8), pkt.payload),
        (.lock n pkt, .stack n, 0x21, pkt.payload.drop 8)],
      let h := q.2.1
      let pk : Packet := { pkt with op := q.2.2.1 }
      let id := bndIdOf (bndCoord pk) (bndRef pk)
      let acts := parseActs 256 q.2.2.2
      let bad := if acts.any (badAct h) then 0x07 else s.bndCheck h pk
      let ls := actLines acts
      let answered := fun (st code : Nat) (gen : BitVec 8) => ∃ u : State, exec q.1 s = .next u ∧
        { u with red := s.red } = (s.consume pk).bndReply pk st code gen
      (s.homeDown h = true → answered 1 0x05 0) ∧
      (s.homeDown h = false → s.homeRec h id = none → bndPart pk = 0 →
        (bad ≠ 0 → answered 0 bad (s.homeGen h)) ∧
        (bad = 0 → bndLast pk = true → (∀ x ∈ s.recs h, ∀ l ∈ x.lines, l.1 ∉ ls) →
          (lockEntries (s.recs h) + ls.length ≤ homeCap h → ∃ t r, exec q.1 s = .next t ∧ t.homeRec h id = some r ∧
            r.st = .locking ∧ r.lines = ls.map (fun l => (l, true)) ∧ r.actions = acts ∧ r.ctx = pkt.ctx ∧ t.mem = s.mem) ∧
          (homeCap h < lockEntries (s.recs h) + ls.length → ∃ t, exec q.1 s = .next t ∧ t.homeRec h id = none ∧ t.mem = s.mem)))) ∧
  (∀ (h : HomeId) (id : BndId) (r : HomeRec) (s : State), s.homeRec h id = some r → r.waiters = [] →
    let ls := r.lines.map (fun l => l.1)
    let clean := match h with
      | .stack _ => ∀ l ∈ ls, Tab.get none s.mem.line l = none
      | .store p | .agent p => ∀ l ∈ ls, storeBase p.val ≤ l * 64 ∧ s.homeClean (.store p.val (l * 64 - storeBase p.val)) 64
    (r.agent = false → r.st = .locking → r.lines ≠ [] → (∀ l ∈ r.lines, l.2 = true) →
      (clean → ∃ (u : State) (r' : HomeRec), exec (.linesLocked h id false) s = .next (u.vote h r' 0) ∧ u.homeRec h id = some r' ∧
        r' = { r with st := .prepared, hgen := s.homeGen h, image := s.images ls r.actions } ∧ u.mem = s.mem) ∧
      (∀ n, h = .stack n → ∃ t, exec (.linesLocked h id true) s = .next t ∧ t.homeRec h id = none ∧
        t.mem.bytes = s.mem.bytes)) ∧
    (r.agent = true ∨ r.st ≠ .locking ∨ (∃ l ∈ r.lines, l.2 = false) → ∀ ue, exec (.linesLocked h id ue) s = .next s) ∧
    (r.st = .locking → ∃ t, exec (.lockingTimeout h id) s = .next t ∧ t.homeRec h id = none ∧ t.mem = s.mem) ∧
    (r.st ≠ .locking → exec (.lockingTimeout h id) s = .next s))) ∧
  (
  ∀ (h : HomeId) (pkt : Packet) (id : BndId) (r : HomeRec) (s : State),
    let s0 := s.consume pkt
    let byCoord := bndIdOf (bndCoord pkt) (bndRef pkt)
    let bySrc := bndIdOf pkt.src (bndRef pkt)
    let stale := s.homeDown h = true ∨ bndHgen pkt ≠ s.homeGen h
    let gone := fun (t : State) (id : BndId) => t.homeRec h id = none ∧ t.mem = s.mem
    let lines := (r.image.map (fun x => x.1)).Nodup ∧ (∀ x ∈ r.image, x.2.length = 64) ∧
      ∀ p, h = .store p → ∀ x ∈ r.image, storeBase p.val ≤ x.1 * 64
    let written := fun (id : BndId) (c : Instr) => ∃ (u : State) (r' : HomeRec), exec c s = .next (u.bndReply r.commitReq 0 0 r.hgen) ∧
      u.homeRec h id = some r' ∧ r'.st = .committed ∧ r'.image = [] ∧
      (∀ x ∈ r.image, u.read (x.1 * 64) 64 = x.2) ∧
      ∀ b, (∀ x ∈ r.image, b < x.1 * 64 ∨ x.1 * 64 + 64 ≤ b) → Tab.get 0 u.mem.bytes b = Tab.get 0 s.mem.bytes b
    (stale → exec (.commit h pkt) s = .next (s0.bndReply pkt 1 0x05 0)) ∧
    (¬ stale → s.homeRec h byCoord = none → exec (.commit h pkt) s = .next s0) ∧
    (¬ stale → s.homeRec h byCoord = some r → r.waiters = [] →
      (∀ p, h = .agent p → r.st = .prepared → exec (.commit h pkt) s = .next (s0.toStacks p.val r 0x22 (fun k => !k.applied))) ∧
      ((∀ p, h ≠ .agent p) → r.st = .prepared → lines → written byCoord (.commit h pkt)) ∧
      ((∀ p, h ≠ .agent p) → r.st = .committed → exec (.commit h pkt) s = .next (s0.bndReply r.commitReq 0 0 r.hgen))) ∧
    (s.homeRec h byCoord = none → exec (.abort h pkt) s = .next (s0.bndReply pkt 0 0 0) ∧
      exec (.release h pkt) s = .next (s0.bndReply pkt 0 0 0)) ∧
    (s.homeRec h byCoord = some r → r.waiters = [] →
      (r.st ≠ .committed → exec (.release h pkt) s = .next (s0.bndReply pkt 0 0 0) ∧
        ∃ u, exec (.abort h pkt) s = .next (u.bndReply pkt 0 0 0) ∧ gone u byCoord) ∧
      (r.st = .committed → exec (.abort h pkt) s = .next (s0.bndReply pkt 0 0 0) ∧
        ∃ u, exec (.release h pkt) s = .next (u.bndReply pkt 0 0 0) ∧ gone u byCoord)) ∧
    (s.homeRec h bySrc = some r → r.waiters = [] → r.st = .prepared →
      (bndCode pkt = 0x05 → ∃ t, exec (.woundReply h pkt) s = .next t ∧ gone t bySrc) ∧
      (bndCode pkt ≠ 0x05 → exec (.woundReply h pkt) s = .next s0) ∧
      (bndCode pkt ≠ 0 → ∃ t, exec (.bndDecision h pkt) s = .next t ∧ gone t bySrc) ∧
      (bndCode pkt = 0 → (∀ p, h ≠ .agent p) → lines → written bySrc (.bndDecision h pkt))) ∧
    (s.homeRec h id = some r → r.waiters = [] →
      (r.st = .prepared → exec (.committedExpire h id) s = .next s ∧
        exec (.preparedQueryTimer h id) s = .next ((s.setRec h { r with late := true }).bndCtl r.req.dst r.coord r.coord r.ctx r.gen
          0x26 (refOf r.id r.tidx) 0) ∧
        ∃ t, exec (.bndOrphan h id) s = .next t ∧ gone t id ∧ t.flt.count = s.flt.count + 1) ∧
      (r.st = .committed → exec (.preparedQueryTimer h id) s = .next s ∧ exec (.bndOrphan h id) s = .next s ∧
        ∃ t, exec (.committedExpire h id) s = .next t ∧ gone t id)))

/-- Decisions at coordinators (R377, R378, R382, R384, R385, R387, R388), where no commit waits for the log: a vote
against, a wound or the deadline aborts the bundle; the last vote for it commits; a vote, wound or query without an
undecided record changes nothing but the answer; APPLIED from every target sends RELEASE, DOMAIN_RESETTING tears the
bundle, and acknowledged releases end it; a late commit completes with BND_LATE. At an agent the controllers' votes and
answers are collected. Where the spec leaves something open, its clauses follow the model's choices in log entries 38
and 39. -/
def Obligations.CoordinatorsDecide : Prop :=
  ∀ (p : PanId) (pkt : Packet) (r : CoordRec) (s : State),
    let s0 := s.consume pkt
    let ref := bndRef pkt
    let id := bndIdOf (s.coordEc p.val) ref
    let gone := fun (t : State) => ∀ x ∈ (t.panBnd p.val).coord, x.id ≠ id
    let aborted := fun (t : State) => gone t ∧ (t.panBnd p.val).aborts = satAdd (s.panBnd p.val).aborts 1
    let i := spkOfFloret r.floret.val
    let idle := (∀ x ∈ (s.panBnd p.val).coord, x.sent = true) ∧ (s.spk i).drains = [] ∧
      ∀ e ∈ (s.spk i).slots, ∀ y, e.2 = some y → y.stage = .held → y.kind = .signal
    let told := fun (t : State) (result : Nat) => ∀ n d x, r.owed = some (n, d) → (s.spk i).slot n = some x → x.kind = .commit →
      x.floret = floretNo r.floret.val → x.dst ≠ 0 → (t.floret r.floret.val).rd x.dst = BitVec.ofNat 64 result ∧ (t.spk i).slot n = none
    let code := if pkt.status = 1 then 0x05 else bndCode pkt
    let voted := fun (t : BndTarget) => { r with targets := putAt r.targets ref.tidx { t with voted := true, hgen := bndHgen pkt } }
    let acked := fun (t : BndTarget) => { r with targets := putAt r.targets ref.tidx { t with applied := true } }
    let freed := fun (t : BndTarget) => { r with targets := putAt r.targets ref.tidx { t with released := true } }
    (s.coordRec p.val id = none →
      exec (.wound p pkt) s = .next (s0.bndReply pkt 0 0x05 0) ∧ exec (.bndQuery p pkt) s = .next (s0.bndReply pkt 0 0x05 0) ∧
      (fromStack pkt = false → exec (.vote p pkt) s = .next s0 ∧ exec (.applied p pkt) s = .next s0) ∧
      exec (.releaseAck p pkt) s = .next s0 ∧
      exec (.prepareDeadline p id) s = .next s ∧ exec (.commitLate p id) s = .next s ∧ exec (.commitResend p id) s = .next s ∧
      exec (.decisionLogExpire p id) s = .next s) ∧
    (s.coordRec p.val id = some r → r.committed = false → idle →
      exec (.bndQuery p pkt) s = .next s0 ∧ exec (.commitLate p id) s = .next s ∧ exec (.commitResend p id) s = .next s ∧
      exec (.decisionLogExpire p id) s = .next s ∧
      (∃ u, exec (.wound p pkt) s = .next (u.bndReply pkt 0 0x01 0) ∧ aborted u ∧ told u (0x01 + ref.tidx * 256)) ∧
      (∃ t, exec (.prepareDeadline p id) s = .next t ∧ aborted t ∧ told t 0x02) ∧
      (fromStack pkt = false → code ≠ 0 → code ≤ 0x0A → ∃ t, exec (.vote p pkt) s = .next t ∧ aborted t ∧
        told t (code + ref.tidx * 256)) ∧
      (fromStack pkt = false → pkt.status ≠ 1 → bndCode pkt = 0 → ∀ t, r.targets[ref.tidx]? = some t →
        ((voted t).targets.all (fun x => x.voted) = false → exec (.vote p pkt) s = .next (s0.setCoord p.val (voted t))) ∧
        ((voted t).targets.all (fun x => x.voted) = true → exec (.vote p pkt) s = .next
          ((s0.setCoord p.val { voted t with committed := true }).toTargets p.val { voted t with committed := true } 0x22
            (fun _ => true))))) ∧
    (s.coordRec p.val id = some r → r.committed = true →
      exec (.wound p pkt) s = .next (s0.bndReply pkt 0 0 0) ∧ exec (.bndQuery p pkt) s = .next (s0.bndReply pkt 0 0 0) ∧
      exec (.prepareDeadline p id) s = .next s ∧
      exec (.commitResend p id) s = .next (s.toTargets p.val r 0x22 (fun t => !t.applied && !t.torn)) ∧
      (r.owed.isSome = true → idle → ∃ t, exec (.commitLate p id) s = .next t ∧ t.flt.count = s.flt.count + 1 ∧
        t.coordRec p.val id = some { r with owed := none } ∧ told t 0x80 ∧
        ((s.panBnd p.val).evtValid = false → (t.panBnd p.val).evtValid = true ∧ (t.panBnd p.val).evtKind = 2)) ∧
      (r.owed = none → exec (.commitLate p id) s = .next s) ∧
      (idle → ∃ t, exec (.decisionLogExpire p id) s = .next t ∧ gone t ∧
        t.flt.count = if r.targets.all (fun x => x.applied || x.torn) then s.flt.count else s.flt.count + 1) ∧
      (fromStack pkt = false → ∀ t, r.targets[ref.tidx]? = some t →
        (pkt.status ≠ 1 → (acked t).targets.all (fun x => x.applied || x.torn) = false →
          exec (.applied p pkt) s = .next (s0.setCoord p.val (acked t))) ∧
        (pkt.status ≠ 1 → r.owed = none → (acked t).targets.all (fun x => x.applied || x.torn) = true →
          exec (.applied p pkt) s = .next ((s0.setCoord p.val (acked t)).toTargets p.val (acked t) 0x24 (fun _ => true))) ∧
        (pkt.status = 1 → t.torn = false → idle → ∃ u, exec (.applied p pkt) s = .next u ∧ u.flt.count = s.flt.count + 1 ∧ told u 0x81 ∧
          ((s.panBnd p.val).evtValid = false → (u.panBnd p.val).evtKind = 0) ∧
          ∃ r', u.coordRec p.val id = some r' ∧ r'.owed = none ∧ ∃ t', r'.targets[ref.tidx]? = some t' ∧ t'.torn = true) ∧
        (pkt.op = 0xA4 → (freed t).targets.all (fun x => x.released) = false →
          exec (.releaseAck p pkt) s = .next (s0.setCoord p.val (freed t))) ∧
        (pkt.op = 0xA4 → (freed t).targets.all (fun x => x.released) = true → idle →
          ∃ u, exec (.releaseAck p pkt) s = .next u ∧ gone u))) ∧
    (∀ (a : HomeRec), fromStack pkt = true →
      let aid := bndIdOf (pkt.opa.setWidth 48) ref
      let n := stackOfEc pkt.src
      let ks := a.ctrls.map (fun (k : AgentStack) => if k.stack = n then { k with voted := true, hgen := bndHgen pkt } else k)
      let ds := a.ctrls.map (fun (k : AgentStack) => if k.stack = n then { k with applied := true } else k)
      s.homeRec (.agent p) aid = some a → a.waiters = [] →
        (a.st = .locking → code ≠ 0 → ∃ t, exec (.vote p pkt) s = .next t ∧ t.homeRec (.agent p) aid = none) ∧
        (a.st = .locking → code = 0 → ks.all (fun k => k.voted) = false →
          exec (.vote p pkt) s = .next (s0.setRec (.agent p) { a with ctrls := ks })) ∧
        (a.st = .locking → code = 0 → ks.all (fun k => k.voted) = true → ∃ (u : State) (r' : HomeRec), exec (.vote p pkt) s = .next (u.vote (.agent p) r' 0) ∧
          u.homeRec (.agent p) aid = some r' ∧ r'.st = .prepared ∧ r'.hgen = s.homeGen (.agent p)) ∧
        (a.st = .prepared → pkt.status ≠ 1 → ds.all (fun k => k.applied) = false →
          exec (.applied p pkt) s = .next (s0.setRec (.agent p) { a with ctrls := ds })) ∧
        (a.st = .prepared → pkt.status ≠ 1 → a.torn = false → ds.all (fun k => k.applied) = true → ∃ (u : State) (r' : HomeRec), exec (.applied p pkt) s = .next
          (u.bndReply r'.commitReq 0 0 r'.hgen) ∧ u.homeRec (.agent p) aid = some r' ∧ r'.st = .committed))

/-- Queues (R403 to R407, R428, Tables 12-4, 12-6): a tail more than a ring ahead of the head, or a completion count
past those written, stops a live queue; a running queue whose package is up fetches the 64 bytes at its head while its
completion ring has room, from host memory as the queue's owning function addresses it; a completion is written to the
ring in order, for the same function; the interrupt is signalled by count or time; a failed ring access stops the queue,
a failed access of a command completes it with HOST_DMA; enabling needs a valid configuration, disabling drains, a
restart goes on or skips what was not fetched. A steward's turn (R408, R409, R411, R421, R423): a free steward goes on
with a started command or starts one that its queue's order lets start, and counts the turn; a queue of priority p that
has had its 2^p turns of the round waits while another that needs a turn has some left (that the stewards share one
round is the model's choice, log entry 185); a bad opcode or reserved field completes with 0x100, a queue that may not
send it with 0x102, a context that is gone with 0x103; else, for a package that stands alone, it starts here. Where the
spec leaves something open, its clauses follow the model's choices in log entries 75, 76, 185 and 186. -/
def Obligations.QueuesAndStewards : Prop :=
  (
  ∀ (q : QueueId) (v cfg seq : W32) (c : HCmd) (status result : Nat) (s : State),
    let x := s.queue q.val
    let stopped := fun (t : State) (cause : BitVec 4) => (t.queue q.val).st = .stopped ∧ (t.queue q.val).cause = cause
    let ready := s.boot.phase = 8 ∧ s.boot.recovery = false ∧ x.st = .running ∧ x.head ≠ x.tail ∧
      (x.head - x.cqHead).toNat < 2 ^ x.n ∧ s.inflight < 4096
    let ahead := fun (tail cqHead : W32) => 2 ^ x.n < (tail - x.head).toNat ∨
      (cqHead ≠ x.cqCount ∧ (cqHead - x.cqCount).toNat < 2 ^ 31)
    let above := x.live = true ∧ ahead v x.cqHead
    let past := x.live = true ∧ ahead x.tail v
    let due := fun (timer : Bool) => 0 < x.irqOwed ∧ x.irq.getLsbD 15 = true ∧ (timer = true ∨ fld x.irq 23 16 ≤ x.irqOwed)
    (above → ∃ t, exec (.sqTail q v) s = .next t ∧ stopped t 1) ∧
    (¬ above → exec (.sqTail q v) s = .next (s.setQueue q.val { x with tail := v })) ∧
    (past → ∃ t, exec (.cqHead q v) s = .next t ∧ stopped t 1) ∧
    (¬ past → exec (.cqHead q v) s = .next (s.setQueue q.val { x with cqHead := v })) ∧
    (ready → ∃ t, exec (.commandFetch q) s = .next t ∧ (t.queue q.val).head = x.head + 1 ∧ t.mem = s.mem ∧
      ∃ d, (t.queue q.val).cmds = x.cmds ++ [d] ∧ d.seq = x.head ∧ d.started = false ∧ d.cfg = x.cfg ∧ d.gen = x.gen ∧
        d.bytes = s.hostRead (fld x.cfg 5 0) (x.base.toNat + 64 * (x.head.toNat % 2 ^ x.n)) 64) ∧
    (¬ ready → exec (.commandFetch q) s = .next s) ∧
    (x.cmd seq = some c → c.discard = false → c.via = none → c.opcode ≠ 5 → c.opcode ≠ 6 →
      let t := s.complete q seq status result
      let at_ := x.cqBase.toNat + 16 * (x.cqCount.toNat % 2 ^ x.n)
      t.hostRead c.fn at_ 16 = cqEntry q x seq status result ∧ (t.queue q.val).cqCount = x.cqCount + 1 ∧
        (t.queue q.val).cmds = x.cmds.filter (fun d => d.seq ≠ seq) ∧
        (t.queue q.val).irqOwed = (if c.irq then x.irqOwed + 1 else x.irqOwed) ∧
        ∀ b, b < hostKey c.fn at_ ∨ hostKey c.fn at_ + 16 ≤ b → Tab.get 0 t.mem.host b = Tab.get 0 s.mem.host b) ∧
    (∀ timer, (due timer → ∃ t, exec (.queueIrq q timer) s = .next t ∧ t.host.msix = s.host.msix ++ [(fld x.cfg 5 0, fld x.irq 7 0)] ∧
        (t.queue q.val).irqOwed = if fld x.irq 23 16 = 0 ∧ timer = false then x.irqOwed - 1 else 0) ∧
      (¬ due timer → exec (.queueIrq q timer) s = .next s)) ∧
    (x.live = true → ∃ t, exec (.hostDmaError q seq true) s = .next t ∧ stopped t 2) ∧
    (x.live = false → exec (.hostDmaError q seq true) s = .next s) ∧
    (s.cmd q seq = some c → exec (.hostDmaError q seq false) s = .next (if c.started then s.finish q seq 0x109 (if c.opcode = 2 ∨ c.opcode = 3 then c.step else 0) else s)) ∧
    (x.st = .disabled → s.cfgOk cfg = true → ∃ t, exec (.queueEnable q cfg) s = .next t ∧ { t with host := s.host } = s ∧
      (t.queue q.val).st = .running ∧ (t.queue q.val).head = x.tail ∧ (t.queue q.val).cfg.getLsbD 31 = true ∧
      (t.queue q.val).cmds = x.cmds) ∧
    (x.st = .disabled → s.cfgOk cfg = false → ∃ t, exec (.queueEnable q cfg) s = .next t ∧ (t.queue q.val).st = .disabled ∧
      (t.queue q.val).cfgErr = true) ∧
    (x.st ≠ .disabled → exec (.queueEnable q cfg) s = .next s) ∧
    (x.st = .running → ∃ t, exec (.queueDisable q) s = .next t ∧ (t.queue q.val).cfg.getLsbD 31 = false ∧
      (t.queue q.val).cmds = x.cmds ∧ (t.queue q.val).st = if x.cmds.all (fun d => d.discard) then .disabled else .draining) ∧
    (x.st = .stopped → ∃ t, exec (.queueDisable q) s = .next t ∧ (t.queue q.val).st = .disabled) ∧
    (x.st = .draining ∨ x.st = .disabled → exec (.queueDisable q) s = .next s) ∧
    (x.st = .stopped → exec (.queueRestart q false) s = .next (s.setQueue q.val { x with st := .running }) ∧
      ∃ t, exec (.queueRestart q true) s = .next t ∧ (t.queue q.val).st = .running ∧ (t.queue q.val).head = x.tail ∧
        (t.queue q.val).cqCount = x.cqCount + (x.tail - x.head) ∧ (t.queue q.val).cmds = x.cmds) ∧
    (x.st ≠ .stopped → ∀ skip, exec (.queueRestart q skip) s = .next s)) ∧
  (
  ∀ (w : Fin 4) (q : QueueId) (seq : W32) (c : HCmd) (s : State),
    let st := s.stew w.val
    let runs := fun (t : State) => exec (.stewardTurn w q seq) s = .next t
    let left := fun (e : QueueId × HCmd) => Tab.get 0 s.host.turns e.1.val < 2 ^ fld e.2.cfg 25 24
    let due := left (q, c) ∨ ∀ e ∈ s.allCmds, e.1 ≠ q → s.wantsTurn e.1 e.2 = true → ¬ left e
    let turns := if left (q, c) then Tab.upd 0 s.host.turns q.val (· + 1) else [(q.val, 1)]
    let took := fun (t : State) => (t.stew w.val).turn = some (q, seq) ∧ (t.stew w.val).turnAt = s.refcnt ∧ t.host.turns = turns
    let refuses := fun (status : Nat) => ∃ u : State, runs (u.complete q seq status 0) ∧ took u ∧ u.mem = s.mem ∧
      ∃ d, u.cmd q seq = some d ∧ d.started = true ∧ d.bytes = c.bytes
    let bad := opKnown c.opcode = false ∨ c.reserved = true
    exec (.stewardTurnEnd w) s = .next (s.setStew w.val { st with turn := none }) ∧
    (s.cmd q seq = none ∨ st.turn.isSome = true ∨ st.down = true → runs s) ∧
    (s.cmd q seq = some c → ¬ due → runs s) ∧
    (s.cmd q seq = some c → st.turn = none → st.down = false → due →
      (c.started = true → ∃ t, runs t ∧ took t ∧ { t with host := s.host } = s ∧ t.cmd q seq = some c ∧
        t.host = { s.host with stewards := t.host.stewards, turns := turns }) ∧
      (c.started = false → (s.queue q.val).mayStart c = false ∨ c.discard = true → runs s) ∧
      (c.started = false → (s.queue q.val).mayStart c = true → c.discard = false →
        (bad → refuses 0x100) ∧
        (¬ bad → c.permitted = false → refuses 0x102) ∧
        (¬ bad → c.permitted = true → s.ctxHere c = false → c.dv = false → refuses 0x103) ∧
        (¬ bad → c.permitted = true → s.ctxHere c = true → c.via = none → s.isMaster = true → c.all = false → c.dv = false →
          ∃ t d, runs t ∧ took t ∧ t.mem = s.mem ∧ t.cmd q seq = some d ∧ d.started = true ∧ d.local_ = c.local_ ∧
            d.startNo = s.host.starts ∧ d.bytes = c.bytes))))

/-- Commands that move data and signal (R410 to R415, Table 12-8), started here: a COPY in host memory copies every byte
in ascending pieces, a FILL repeats its value over package memory, a SIGNAL adds at its cell and gives the new value, a
WAIT ends at once when its cell has reached the threshold and is registered otherwise, its timeout completes it, with
ADDR_FAULT where the cell has become a shadow row, a FENCE completes once what it waits for has, a LAUNCH_GRAPH enters
its sequencer; bad parameters complete with 0x101. Where the spec leaves something open, its clauses follow the model's
choices in log entry 86. -/
def Obligations.CommandsMoveAndSignal : Prop :=
  ∀ (q : QueueId) (seq : W32) (c : HCmd) (s : State),
    let done := fun (u : State) (status result : Nat) => u.finish q seq status result
    (∀ (remote : List Byte), s.running q seq 2 = some c →
      (c.p 2 = 0 ∨ 2 ^ 40 < c.p 2 → exec (.copy q seq remote 0) s = .next (done s 0x101 0)) ∧
      (0 < c.p 2 → c.p 2 ≤ 2 ^ 40 → c.out = 0 → c.p 3 % 4 = 3 → s.hostGone c = true → exec (.copy q seq remote 0) s = .next (done s 0x109 c.step)) ∧
      (0 < c.p 2 → c.p 2 ≤ 2 ^ 40 → c.out ≠ 0 → exec (.copy q seq remote 0) s = .next s) ∧
      (0 < c.p 2 → c.p 2 ≤ 2 ^ 40 → c.out = 0 → c.via = none → c.p 3 % 4 = 3 → s.hostGone c = false → c.step = 0 →
        c.p 0 + c.p 2 ≤ c.p 1 ∨ c.p 1 + c.p 2 ≤ c.p 0 → ∃ u, exec (.copy q seq remote 0) s = .next (done u 0 (c.p 2)) ∧
          u.hostRead c.fn (c.p 1) (c.p 2) = s.hostRead c.fn (c.p 0) (c.p 2) ∧
          ∀ b, b < hostKey c.fn (c.p 1) ∨ hostKey c.fn (c.p 1) + c.p 2 ≤ b → Tab.get 0 u.mem.host b = Tab.get 0 s.mem.host b)) ∧
    (s.running q seq 3 = some c →
      (c.p 0 % 8 ≠ 0 ∨ c.p 1 % 8 ≠ 0 → exec (.fill q seq 0) s = .next (done s 0x101 0)) ∧
      (c.p 0 % 8 = 0 → c.p 1 % 8 = 0 → 0 < c.p 1 → c.p 1 ≤ 2048 → c.p 0 % 65536 + c.p 1 ≤ 65536 → c.step = 0 → c.out = 0 → ∀ g p off,
        let bs := (List.range (c.p 1 / 8)).flatMap (fun _ => toLE 8 (c.p 2))
        s.gaddr (BitVec.ofNat 64 (c.p 0)) = some g → g.own = true → ctxAddr g.loc = .store p off →
        s.homeCheck (s.cmdPkt c 0x11 0 bs) (.store p off) 524288 = 0 → s.holder (.store p off) (c.p 1) = none →
        s.homeClean (.store p off) (c.p 1) →
          ∃ u, exec (.fill q seq 0) s = .next (done u 0 (c.p 1)) ∧ HomeWritten s u (.store p off) bs)) ∧
    (s.running q seq 5 = some c → c.step = 0 →
      (c.p 0 % 8 ≠ 0 → exec (.signal q seq) s = .next (done s 0x101 0)) ∧
      (c.p 0 % 8 = 0 → ∀ g p off,
        let v := s.word (storeBase p + off) + BitVec.ofNat 64 (c.p 1)
        s.gaddr (BitVec.ofNat 64 (c.p 0)) = some g → g.own = true → ctxAddr g.loc = .store p off →
        s.homeCheck (s.cmdPkt c 0x08 (BitVec.ofNat 64 (c.p 1)) []) (.store p off) 524288 = 0 →
        s.holder (.store p off) 8 = none → s.homeClean (.store p off) 8 →
          ∃ u, exec (.signal q seq) s = .next (done u 0 v.toNat) ∧ HomeWritten s u (.store p off) (toLE 8 v.toNat))) ∧
    (s.running q seq 6 = some c → c.step = 0 → c.p 0 % 8 = 0 → ∀ g p off,
      let old := s.word (storeBase p + off)
      s.gaddr (BitVec.ofNat 64 (c.p 0)) = some g → g.own = true → ctxAddr g.loc = .store p off →
      s.homeCheck (s.cmdPkt c 0x09 (BitVec.ofNat 64 (c.p 1)) []) (.store p off) 524288 = 0 → s.homeClean (.store p off) 8 →
        (BitVec.ofNat 64 (c.p 1) ≤ old → ∃ u, exec (.wait q seq) s = .next (done u 0 old.toNat) ∧ u.mem = s.mem) ∧
        (old < BitVec.ofNat 64 (c.p 1) → ∃ t, exec (.wait q seq) s = .next t ∧ t.mem.waits = s.mem.waits ++
          [{ addr := storeBase p + off, threshold := BitVec.ofNat 64 (c.p 1), who := .queue q seq }] ∧
          ∃ d, t.cmd q seq = some d ∧ d.step = 1)) ∧
    (s.running q seq 6 = some c →
      (c.p 2 % 2 ^ 32 = 0 ∨ c.step = 0 → exec (.waitTimeout q seq) s = .next s) ∧
      (c.p 2 % 2 ^ 32 ≠ 0 → c.step ≠ 0 → (∀ r ∈ s.host.stwReqs, r.2 ≠ (q, seq)) →
        (∀ v, s.waitValue q seq = some v → exec (.waitTimeout q seq) s = .next (done s 0x10C v)) ∧
        (s.waitValue q seq = none → exec (.waitTimeout q seq) s = .next (done s 0x108 (addrFault 6 0))))) ∧
    (s.running q seq 4 = some c →
      let left := (if c.step = 0 then s.fenceSet q c else c.waitsOn).filter (fun e => s.outstanding e)
      (left = [] → exec (.fence q seq) s = .next (done s 0 0)) ∧
      (left ≠ [] → exec (.fence q seq) s = .next (s.setCmd q { c with step := 1, waitsOn := left }))) ∧
    (∀ (g : GraphDesc), s.running q seq 1 = some c → c.step = 0 →
      (20000 < c.budget ∨ c.p 0 % 64 ≠ 0 → ∀ st, exec (.launchGraph q seq g st) s = .next (done s 0x101 0)) ∧
      (c.budget ≤ 20000 → c.p 0 % 64 = 0 → g = [] → exec (.launchGraph q seq g 0) s = .next (done s 0 0)) ∧
      (c.budget ≤ 20000 → c.p 0 % 64 = 0 → g ≠ [] → ∃ t, exec (.launchGraph q seq g 0) s = .next t ∧
        (∃ d, t.cmd q seq = some d ∧ d.step = 1) ∧
        ∃ l ∈ (t.seqr (leadTiller g)).launches, l.queue = q ∧ l.seq = seq ∧ l.graph = g ∧ l.first = BitVec.ofNat 32 (c.p 2) ∧
          l.arg = BitVec.ofNat 64 (c.p 1) ∧ l.ctx = c.ctx))

/-- MAP and UNMAP (R177 to R179, R186, R390, R413, R415): bad ranges complete with 0x101, a page already mapped with
0x107, too few frames with 0x106; a 64 KiB page whose tables exist takes its frame, zeroed, and gets its leaf; an
unmapped page loses its leaf, and its frames leave the context and return to the free pool later. Where the spec leaves
something open, its clauses follow the model's choices in log entries 10 and 79. -/
def Obligations.MapAndUnmap : Prop :=
  ∀ (q : QueueId) (seq : W32) (m : HCmd) (pages tabs far : List Nat) (s : State),
    let c := m.ctx.toNat
    let x := s.ctx c
    let va := m.p 0
    let mapped := s.pagesIn c (stepsOf (m.p 1)) va (va + m.p 1)
    (∀ (k : CtxId) (frame : Nat), exec (.unmappedFrameReturn k frame) s = .next (s.setCtx k.val { s.ctx k.val with
      unmapped := (s.ctx k.val).unmapped.filter (fun u => u.ext.first ≠ frame) })) ∧
    (s.running q seq 7 = some m → m.step = 0 → s.mapTurn m = true →
      (m.p 2 % 4 = 3 ∨ m.rangeOk = false ∨ va % 65536 ≠ 0 → exec (.map q seq pages tabs far) s = .next (s.finish q seq 0x101 0)) ∧
      (m.p 2 % 4 = 0 → m.rangeOk = true → va % 65536 = 0 → m.p 1 % 65536 = 0 →
        (mapped ≠ [] → exec (.map q seq pages tabs far) s = .next (s.finish q seq 0x107 0)) ∧
        (mapped = [] → s.mapAll m 16 pages tabs far = none → exec (.map q seq pages tabs far) s = .next (s.finish q seq 0x106 0)) ∧
        (mapped = [] → m.p 1 = 65536 → m.far = false → m.p 4 = 0 → ∀ f t2 t3, pages = [f] → s.frameFree f = true →
          let e1 := x.l1 + 8 * fieldOf va 42 30
          let e2 := t2 + 8 * fieldOf va 29 21
          let e3 := t3 + 8 * fieldOf va 20 16
          (s.word e1).toNat = 2 ^ 63 + t2 → t2 < 2 ^ 44 → (s.word e2).toNat = 2 ^ 63 + t3 → t3 < 2 ^ 44 →
          (∀ a ∈ [e1, e2, e3], a + 8 ≤ f * 65536 ∨ f * 65536 + 65536 ≤ a) →
          ({ x with pages := x.pages ++ [{ first := f, count := 1 }] } : Ctx).within = true →
            ∃ u : State, exec (.map q seq pages tabs far) s = .next (u.invalidate q m 1 []) ∧
              (u.word e3).toNat = m.leafFlags + f * 65536 ∧ (u.ctx c).pages = x.pages ++ [{ first := f, count := 1 }] ∧
              (∀ b, f * 65536 ≤ b → b < f * 65536 + 65536 → Tab.get 0 u.mem.bytes b = 0) ∧
              ∀ b, (b < f * 65536 ∨ f * 65536 + 65536 ≤ b) → (b < e3 ∨ e3 + 8 ≤ b) →
                Tab.get 0 u.mem.bytes b = Tab.get 0 s.mem.bytes b))) ∧
    (s.running q seq 8 = some m → m.step = 0 → s.mapTurn m = true →
      (m.rangeOk = false → exec (.unmap q seq) s = .next (s.finish q seq 0x101 0)) ∧
      (m.rangeOk = true → mapped = [] → exec (.unmap q seq) s = .next (s.invalidate q m 0 [])) ∧
      (m.rangeOk = true → ∀ l, mapped = [(va, l)] → 2 ^ l.size ≤ m.p 1 → l.pte.getLsbD 59 = false → (∀ h ∈ x.farHeld, h.va ≠ va) →
        let e : Extent := { first := pteAddr l.pte / 65536, count := 2 ^ l.size / 65536 }
        ∃ u : State, exec (.unmap q seq) s = .next (u.invalidate q m 1 [e]) ∧ u.word l.at_ = 0 ∧
          (u.ctx c).pages = x.pages.filter (· ≠ e) ∧
          ∀ b, b < l.at_ ∨ l.at_ + 8 ≤ b → Tab.get 0 u.mem.bytes b = Tab.get 0 s.mem.bytes b)) ∧
    (m.step ≠ 0 → (s.running q seq 7 = some m → exec (.map q seq pages tabs far) s = .next s) ∧
      (s.running q seq 8 = some m → exec (.unmap q seq) s = .next s))

/-- Contexts (R389, R413, R417 to R422, Table 12-11), while no bundle is recorded: CTX_CREATE makes a free entry LIVE
with an empty L1 table, or says why not; CTX_DESTROY ends the generation and unbinds the panicles; the end of the drain
frees the entry and queues its frames for the scrub, which zeroes them; a function-level reset disables the function's
queues and, for the PF, clears the host ceiling. Where the spec leaves something open, its clauses follow the model's
choices in log entries 79 and 85. -/
def Obligations.ContextsLiveAndDie : Prop :=
  ∀ (q : QueueId) (seq : W32) (m : HCmd) (l1 : Nat) (c : CtxId) (s : State),
    let fail := fun (i : Instr) (st : Nat) => exec i s = .next (s.finish q seq st 0)
    let id := fieldOf (m.p 2) 11 0
    let any := fieldOf (m.p 2) 12 12 = 1
    let badSpb := m.p 1 % 65536 ≠ 0 ∨ 0x80000000000 ≤ m.p 1
    let quiet := s.bnd.pans = [] ∧ s.bnd.ctrls = []
    let own : BitVec 12 := BitVec.ofNat 12 c.val
    (s.running q seq 9 = some m →
      (badSpb → fail (.ctxCreate q seq l1) 0x101) ∧
      (¬ badSpb → ¬ any →
        ((s.ctx id).st = .live → fail (.ctxCreate q seq l1) 0x105) ∧ ((s.ctx id).st = .destroying → fail (.ctxCreate q seq l1) 0x116) ∧
        ((s.ctx id).st = .free → s.frameFree l1 = false → fail (.ctxCreate q seq l1) 0x106) ∧
        ((s.ctx id).st = .free → s.frameFree l1 = true → m.p 3 = 0 ∨ 65536 ≤ m.p 3 →
          ∃ (u : State) (y : Ctx), exec (.ctxCreate q seq l1) s = .next (u.finish q seq 0 (id + (s.ctx id).gen.toNat * 4096)) ∧ u.ctx id = y ∧
            y.st = .live ∧ y.gen = (s.ctx id).gen ∧ y.fn = m.fn ∧ y.seed.toNat = m.p 0 ∧ y.spb.toNat = m.p 1 ∧
            y.quota.toNat = m.p 3 ∧ y.slice.toNat = fieldOf (m.p 2) 31 16 ∧ y.l1 = l1 * 65536 ∧ y.pages = [] ∧
            (∀ b, l1 * 65536 ≤ b → b < l1 * 65536 + 65536 → Tab.get 0 u.mem.bytes b = 0) ∧
            ∀ b, b < l1 * 65536 ∨ l1 * 65536 + 65536 ≤ b → Tab.get 0 u.mem.bytes b = Tab.get 0 s.mem.bytes b)) ∧
      (¬ badSpb → any → (∀ k, k < 4096 → (s.ctx k).st ≠ .free) → fail (.ctxCreate q seq l1) 0x105)) ∧
    (s.running q seq 0x0A = some m → m.step = 0 → m.p 0 % 4096 = c.val →
      ((s.ctx c.val).st = .free → fail (.ctxDestroy q seq) 0x103) ∧
      ((s.ctx c.val).st = .destroying → fail (.ctxDestroy q seq) 0x116) ∧
      ((s.ctx c.val).st = .live → m.fn ≠ 0 → m.fn ≠ (s.ctx c.val).fn → fail (.ctxDestroy q seq) 0x102) ∧
      ((s.ctx c.val).st = .live → m.fn = 0 ∨ m.fn = (s.ctx c.val).fn → quiet → ∃ t, exec (.ctxDestroy q seq) s = .next t ∧
        (t.ctx c.val).st = .destroying ∧ (t.ctx c.val).gen = (s.ctx c.val).gen + 1 ∧ (t.ctx c.val).owner = some (q, seq) ∧
        ∀ p o, (t.pan p).bound = some o → o.1 ≠ own)) ∧
    ((s.ctx c.val).st ≠ .destroying → exec (.ctxDrainDone c l1) s = .next s) ∧
    ((s.ctx c.val).st = .destroying → (s.ctx c.val).owner = none → ∃ t, exec (.ctxDrainDone c l1) s = .next t ∧
      t.ctx c.val = { gen := (s.ctx c.val).gen } ∧ t.host.scrubs = s.host.scrubs ++ (s.framesLeft c.val).map (fun e => (own, e)) ∧
      t.mem = s.mem) ∧
    ((s.ctx c.val).st = .destroying → (s.ctx c.val).owner = some (q, seq) → s.running q seq 0x12 = none →
      ∃ u : State, exec (.ctxDrainDone c l1) s = .next (u.finish q seq 0 ((s.framesLeft c.val).foldl (fun n e => n + e.count * 65536) 0)) ∧
        u.ctx c.val = { gen := (s.ctx c.val).gen } ∧
        u.host.scrubs = s.host.scrubs ++ (s.framesLeft c.val).map (fun e => (own, e)) ∧ u.mem = s.mem) ∧
    (∃ t, exec (.ctxScrub c) s = .next t ∧ t.host.scrubs = s.host.scrubs.filter (fun e => e.1 ≠ own) ∧
      ∀ b, Tab.get 0 t.mem.bytes b = if s.host.scrubs.any (fun e => decide (e.1 = own) && decide (e.2.first * 65536 ≤ b) &&
        decide (b < (e.2.first + e.2.count) * 65536)) then 0 else Tab.get 0 s.mem.bytes b) ∧
    ∀ fn : Fin 64, quiet → ∃ t, exec (.flr fn) s = .next t ∧ (fn = 0 → t.pwr.host = 0) ∧
      ∀ k, fn.val = 0 ∨ fld (s.queue k).cfg 5 0 = fn.val → (t.queue k).st = .disabled

/-- SLICE_SETUP and REDUCE_TREE_SETUP (R338, R339, R344, R345, R361, R365, R413): releases end with status 0; too many
packages or another tree's records are bad parameters, slots beyond 64 or a full unit say so, a wrap that was not
granted and a tree that is in use are refused; else the slice is known with its parts at every straw, and a tree's leaf
enters its panicle and its copy at the steward. Where the spec leaves something open, its clauses follow the model's
choices in log entry 83. -/
def Obligations.SlicesAndTrees : Prop :=
  ∀ (q : QueueId) (seq : W32) (m : HCmd) (recs : List TreeRec) (s : State),
    let ends := fun (i : Instr) (st : Nat) => exec i s = .next (s.finish q seq st 0)
    (s.running q seq 0x0B = some m →
      let id : BitVec 16 := BitVec.ofNat 16 (m.p 0)
      let others := s.host.slices.filter (fun x => x.id ≠ id)
      let red := fieldOf (m.p 3) 6 0
      let bnd := fieldOf (m.p 3) 14 8
      let axes : BitVec 3 := BitVec.ofNat 3 (fieldOf (m.p 3) 26 24)
      let sum := others.foldl (fun k x => k + x.red + x.bnd) (red + bnd)
      let release := fieldOf (m.p 0) 16 16 = 1
      let size := 1 ≤ m.p 2 ∧ m.p 2 ≤ 64
      let granted := ∀ a ∈ bitsSet axes, s.granted id a = true
      (release → ∃ u : State, exec (.sliceSetup q seq) s = .next (u.finish q seq 0 0) ∧ u.host.slices = others) ∧
      (¬ release → ¬ size → ends (.sliceSetup q seq) 0x101) ∧
      (¬ release → size → s.hostGone m = true → ends (.sliceSetup q seq) 0x109) ∧
      (¬ release → size → s.hostGone m = false →
        (64 < sum → ends (.sliceSetup q seq) 0x10F) ∧ (sum ≤ 64 → ¬ granted → ends (.sliceSetup q seq) 0x110) ∧
        (sum ≤ 64 → granted → ∃ (u : State) (x : Slice), exec (.sliceSetup q seq) s = .next (u.finish q seq 0 0) ∧ u.host.slices = others ++ [x] ∧
          x.id = id ∧ x.red = red ∧ x.bnd = bnd ∧ x.axes = axes ∧ x.pkgs.length = m.p 2 ∧
          ∀ w, w < 32 → (u.slots w).parts = (s.slots w).parts.filter (fun p => p.slice ≠ id) ++ [{ slice := id, red := red, bnd := bnd }]))) ∧
    (s.running q seq 0x0C = some m →
      let t : BitVec 8 := BitVec.ofNat 8 (m.p 0)
      let release := fieldOf (m.p 0) 8 8 = 1
      let mine := fun (r : TreeRec) => ({ words := r.words } : RedNode).tree = t ∧ ({ words := r.words } : RedNode).ctx = m.ctx
      (release → (s.treesOf m.ctx).contains t = false → ends (.reduceTreeSetup q seq recs) 0) ∧
      (¬ release → s.hostGone m = true → ends (.reduceTreeSetup q seq recs) 0x109) ∧
      (¬ release → s.hostGone m = false → (∃ r ∈ recs, ¬ mine r) → ends (.reduceTreeSetup q seq recs) 0x101) ∧
      (¬ release → s.hostGone m = false → (∀ r ∈ recs, mine r) →
        (s.treeBusy t = true → ends (.reduceTreeSetup q seq recs) 0x112) ∧
        (s.treeBusy t = false → ∀ r, recs = [r] → ecPkg r.host = s.fab.coord →
          (s.recDead r = true → ends (.reduceTreeSetup q seq recs) 0x111) ∧
          (s.recDead r = false → r.leaf = true → (s.leaf (ecPanIx r.host)).leaves.length < 8 →
            ∃ u : State, exec (.reduceTreeSetup q seq recs) s = .next (u.finish q seq 0 0) ∧
              (u.leaf (ecPanIx r.host)).leaves = (s.leaf (ecPanIx r.host)).leaves ++ [{ words := r.words }] ∧
              Tab.get [] u.red.savedLeaves (ecPanIx r.host) = Tab.get [] s.red.savedLeaves (ecPanIx r.host) ++ [r.words]) ∧
          (s.recDead r = false → r.leaf = true → (s.leaf (ecPanIx r.host)).leaves.length = 8 → ends (.reduceTreeSetup q seq recs) 0x10F) ∧
          (s.recDead r = false → r.leaf = false → fld (entryWord r.words 0) 29 28 ≠ 0 →
            (s.combFits [r] (recComb r) = false → ends (.reduceTreeSetup q seq recs) 0x10F) ∧
            (s.combFits [r] (recComb r) = true → ∃ u : State, exec (.reduceTreeSetup q seq recs) s = .next (u.finish q seq 0 0) ∧
              (u.comb (recComb r)).nodes = (s.comb (recComb r)).nodes ++ [{ words := r.words }])))))

/-- Admin commands (R413, R416, R439, R442, R456, R467, R468, R493, R509, R614, Tables 12-8 to 12-10), started here:
LOAD_FW writes a good image into the slot that does not run, BIST and RESET_DOMAIN send a domain to its dump or say why
not, POWER_SCHEDULE keeps the host's value and says whether a lower ceiling holds, QUERY and DUMP copy to host memory, a
member's through its master (R427). Where the spec leaves something open, its clauses follow the model's choices in log
entries 12, 17, 100, 119 and 120. -/
def Obligations.AdminCommandsRun : Prop :=
  ∀ (q : QueueId) (seq : W32) (m : HCmd) (s : State),
    let done := fun (i : Instr) (st : Nat) => exec i s = .next (s.finish q seq st 0)
    let goes := fun (t : State) (d : Nat) => (t.dom d).st = .glean ∧ (t.dom d).owner = some (q, seq) ∧ t.glean.running = true ∧
      t.mem = s.mem ∧ t.cores = s.cores ∧ t.cmd q seq = some { m with step := 1 }
    let copied := fun (u : State) (bs : List Byte) => u.mem.bytes = s.mem.bytes ∧ (m.via.isSome = true → u.mem = s.mem) ∧
      (m.via = none → u.hostRead m.fn (m.p 1) bs.length = bs ∧
        ∀ b, b < hostKey m.fn (m.p 1) ∨ hostKey m.fn (m.p 1) + bs.length ≤ b → Tab.get 0 u.mem.host b = Tab.get 0 s.mem.host b)
    (s.running q seq 0x0D = some m →
      let im := Tab.setMany 0 [] 0 (s.hostRead m.fn (m.p 0) (m.p 1))
      let run := s.boot.flash s.boot.slot
      let old := s.boot.flash (!s.boot.slot)
      let fits := m.p 2 ≤ 1 ∧ m.p 1 ≤ 16777216
      (¬ fits → done (.loadFw q seq) 0x101) ∧ (fits → s.hostGone m = true → done (.loadFw q seq) 0x109) ∧
      (m.via.isSome = true → ∃ t, exec (.loadFw q seq) s = .next t) ∧
      (m.via = none → fits → s.hostGone m = false → s.imageCheck im ≠ 0 → done (.loadFw q seq) 0x113) ∧
      (m.via = none → fits → s.hostGone m = false → s.imageCheck im = 0 → m.p 2 = 1 → run.code ≠ 2 → done (.loadFw q seq) 0x102) ∧
      (m.via = none → fits → s.hostGone m = false → s.imageCheck im = 0 → (m.p 2 = 1 → run.code = 2) → 90000 ≤ old.erases.toNat →
        ∃ u : State, exec (.loadFw q seq) s = .next (u.finish q seq 0x102 0) ∧ u.boot = { s.boot with flashWear := true } ∧
          u.flt.count = s.flt.count + 1) ∧
      (m.via = none → fits → s.hostGone m = false → s.imageCheck im = 0 → (m.p 2 = 1 → run.code = 2) → old.erases.toNat < 90000 →
        ∃ u : State, exec (.loadFw q seq) s = .next (u.finish q seq 0 0) ∧ { u with boot := s.boot } = s ∧
          u.boot.flash s.boot.slot = run ∧ (u.boot.flash (!s.boot.slot)).code = (if m.p 2 = 1 then 2 else 1) ∧
          (m.p 2 = 0 → (u.boot.flash (!s.boot.slot)).boots = 3) ∧ (u.boot.flash (!s.boot.slot)).image = im ∧
          (u.boot.flash (!s.boot.slot)).erases = old.erases + 1)) ∧
    (s.running q seq 0x0F = some m →
      let v : BitVec 16 := BitVec.ofNat 16 (m.p 0)
      ∃ (u : State) (st : Nat), exec (.powerSchedule q seq) s = .next (u.finish q seq st u.limit) ∧ u.pwr = { s.pwr with host := v } ∧
        { u with pwr := s.pwr } = s ∧ (st = 0 ∨ st = 1) ∧
        (st = 1 ↔ v ≠ 0 ∧ ∃ e ∈ s.ceilings (s.capEntry s.pwr.entry), e.1 ≠ 2 ∧ e.2 < v.toNat)) ∧
    (s.running q seq 0x10 = some m →
      let item := m.p 0 % 256
      let gives := fun (len : Nat) (ok : List Byte → Prop) =>
        (m.p 2 < len → exec (.query q seq) s = .next (s.finish q seq 0x101 len)) ∧
        (len ≤ m.p 2 → s.hostGone m = true → done (.query q seq) 0x109) ∧
        (len ≤ m.p 2 → s.hostGone m = false → ∃ (u : State) (bs : List Byte), exec (.query q seq) s = .next (u.finish q seq 0 len) ∧
          bs.length = len ∧ ok bs ∧ copied u bs)
      (item = 1 → gives s.floorBytes.length (fun bs => bs = s.floorBytes)) ∧
      (item = 2 → gives s.forecastBytes.length (fun bs => bs = s.forecastBytes)) ∧
      (item ∈ [3, 4, 5] → gives (Config.queryLen item) (fun _ => True)) ∧
      (item = 0 ∨ 6 ≤ item → done (.query q seq) 0x101)) ∧
    (s.running q seq 0x11 = some m →
      let n := if s.glean.valid then Nat.min (m.p 2) s.glean.length else 0
      (m.p 0 % 2 = 0 → s.hostGone m = true → done (.dump q seq) 0x109) ∧
      (m.p 0 % 2 = 0 → s.hostGone m = false → ∃ u : State, exec (.dump q seq) s = .next (u.finish q seq 0 n) ∧
        copied u (s.read Config.dumpAddr n)) ∧
      (m.p 0 % 2 = 1 → s.glean.waiting.contains (q, seq) = true → exec (.dump q seq) s = .next s) ∧
      (m.p 0 % 2 = 1 → s.glean.waiting.contains (q, seq) = false → ∃ t, exec (.dump q seq) s = .next t ∧ t.glean.running = true ∧
        t.glean.waiting = s.glean.waiting ++ [(q, seq)] ∧ { t with glean := s.glean } = s ∧
        (s.glean.running = false → t.glean.trigger = 0xFFFF ∧ t.glean.recs = []))) ∧
    (s.running q seq 0x12 = some m → m.step = 0 →
      (domSel (m.p 0) = none → done (.resetDomain q seq) 0x101) ∧
      (domSel (m.p 0) = some .whole ∨ domSel (m.p 0) = some .hostFn → done (.resetDomain q seq) 0x102) ∧
      (∀ d, domSel (m.p 0) = some (.dom d) → ((s.dom d).st ≠ .run → done (.resetDomain q seq) 0x116) ∧
        ((s.dom d).st = .run → ∃ t, exec (.resetDomain q seq) s = .next t ∧ goes t d ∧ (t.dom d).trigger = 6)) ∧
      (∀ c, domSel (m.p 0) = some (.context c) → ((s.ctx c).st = .free → done (.resetDomain q seq) 0x103) ∧
        ((s.ctx c).st = .destroying → done (.resetDomain q seq) 0x116) ∧
        ((s.ctx c).st = .live → s.bnd.pans = [] → s.bnd.ctrls = [] → ∃ t, exec (.resetDomain q seq) s = .next t ∧
          (t.ctx c).st = .destroying ∧ (t.ctx c).gen = (s.ctx c).gen + 1 ∧ (t.ctx c).owner = some (q, seq)))) ∧
    (s.running q seq 0x0E = some m → m.step = 0 →
      ((∀ d, domSel (m.p 0) ≠ some (.dom d)) → done (.bist q seq) 0x101) ∧
      ∀ d, domSel (m.p 0) = some (.dom d) →
        let locked := s.sec.cfg.lc = 4 ∨ ((8 ≤ m.p 1 ∨ d = 1) ∧ s.fullOk = false)
        (16 ≤ m.p 1 → done (.bist q seq) 0x101) ∧ (m.p 1 < 16 → locked → done (.bist q seq) 0x114) ∧
        (m.p 1 < 16 → ¬ locked → (s.dom d).st ≠ .run ∨ s.bist.running = true → done (.bist q seq) 0x116) ∧
        (m.p 1 < 16 → ¬ locked → (s.dom d).st = .run → s.bist.running = false → s.drained d = false → done (.bist q seq) 0x115) ∧
        (m.p 1 < 16 → ¬ locked → (s.dom d).st = .run → s.bist.running = false → s.drained d = true →
          let sub : BitVec 4 := if m.p 1 = 0 then 7 else BitVec.ofNat 4 (m.p 1)
          ∃ t, exec (.bist q seq) s = .next t ∧ goes t d ∧ (t.dom d).test = some sub ∧ t.bist.running = true ∧
            t.bist.domain.toNat = domCode d ∧ t.bist.subset = sub ∧ t.floor = s.floor))

/-- How a self-test ends (R466, R469 to R472): a tiller that re-enters with nothing found is back in RUN and its command
completes with outcome 0; a finding under COMPAT_H3 gives outcome 3 and then holds every domain but PKG in reset; a hot
zone abandons the test with outcome 4 and leaves the floor map alone. What decides a reset (R479, R486, R502, Tables
15-5, 15-7): a domain in RUN whose last re-entry is long past goes to its dump with its trigger; the second failure
within a second, the hub's own memory or two stewards lead to full package recovery; a steward is reset alone and its
turn's command is gone; a watched floret is faulted. Where the spec leaves something open, its clauses follow the
model's choices in log entries 111, 117, 119 and 187. -/
def Obligations.SelfTestsAndResets : Prop :=
  (
  ∀ (z : ZoneId) (q : QueueId) (seq : W32) (finds : List Finding) (analog d : Nat) (sub : BitVec 4) (s : State),
    let h := 8 + zoneTiller z.val
    let x := s.dom d
    let ended := fun (u : State) (r : W64) (n : Nat) => u.bist.running = false ∧ u.bist.result = r ∧ u.bist.count = satAdd s.bist.count n ∧
      u.bist.domain = s.bist.domain ∧ u.bist.subset = s.bist.subset
    (s.tested = none → exec (.bistComplete finds analog) s = .next s) ∧
    (s.tested = some d → x.st ≠ .reentry → exec (.bistComplete finds analog) s = .next s) ∧
    (s.tested = some d → x.st = .reentry → x.test = some sub → x.owner = some (q, seq) → s.boot.compat = true → finds ≠ [] →
      ∃ u t : State, exec (.bistComplete finds analog) s = .next t ∧ t = (u.finish q seq 0 (bistResult 3 sub 0 0 0 analog).toNat).findAll finds ∧
        { u with bist := s.bist } = s ∧ ended u (bistResult 3 sub 0 0 0 analog) 1 ∧ ended t (bistResult 3 sub 0 0 0 analog) 1 ∧
        t.boot.held = true ∧ t.boot.phase = 0xF ∧ t.flt.fatal = true ∧ ∀ e, e = 1 ∨ e = 2 ∨ (8 ≤ e ∧ e < 40) → (t.dom e).st = .reset) ∧
    (s.tested = some d → 8 ≤ d → d < 16 → x.st = .reentry → x.test = some sub → x.owner = some (q, seq) → finds = [] →
      s.boot.news = [] → s.bist.base = (s.floor.usable, s.floor.deadPans, s.softRows) → s.tillerReady (d - 8) = true →
      ∃ u : State, exec (.bistComplete finds analog) s = .next (u.finish q seq 0 (bistResult 0 sub 0 0 0 analog).toNat) ∧
        ended u (bistResult 0 sub 0 0 0 analog) 1 ∧ (u.dom d).st = .run ∧ (u.dom d).test = none ∧
        u.floor.version = s.floor.version + 1 ∧ u.floor.deadSpk = s.floor.deadSpk ∧ u.sec.otp = s.sec.otp) ∧
    ((s.dom h).test = none ∨ (s.dom h).st = .glean → exec (.bistAbandon z) s = .next s) ∧
    ((s.dom h).test = some sub → (s.dom h).st ≠ .glean → (s.dom h).owner = some (q, seq) →
      ∃ u : State, exec (.bistAbandon z) s = .next (u.finish q seq 0 (bistResult 4 sub 0 0 0 0).toNat) ∧
        ended u (bistResult 4 sub 0 0 0 0) 0 ∧ (u.dom h).test = none ∧ (u.dom h).st = (s.dom h).st ∧ u.floor = s.floor ∧
        u.mem = s.mem)) ∧
  (
  ∀ (s : State),
    let fresh := fun (d : Nat) => (s.dom d).st = .run ∧ ∀ t, (s.dom d).backAt = some t → s.since t 1000000000 = true
    let again := fun (d : Nat) => (s.dom d).st = .run ∧ 1 ≤ (s.dom d).fails ∧ ∃ t, (s.dom d).backAt = some t ∧ s.since t 1000000000 = false
    let goes := fun (i : Instr) (d : Nat) (trig : BitVec 4) => (fresh d → ∃ t, exec i s = .next t ∧ (t.dom d).st = .glean ∧
      (t.dom d).trigger = trig ∧ (t.dom d).gen = (s.dom d).gen ∧ (t.dom d).owner = none ∧ t.glean.running = true ∧
      t.mem = s.mem ∧ t.cores = s.cores ∧ ∀ e, e ≠ d → t.dom e = s.dom e) ∧ ((s.dom d).st ≠ .run → ∃ t, exec i s = .next t ∧ t.flt = s.flt)
    let recovers := fun (t : State) (trig : BitVec 4) => t.boot.recovery = true ∧ (t.dom 0).st = .glean ∧ (t.dom 0).trigger = trig ∧
      t.boot.recCount = satAdd s.boot.recCount 1 ∧ t.glean.running = true ∧ t.mem.bytes = s.mem.bytes
    (∀ t : TillerId, goes (.housekeepingHeartbeatMiss t) (8 + t.val) 1 ∧ goes (.cancelTimeout t) (8 + t.val) 2 ∧
      (again (8 + t.val) → (s.dom 0).st = .run → ∃ u, exec (.cancelTimeout t) s = .next u ∧ recovers u 8)) ∧
    (∀ (n : StackId) (pc : Fin 64),
      let k := s.stack n.val
      goes (.phyError n pc true) (16 + n.val) 3 ∧ goes (.phyError n pc false) (16 + n.val) 3 ∧
      (k.errValid = false → ∃ t, exec (.phyError n pc false) s = .next t ∧ (t.stack n.val).errValid = true ∧
        (t.stack n.val).errKind = 2 ∧ (t.stack n.val).errPc.toNat = pc.val) ∧
      (k.errValid = true → ∃ t, exec (.phyError n pc false) s = .next t ∧ t.stack n.val = { k with errOvf := true }) ∧
      ∃ t, exec (.phyError n pc true) s = .next t ∧ t.grn = s.grn) ∧
    (∀ d : DieId, (∀ vc ∈ ([1, 5, 7] : List (BitVec 3)), goes (.vcStuck d vc) 1 4) ∧
      (∀ vc ∈ ([0, 2, 3, 4, 6] : List (BitVec 3)), exec (.vcStuck d vc) s = .next s) ∧ goes (.routeTableUe d) 1 5) ∧
    ((s.dom 0).st = .run → ∃ t, exec .hubSramUe s = .next t ∧ recovers t 7 ∧ t.flt.count = s.flt.count + 1) ∧
    ((s.dom 0).st ≠ .run → exec .hubSramUe s = .next s) ∧
    (∀ w : Fin 4,
      let k := s.stew w.val
      let alone := ∀ v, v < 4 → v ≠ w.val → ∀ t, (s.stew v).downAt = some t → s.since t 1000000000 = true
      (k.down = true → exec (.stwWatchdog w) s = .next s) ∧
      (k.down = false → ∃ t, exec (.stwWatchdog w) s = .next t ∧ (t.stew w.val).down = true ∧ (t.stew w.val).turn = none ∧
        (∀ q seq, k.turn = some (q, seq) → t.cmd q seq = none)) ∧
      (k.down = false → k.turn = none → alone → ∃ t, exec (.stwWatchdog w) s = .next t ∧ t.boot = s.boot ∧
        t.flt.count = s.flt.count + 1 ∧ ∀ v, v ≠ w.val → t.stew v = s.stew v) ∧
      (k.down = false → k.turn = none → ¬ alone → (s.dom 0).st = .run → ∃ t, exec (.stwWatchdog w) s = .next t ∧ recovers t 7) ∧
      ∃ t, exec (.stewardRestartDone w) s = .next t ∧ t.stew w.val = { k with down := false } ∧ ∀ v, v ≠ w.val → t.stew v = s.stew v) ∧
    (∀ f : FloretId,
      let st := (s.floret f.val).status
      let watched := (∃ b, st = .blocked b) ∨ (∃ b, st = .waiting (.barrier b)) ∨ ∃ b, st = .waiting (.rops b)
      (s.flt.wdogEn = false ∨ ¬ watched → exec (.floretWatchdog f) s = .next s) ∧
      (s.flt.wdogEn = true → watched → ∃ t, exec (.floretWatchdog f) s = .next t ∧ (t.floret f.val).status = .faulted ∧
        ((s.spk (spkOfFloret f.val)).frec.valid = false → (t.spk (spkOfFloret f.val)).frec.code = 0x40 ∧
          (t.spk (spkOfFloret f.val)).frec.floret.toNat = floretNo f.val) ∧
        ∀ y, y ≠ f.val → t.floret y = s.floret y)) ∧
    exec .fltCorrClear s = .next { s with flt := { s.flt with corr := false } })

/-- The states of a domain (R17, R422, R433, R481, R484, R485, R504, R505, R543, Tables 15-5, 15-6, 15-13): the end of
the dump advances the generation and resets the domain, the release begins re-entry, its end goes back to RUN and
completes the command that asked, a second failure leads to recovery, and a recovery that fails, or is the third within
an hour, holds the package; a host reset disables every queue, once. Where the spec leaves something open, its clauses
follow the model's choices in log entries 103, 104, 106 and 116. -/
def Obligations.DomainsResetAndReturn : Prop :=
  ∀ (dom : Fin 40) (q : QueueId) (seq : W32) (s : State),
    let d := dom.val
    let x := s.dom d
    let hostDown := fun (t : State) => (t.dom 2).st = .reset ∧ (t.dom 2).gen = (s.dom 2).gen + 1 ∧ (∀ k, (t.queue k).st = .disabled) ∧
      t.host.bar4Valid = false ∧ t.mem.bytes = s.mem.bytes
    let third := ∃ a b c l, s.boot.recoveries = a :: b :: c :: l ∧ (a - c).toNat ≤ 3600000000000
    (x.st ≠ .glean → exec (.gleanEnd dom) s = .next s) ∧
    (x.st = .glean → d ≠ 0 → ∃ t, exec (.gleanEnd dom) s = .next t ∧ (t.dom d).st = .reset ∧ (t.dom d).gen = x.gen + 1 ∧
      (t.dom d).resets = satAdd x.resets 1 ∧ t.glean.running = false) ∧
    (x.st = .glean → d = 1 → s.glean.running = false → ∃ t, exec (.gleanEnd dom) s = .next t ∧ t.fab.dies = [] ∧ t.fab.straws = [] ∧
      t.fab.saved = s.fab.dies ∧ t.red.combiners = [] ∧ t.mem = s.mem ∧ t.cores = s.cores ∧ t.host = s.host) ∧
    (x.st = .glean → d = 0 → third → ∃ t, exec (.gleanEnd dom) s = .next t ∧ t.boot.hold = true ∧ t.boot.phase = 1 ∧
      t.flt.fatal = true ∧ (t.dom 0).st = .run ∧ t.cores = {} ∧ t.pending = s.pending) ∧
    (x.st = .glean → d = 0 → ¬ third → ∃ t, exec (.gleanEnd dom) s = .next t ∧ t.boot.recovery = true ∧ t.cores = {} ∧ t.fab.dies = [] ∧
      t.host.ctxs = [] ∧ (s.glean.running = false → t.mem.host = s.mem.host) ∧ t.refcnt = s.refcnt ∧ t.pending = s.pending ∧
      t.boot.phase = (if ((lastValid s.sec.otp.cfg).getD (0, {})).2.lc = 4 then 0xF else 1)) ∧
    (x.st ≠ .reset ∨ s.boot.held = true → exec (.domainResetRelease dom) s = .next s) ∧
    (x.st = .reset → s.boot.held = false → ∃ t, exec (.domainResetRelease dom) s = .next t ∧ t.dom d = { x with st := .reentry } ∧
      t.mem = s.mem ∧ t.cores = s.cores ∧ t.host = s.host ∧ t.mgt.hostRstN = (s.mgt.hostRstN || decide (d = 2))) ∧
    (x.st ≠ .reentry ∨ x.test ≠ none → ∀ cl finds, exec (.domainReentryComplete dom cl finds) s = .next s) ∧
    (x.st = .reentry → x.test = none → s.boot.held = false → s.canReenter d = true →
      (x.owner = none → ∃ t, exec (.domainReentryComplete dom false []) s = .next t ∧ (t.dom d).st = .run ∧
        (t.dom d).backAt = some s.refcnt ∧ (t.dom d).gen = x.gen ∧ t.host = s.host) ∧
      (x.owner = some (q, seq) → ∃ u : State, exec (.domainReentryComplete dom false []) s = .next (u.finish q seq 0 0) ∧
        (u.dom d).st = .run ∧ (u.dom d).owner = none ∧ u.host = s.host)) ∧
    (x.st ≠ .reentry → exec (.reentryFail dom) s = .next s) ∧
    (x.st = .reentry → x.fails = 0 → exec (.reentryFail dom) s = .next (s.setDom d { x with fails := 1 })) ∧
    (x.st = .reentry → 1 ≤ x.fails → (s.dom 0).st = .run → ∃ t, exec (.reentryFail dom) s = .next t ∧ t.boot.recovery = true ∧
      (t.dom 0).st = .glean ∧ (t.dom 0).trigger = 8 ∧ (t.dom d).fails = x.fails + 1) ∧
    (s.boot.recovery = false ∨ s.boot.hold = true → exec .recoveryFailed s = .next s) ∧
    (s.boot.recovery = true → s.boot.hold = false → ∃ t, exec .recoveryFailed s = .next t ∧ t.boot.hold = true ∧ t.boot.phase = 1 ∧
      t.flt.fatal = true ∧ (t.dom 0).st = .run ∧
      (s.glean.running = false → (s.dom 0).st ≠ .glean → t.flt.count = s.flt.count + 1 ∧ t.mem = s.mem ∧ t.cores = s.cores)) ∧
    ((s.dom 2).st ≠ .reset → (∃ t, exec .hostReset s = .next t ∧ hostDown t ∧ t.mgt.hostRstN = false) ∧
      ∃ t, exec .hostLinkLoss s = .next t ∧ hostDown t ∧ t.mgt.hostRstN = s.mgt.hostRstN) ∧
    ((s.dom 2).st = .reset → exec .hostReset s = .next { s with mgt := { s.mgt with hostRstN := false } } ∧ exec .hostLinkLoss s = .next s)

/-- The gleaner (R52, R493 to R499, Tables 15-9, 15-10): an answer of a unit that the dump collects becomes a record, a
bank's row as it stands whatever its shadow bit, a unit that does not answer is recorded with its last shadow, a shadow
replaces the unit's last; the end of the dump writes it to its region, logs GLEAN_DONE and signals the PF. Where the
spec leaves something open, its clauses follow the model's choices in log entries 12, 99, 136 and 188. -/
def Obligations.DumpsAreTaken : Prop :=
  ∀ (item : Fin 8) (unit : Ec) (whole : Bool) (data : GleanData) (bytes : List Byte) (failed : BitVec 24) (s : State),
    let g := s.glean
    let port := ecFn unit = 0x10 ∧ ecPkg unit = s.fab.coord
    let adds := fun (t : State) (r : DumpRec) => t.glean = { g with recs := g.recs ++ [r] } ∧ t.mem = s.mem ∧ t.cores = s.cores ∧ t.flt = s.flt
    let code := g.trigger.toNat
    let whole_ := code = 0xFFFF ∨ code = 0
    let off := g.running = false ∨ g.skips unit = true ∨ item = 0 ∨
      (item.val ∈ [4, 5] ∧ ¬ whole_ ∧ code ≠ 0x10 + ecTil unit) ∨
      (item = 6 ∧ ¬ whole_ ∧ ¬ ∃ n, n < 24 ∧ code = 0x20 + n ∧ unit = s.stackEc n) ∨ (item = 7 ∧ ¬ whole_ ∧ code ≠ 1)
    (off → exec (.gleanRead item unit whole data) s = .next s ∧ exec (.gleanUnresponsive item unit) s = .next s) ∧
    (¬ off → (∃ t bs, exec (.gleanRead item unit whole data) s = .next t ∧
        adds t { item := item.val, status := if whole then 0 else 2, time := s.refcnt, unit := unit, bytes := bs } ∧
        (data.row = none ∨ ¬ port → bs = data.bytes) ∧
        ∀ r : Fin 512, data.row = some r → port → bs = s.bankRead (ecSpkIx unit) (128 * r.val) 128) ∧
      (∀ x, g.shadows.find? (fun y => y.unit = unit) = some x → ∃ t, exec (.gleanUnresponsive item unit) s = .next t ∧
        adds t { item := item.val, status := 1, time := x.time, unit := unit, bytes := x.bytes }) ∧
      ∃ t r, exec (.gleanUnresponsive item unit) s = .next t ∧ adds t r ∧ r.item = item.val ∧ r.status = 1 ∧ r.unit = unit ∧
        t.glean.skips unit = true) ∧
    (∃ t, exec (.unitShadow unit bytes) s = .next t ∧ { t with glean := g } = s ∧
      t.glean.shadows = g.shadows.filter (fun y => y.unit ≠ unit) ++ [{ unit := unit, time := s.refcnt, bytes := slice bytes 0 64 }]) ∧
    (g.running = false → exec (.dumpComplete failed) s = .next s) ∧
    (g.running = true → g.waiting = [] → ∃ t, exec (.dumpComplete failed) s = .next t ∧ t.glean.running = false ∧ t.glean.valid = true ∧
      t.glean.length = 32 + (g.recs.flatMap (fun r => r.bytesOf)).length ∧ t.glean.summary.length = 4096 ∧
      t.host.msix = s.host.msix ++ [(0, 1)] ∧ t.flt.count = s.flt.count + 1 ∧ t.mem.host = s.mem.host ∧ t.cores = s.cores ∧
      (failed = 0 → Config.dumpAddr + t.glean.length ≤ granaryEnd →
        t.read Config.dumpAddr t.glean.length = dumpHeader g.recs.length false g.start s.refcnt g.trigger 0 ++
          g.recs.flatMap (fun r => r.bytesOf)))

/-- The wait-cycle detector (R487 to R492, R506, Tables 15-8, 15-20): an edge is held from its arrival to its removal,
at most 8,192 of them, and a member of a stook passes it on; an edge removed before it arrives never enters; a cycle
that has been held is logged as a KNOT and its owner's live queues stop. Where the spec leaves something open, its
clauses follow the model's choices in log entries 87, 88 and 190. -/
def Obligations.WaitCyclesAreFound : Prop :=
  ∀ (e : Edge) (s : State),
    let d := s.det
    let room := d.edges.length < 8192
    let gone := d.edges.find? (fun x => x.2 = e)
    (room → ∃ t, exec (.edgePost e) s = .next t ∧ t.det.edges = d.edges ++ [(d.next, e)] ∧ t.det.next = d.next + 1 ∧
      t.det.posts = d.posts.erase e ∧
      (∃ new, t.det.holds = d.holds ++ new ∧ ∀ h ∈ new, h.closing = d.next) ∧
      (s.isMaster = true → { t with det := s.det } = s)) ∧
    (¬ room → ∃ t, exec (.edgePost e) s = .next t ∧ t.det.edges = d.edges ∧ t.det.full = true) ∧
    (d.posts.contains e = true → ∃ t, exec (.edgeRemove e) s = .next t ∧ t.det = { d with removals := d.removals.erase e, posts := d.posts.erase e } ∧
      { t with det := s.det } = s) ∧
    (d.posts.contains e = false → ∃ t, exec (.edgeRemove e) s = .next t ∧ t.det.removals = d.removals.erase e ∧
      (∀ k x, gone = some (k, x) → t.det.edges = d.edges.filter (fun y => y.1 ≠ k) ∧
        t.det.holds = d.holds.filter (fun h => !h.cycle.contains k)) ∧
      (gone = none → t.det.edges = d.edges ∧ t.det.holds = d.holds) ∧ (s.isMaster = true → { t with det := s.det } = s)) ∧
    (gone.isSome = true → exec (.edgeRepost e) s = .next s) ∧
    (gone = none → room → ∃ t, exec (.edgeRepost e) s = .next t ∧ t.det.edges = d.edges ++ [(d.next, e)]) ∧
    (s.isMaster = false → room → ∃ t, exec (.edgePost e) s = .next t ∧ t.host.stwOut = s.host.stwOut ++ [(s.masterEc, .edge true e)]) ∧
    ((∀ x ∈ d.edges, x.2 = e → ∀ h ∈ d.holds, h.closing ≠ x.1) → exec (.knot e) s = .next s) ∧
    (∀ k h, gone = some (k, e) → h ∈ d.holds → h.closing = k →
      (∀ x ∈ d.edges, x.1 ∈ h.cycle → s.vertexWaits x.2.src = true ∧ s.vertexWaits x.2.dst = true) → ∃ t, exec (.knot e) s = .next t ∧ t.flt.count = s.flt.count + 1 ∧ t.det.knot.valid = true ∧
        (d.knot.valid = false → t.det.knot.ctx = BitVec.ofNat 12 e.owner.val ∧ t.det.knot.src = vertexKind e.src ∧
          t.det.knot.dst = vertexKind e.dst) ∧
        (d.knot.valid = true → t.det.knot = { d.knot with ovf := true }) ∧
        ∀ k' ∈ s.queuesOf (BitVec.ofNat 12 e.owner.val), (t.queue k').live = false) ∧
    ∃ t, exec .knotInfoClear s = .next t ∧ { t with det := s.det } = s ∧ t.det = { d with knot := { d.knot with valid := false, ctxs := [] } }

/-- The package's reset pins and straps (R26, R429, R433, R436, R450, R541, R542, R569, R573, R600): the release starts
the reference counter and phase ROM with the floor map of the fused repairs, the reset loses every unit but keeps OTP,
flash, host memory and pins, a fall of PWR_OK also ends soft repairs; straps are sampled once, and a later change is
only noted. Where the spec leaves something open, its clauses follow the model's choices in log entries 103, 107 and
113. -/
def Obligations.ResetPinsAndStraps : Prop :=
  ∀ (pin : StrapPin) (level : Bool) (s : State),
    let kept := fun (t : State) => t.boot.inReset = true ∧ t.boot.phase = 1 ∧ t.cores = {} ∧ t.host = {} ∧ t.fab.dies = [] ∧ t.mem.bytes = [] ∧
      t.mem.host = s.mem.host ∧ t.boot.slotA = s.boot.slotA ∧ t.boot.slotB = s.boot.slotB ∧ t.sec.otp = s.sec.otp.interrupted ∧
      t.floor = { retired := s.floor.retired } ∧ t.pending = s.pending ∧ t.mgt.trip = s.mgt.trip ∧ t.mgt.sel0 = s.mgt.sel0 ∧
      t.mgt.sel1 = s.mgt.sel1 ∧ t.mgt.compat = s.mgt.compat
    let lc := ((lastValid s.sec.otp.cfg).getD (0, {})).2.lc
    (s.boot.inReset = false → exec .pkgResetRelease s = .next s) ∧
    (s.boot.inReset = true → ∃ t, exec .pkgResetRelease s = .next t ∧ t.refcnt = 0 ∧ t.boot.inReset = false ∧ t.boot.start = 0 ∧
      t.mgt.pwrOk = true ∧ t.boot.phase = (if lc = 4 then 0xF else 1) ∧ (lc = 4 → t.flt.fatal = true) ∧ t.floor = s.fusedFloor ∧
      t.mgt.trip = (s.mgt.trip && s.tripHot) ∧ t.mgt.heartbeat = !t.mgt.trip ∧ t.mem = s.mem ∧ t.cores = s.cores ∧ t.host = s.host) ∧
    (∃ t, exec .pkgResetAssert s = .next t ∧ kept t ∧ t.mgt.pwrOk = s.mgt.pwrOk ∧
      (Tab.wf {} s.grn.ctrls = true → ∀ n, (t.stack n).soft = (s.stack n).soft)) ∧
    (∃ t, exec .pwrOkFall s = .next t ∧ kept t ∧ t.mgt.pwrOk = false ∧ ∀ n, (t.stack n).soft = []) ∧
    (s.boot.inReset = true ∨ s.boot.sampled = true → exec .strapSample s = .next s) ∧
    (s.boot.inReset = false → s.boot.sampled = false → ∃ t, exec .strapSample s = .next t ∧ { t with boot := s.boot } = s ∧
      t.boot.sampled = true ∧ t.boot.compat = s.mgt.compat ∧ t.boot.source = t.boot.src ∧
      t.boot.src.getLsbD 0 = s.mgt.sel0 ∧ t.boot.src.getLsbD 1 = s.mgt.sel1) ∧
    ∃ t, exec (.strapChange pin level) s = .next t ∧ { t with mgt := s.mgt } = s ∧
      t.mgt.sel0 = (if pin = .bootSel0 then level else s.mgt.sel0) ∧ t.mgt.sel1 = (if pin = .bootSel1 then level else s.mgt.sel1) ∧
      t.mgt.compat = (if pin = .compatH3 then level else s.mgt.compat) ∧
      t.mgt.strapChanged = (s.mgt.strapChanged || (s.boot.sampled &&
        decide (t.mgt.sel0 ≠ s.mgt.sel0 ∨ t.mgt.sel1 ≠ s.mgt.sel1 ∨ t.mgt.compat ≠ s.mgt.compat)))

/-- The phases of bring-up (R429, R430, R432, R434, R438, R440, R442, R443, R451, R453, R461, R565, Table 13-1): only
the phase in force ends, and only once its work is done; VERIFY runs an image that passes and spoils one that fails, of
a host push once its manifest and steward firmware are there; waves and HBM groups come in order; a stack that does not
train is dead; FLOOR publishes the map with version 1 and goes to READY. Where the spec leaves something open, its
clauses follow the model's choices in log entries 108, 113, 121, 122, 189 and 193. -/
def Obligations.BringUpPhases : Prop :=
  ∀ (finds : List Finding) (t : TillerId) (wave : Fin 12) (g : Fin 3) (n : StackId) (s : State),
    let b := s.boot
    let open_ := b.inReset = false ∧ b.hold = false ∧ b.held = false ∧ (s.dom 0).st = .run
    let ends := fun (ph : Phase) => exec (.bootPhaseComplete ph finds) s
    let lead := b.source = 1 ∧ 604 ≤ b.had ∧ ∀ off len d, imgComp b.image 1 = some (off, len, d) → off + len ≤ b.had
    let keyed := fun (u : State) => u.sec.udsOpen = false ∧ (s.sec.udsOpen = true → (u.sec.ak.map (fun a => a.key)) = some (aliasKey s.sec.otp.uds u.akInputs))
    let moves := fun (ph : Phase) (p : BitVec 4) => ends ph = .next { s with boot := { b with phase := p } }
    (∀ ph, ¬ open_ ∨ b.phase ≠ phaseCode ph → ends ph = .next s) ∧
    (open_ → b.phase = 1 → (b.sampled = false → ends .rom = .next s) ∧
      (b.sampled = true → finds.contains .hub = true ∨ finds.contains .hubClock = true →
        ends .rom = .next { s with boot := { b with phase := 0xF }, flt := { s.flt with fatal := true } }) ∧
      (b.sampled = true → finds = [] → b.source ≠ 2 → moves .rom 2) ∧
      (b.sampled = true → finds = [] → b.source = 2 → ∃ u, ends .rom = .next u ∧ u.boot.phase = 2 ∧ ∀ w, w < 32 → (u.straw w).state = .training)) ∧
    (open_ → b.phase = 2 → b.source = 0 →
      (∀ k, b.spoilSpent.candidate = some k →
        let x := b.spoilSpent.flash k
        (s.imageCheck x.image = 0 → s.restOk x.image = true → ∃ u, ends .verify = .next u ∧ u.boot.phase = 3 ∧ u.boot.slot = k ∧
          u.sec.image = x.image ∧ keyed u ∧ u.boot.tentative = decide (x.code = 1) ∧
          (u.boot.flash k).tries = if x.code = 1 then spendTry x.tries else x.tries) ∧
        (s.imageCheck x.image ≠ 0 ∨ s.restOk x.image = false → ∃ u, ends .verify = .next u ∧ (u.boot.flash k).code = 3)) ∧
      (b.spoilSpent.candidate = none → ∃ u, ends .verify = .next u ∧ u.boot.source = 3 ∧ u.boot.phase = 2 ∧ u.flt.fatal = true)) ∧
    (open_ → b.phase = 2 → b.source ≠ 0 → (b.whole = false → ¬ lead → ends .verify = .next s) ∧
      (b.whole = false → lead → s.imageCheck b.image = 0 → ∃ u, ends .verify = .next u ∧ u.boot.phase = 3 ∧ u.sec.image = b.image ∧
        keyed u ∧ u.boot.pushReq = BitVec.ofNat 32 (b.had / 1024) ∧ u.host.msix = s.host.msix ++ [(0, 0)]) ∧
      (b.whole = false → lead → s.imageCheck b.image ≠ 0 → ∃ u, ends .verify = .next u ∧ u.boot.phase = 2 ∧ u.boot.source = 3 ∧
        u.boot.image = [] ∧ u.boot.fail = BitVec.ofNat 3 (s.imageCheck b.image)) ∧
      (b.whole = true → s.imageCheck b.image = 0 → s.restOk b.image = true → ∃ u, ends .verify = .next u ∧ u.boot.phase = 3 ∧
        u.sec.image = b.image ∧ keyed u) ∧
      (b.whole = true → s.imageCheck b.image ≠ 0 → ∃ u, ends .verify = .next u ∧ u.boot.phase = 2 ∧ u.boot.source = 3 ∧
        u.boot.image = [] ∧ u.boot.fail = BitVec.ofNat 3 (s.imageCheck b.image))) ∧
    (open_ → b.phase = 3 → b.source = 1 → b.whole = false → ends .transit = .next s) ∧
    (open_ → b.phase = 3 → b.source ≠ 1 ∨ b.whole = true → finds = [] → ∃ u, ends .transit = .next u ∧ u.boot.phase = 4 ∧ ∀ w, w < 32 →
      (u.straw w).state = if (s.straw w).en && !s.floor.deadStraw.getLsbD w && decide ((s.straw w).state = .off) then .training
        else (s.straw w).state) ∧
    (open_ → b.phase = 4 → ((∀ v, v < 8 → s.waved v = true) → finds = [] → moves .tillers 5) ∧
      ((∃ v, v < 8 ∧ s.waved v = false) → ends .tillers = .next s)) ∧
    (open_ → b.phase = 5 → (b.groups = 3 → finds = [] → moves .granary 6) ∧ (b.groups ≠ 3 → ends .granary = .next s)) ∧
    (open_ → b.phase = 6 → (s.lacking = [] → moves .firmware 7) ∧ (s.lacking ≠ [] → ends .firmware = .next s)) ∧
    (open_ → b.phase = 7 → ∃ u, ends .floor = .next u ∧ u.boot.phase = 8 ∧ u.boot.recovery = false ∧ u.floor.version = 1 ∧
      u.floor.published = true ∧ (b.tentative = true → b.source = 0 →
        (u.boot.flash b.slot).state = (b.flash b.slot).state &&& 0x33333333)) ∧
    (open_ → b.phase = 8 → ends .ready = .next s) ∧ (open_ → b.phase = 0xF → ends .failed = .next s) ∧
    (let turn := (b.phase = 4 ∧ b.held = false ∧ b.inReset = false ∧ ∀ u, u < 8 → u % 4 < t.val % 4 → s.waved u = true) ∨
        (s.dom (8 + t.val)).st = .reentry
     let due := Tab.get 0 b.waves t.val = wave.val
     (¬ turn ∨ ¬ due → exec (.tillerWave t wave finds) s = .next s) ∧
     (turn → due → finds = [] → ∃ u, exec (.tillerWave t wave finds) s = .next u ∧ Tab.get 0 u.boot.waves t.val = wave.val + 1 ∧
       u.floor = s.floor ∧ ∀ k, k < 16 →
         let p := t.val * 192 + wave.val * 16 + k
         (∀ a, storeBase p ≤ a → a < storeBase p + 524288 → Tab.get 0 u.mem.bytes a = 0) ∧
         ∀ j, j < 64 → ∀ a, bankBase (p * 64 + j) ≤ a → a < bankBase (p * 64 + j) + 65536 → Tab.get 0 u.mem.bytes a = 0)) ∧
    (b.phase ≠ 5 ∨ b.held = true ∨ b.groups ≠ g.val → exec (.hbmGroupTrained g) s = .next s) ∧
    (b.phase = 5 → b.held = false → b.groups = g.val → ∃ u, exec (.hbmGroupTrained g) s = .next u ∧ u.boot.groups = g.val + 1 ∧
      u.mem = s.mem ∧ ∀ v, v < 8 → (s.floor.deadStack.getLsbD (3 * v + g.val) = false → (u.stack (3 * v + g.val)).trained = true ∧
        (u.stack (3 * v + g.val)).resetting = false ∧ (u.stack (3 * v + g.val)).soft = []) ∧
        (s.floor.deadStack.getLsbD (3 * v + g.val) = true → u.stack (3 * v + g.val) = s.stack (3 * v + g.val))) ∧
    (b.phase ≠ 5 ∨ b.groups ≠ n.val % 3 → exec (.hbmTrainingTimeout n) s = .next s) ∧
    (b.phase = 5 → b.groups = n.val % 3 → ∃ u, exec (.hbmTrainingTimeout n) s = .next u ∧ u.floor.channels n.val = 0xFFFFFFFF ∧
      u.floor.deadStack.getLsbD n.val = true ∧ u.grn = s.grn ∧ u.boot.groups = b.groups)

/-- Firmware distribution and the OTP (R444 to R449, R451, R571): a loader keeps each block once, a round that ends
starts every loader whose blocks are complete and whole and empties a bad one, after the third round what still lacks
blocks is out of service; a generation that was being written is the latest one. Host push and fabric boot (R440, R443,
Table 13-12): a chunk goes to its place in the image; stewards that run ask for the next one, and check the components
once the last has come; a running steward answers BOOT_REQ with every block of its image; the booting package takes each
block once from the straw that it asked, and moves to another when it stays silent; its BOOT_REQ goes out on that straw.
Where the spec leaves something open, its clauses follow the model's choices in log entries 78, 124, 125, 144, 184 and
189. -/
def Obligations.FirmwareAndBootSources : Prop :=
  (
  ∀ (u : Fin 1544) (block : Nat) (bad : List (Fin 1544)) (s : State),
    let b := s.boot
    let have_ := Tab.get [] b.blocks u.val
    let full := fun (v : Nat) => s.fwBlocks ≤ (Tab.get [] b.blocks v).length
    let takes := s.loading u.val = true ∧ ¬ have_.contains block ∧ block < s.fwBlocks
    let bads := bad.map (·.val)
    let o := s.sec.otp
    (¬ takes → exec (.fwBlock u block) s = .next s) ∧
    (takes → ∃ t, exec (.fwBlock u block) s = .next t ∧ { t with boot := b } = s ∧ Tab.get [] t.boot.blocks u.val = have_ ++ [block] ∧
      ∀ v, v ≠ u.val → Tab.get [] t.boot.blocks v = Tab.get [] b.blocks v) ∧
    (b.phase = 6 → 3 ≤ b.rounds.toNat → exec (.fwRepairRound bad) s = .next s) ∧
    (b.phase = 6 → b.rounds.toNat < 3 → ∃ t, exec (.fwRepairRound bad) s = .next t ∧ t.boot.rounds = b.rounds + 1 ∧
      (∀ v ∈ s.lacking, full v → bads.contains v = false → t.boot.running.contains v = true) ∧
      (∀ v ∈ s.lacking, full v → bads.contains v = true → Tab.get [] t.boot.blocks v = []) ∧
      (b.rounds.toNat < 2 → t.floor = s.floor) ∧
      (b.rounds.toNat = 2 → ∀ v ∈ s.lacking, ¬ full v → if v < 8 then t.floor.deadTil.getLsbD v = true else t.floor.panDead (v - 8) = true)) ∧
    (b.phase ≠ 6 → (∀ d, d < 8 → (s.dom (8 + d)).st ≠ .reentry) → exec (.fwRepairRound bad) s = .next s) ∧
    (o.writing = none → exec .otpGenerationWritten s = .next s) ∧
    (∀ w, o.writing = some (.cfg w) → ∃ t, exec .otpGenerationWritten s = .next t ∧ { t with sec := s.sec } = s ∧
      t.sec.otp = { o with cfg := o.cfg ++ [some w], writing := none } ∧ lastValid t.sec.otp.cfg = some (o.cfg.length, w)) ∧
    (∀ es, o.writing = some (.rep es) → ∃ t, exec .otpGenerationWritten s = .next t ∧ t.boot = { b with fuseWritten := true } ∧
      t.sec.otp = { o with rep := o.rep ++ [some es], writing := none } ∧ t.sec.otp.repair = (o.rep.length, es))) ∧
  (
  ∀ (v : W32) (w : StrawId) (peer : Ec) (block : Nat) (bytes : List Byte) (s : State),
    let b := s.boot
    let len := fld v 16 0
    let off := fld v 28 17 * 65536
    let fits := b.source = 1 ∧ 0 < len ∧ len ≤ 65536
    let takes := s.fabricBoot = true ∧ b.straw = some w ∧ bytes.length = 1024 ∧ block < 16384 ∧ b.got.contains block = false
    let moved := fun (i : Instr) (tried : List StrawId) =>
      let ok := fun (k : Nat) => k < 32 ∧ tried.contains (Fin.ofNat 32 k) = false ∧ ∃ r, (s.straw k).heard = some r ∧ r.holdsPlan = true
      ((∀ k, ¬ ok k) → ∃ t, exec i s = .next t ∧ t.flt.fatal = true ∧ t.boot.straw = none ∧ t.boot.tried = tried) ∧
      ∀ k, ok k → (∀ j, j < k → ¬ ok j) → ∃ t, exec i s = .next t ∧ t.boot.straw = some (Fin.ofNat 32 k) ∧ t.boot.tried = tried ∧
        t.boot.image = [] ∧ t.boot.got = [] ∧ t.host.stwOut.length = s.host.stwOut.length + 1 ∧
        ∃ f : SheafPkt, (t.straw k).unacked = (s.straw k).unacked ++ [f] ∧ f.pkt.vc = 6 ∧ f.pkt.op = 0x50 ∧ f.seq = (s.straw k).txNext
    (¬ fits → exec (.pushGo v) s = .next { s with boot := { b with push := v &&& 0x3FFFFFFF } }) ∧
    (fits → let im := Tab.setMany 0 b.image off (Tab.getMany 0 b.window 0 len)
      let judged := b.whole = false ∧ 3 ≤ b.phase.toNat ∧ v.getLsbD 29 = true
      (¬ judged ∨ s.restOk im = true → ∃ t, exec (.pushGo v) s = .next t ∧ t.boot.push = (v &&& 0x3FFFFFFF) ||| 0x40000000 ∧
        t.boot.whole = (b.whole || v.getLsbD 29) ∧ t.boot.image = im ∧ t.mem = s.mem ∧
        t.boot.had = (if off ≤ b.had then Nat.max b.had (off + len) else b.had) ∧
        (b.whole = false → 3 ≤ b.phase.toNat → t.sec.image = im ∧ (v.getLsbD 29 = false → t.host.msix = s.host.msix ++ [(0, 0)] ∧
          t.boot.pushReq = BitVec.ofNat 32 ((off + len) / 1024))) ∧
        (b.whole = true ∨ b.phase.toNat < 3 → t.sec = s.sec) ∧
        (b.whole = true ∨ b.phase.toNat < 3 ∨ v.getLsbD 29 = true → t.host = s.host ∧ t.boot.pushReq = b.pushReq)) ∧
      (judged → s.restOk im = false → ∃ t, exec (.pushGo v) s = .next t ∧ t.boot.phase = 2 ∧ t.boot.source = 3 ∧ t.boot.image = [] ∧
        t.boot.whole = false ∧ t.mem = s.mem)) ∧
    (let late := b.source = 1 ∧ b.inReset = false ∧ b.phase.toNat ≤ 3 ∧ b.whole = false
     (late → exec .pushTimeout s = .next { s with flt := { s.flt with fatal := true } }) ∧ (¬ late → exec .pushTimeout s = .next s)) ∧
    (b.phase.toNat < 3 ∨ b.phase = 0xF → exec (.bootReq w peer) s = .next s) ∧
    (3 ≤ b.phase.toNat → b.phase ≠ 0xF → ∃ t, exec (.bootReq w peer) s = .next t ∧
      t.host.stwOut = s.host.stwOut ++ (List.range ((imgEnd s.sec.image + 1023) / 1024)).map (fun k =>
        (peer, .firmware (s.stewardEc 0) (imgBytes s.sec.image (k * 1024) 1024)))) ∧
    (¬ takes → exec (.bootData w block bytes) s = .next s) ∧
    (takes → ∃ t, exec (.bootData w block bytes) s = .next t ∧ { t with boot := b } = s ∧ imgBytes t.boot.image (block * 1024) 1024 = bytes ∧
      t.boot.got = block :: b.got ∧ (∀ a, a < block * 1024 ∨ block * 1024 + 1024 ≤ a → Tab.get 0 t.boot.image a = Tab.get 0 b.image a) ∧
      (t.boot.whole = true ↔ 0 ∈ t.boot.got ∧ ∀ k, k < (imgEnd t.boot.image + 1023) / 1024 → k ∈ t.boot.got)) ∧
    (s.fabricBoot = false → exec .bootDataTimeout s = .next s ∧ exec .fabricBootRetry s = .next s) ∧
    (s.fabricBoot = true → (b.straw = none → moved .fabricBootRetry [] ∧ moved .bootDataTimeout b.tried) ∧
      ∀ x, b.straw = some x → exec .fabricBootRetry s = .next s ∧ moved .bootDataTimeout (x :: b.tried)))

/-- Accesses to registers (R8, R476, R583 to R589, Tables 12-3, 12-12, 15-2, 16-8, 19-2): a misaligned access, a reset
domain and a dead unit are recorded in HUB_BAR0_ERR and a read then gives ones; an offset that a VF does not reach reads
0; else a read gives the register's value and clears what reading clears, a write sets its fields; the _LO read latches
_HI, the _LO write takes the held _HI; identity registers ignore writes, W1C bits clear; a doorbell page takes SQ_TAIL
and CQ_HEAD, counts other writes and reads 0 (R404); a fault log word is read and its entry marked. Where the spec
leaves something open, its clauses follow the model's choices in log entries 137 and 139. -/
def Obligations.RegisterAccesses : Prop :=
  ∀ (p : Path) (off : BitVec 26) (v : W32) (s : State),
    let o := off.toNat
    let reads := fun (t : State) (bs : List Byte) => exec (.registerReadClear p off) s = .next t ∧ t.host.readOut = s.host.readOut ++ [bs]
    let ones : List Byte := [0xFF, 0xFF, 0xFF, 0xFF]
    let failed := fun (t : State) (kind : Nat) (write : Bool) => (s.acc.valid = true → t.acc = { s.acc with ovf := true }) ∧
      (s.acc.valid = false → t.acc.valid = true ∧ t.acc.kind.toNat = kind ∧ t.acc.write = write ∧ t.acc.off = off ∧
        t.acc.latches = s.acc.latches)
    let only := fun (t : State) => { t with acc := s.acc, host := s.host } = s
    let kindOf := if o % 4 ≠ 0 ∧ bellPath p = false then some 0 else (s.regAddr p o).bind (fun a => s.regFail a)
    let names := s.namesLo p o
    (∀ k, kindOf = some k → (∃ t, reads t ones ∧ failed t k false ∧ only t) ∧
      ∃ t, exec (.registerWrite p off v) s = .next t ∧ failed t k true ∧ only t ∧ t.host = s.host) ∧
    (∀ write, ∃ t, exec (.registerAccessTimeout off write) s = .next t ∧ failed t 1 write ∧ only t ∧
      t.host.readOut = if write then s.host.readOut else s.host.readOut ++ [ones]) ∧
    (o % 4 = 0 ∨ bellPath p = true → s.regAddr p o = none → (∃ t, reads t [0, 0, 0, 0] ∧ { t with host := s.host } = s) ∧
      exec (.registerWrite p off v) s = .next s) ∧
    (bellPath p = true → ∀ a, s.regAddr p o = some a →
      let q := (a - bellBase) / 0x1000
      (∃ t, reads t [0, 0, 0, 0] ∧ { t with host := s.host } = s) ∧
      (∀ k : QueueId, k.val = q → (o % 0x1000 = 0 → exec (.registerWrite p off v) s = exec (.sqTail k v) s) ∧
        (o % 0x1000 = 4 → exec (.registerWrite p off v) s = exec (.cqHead k v) s)) ∧
      (o % 0x1000 ≠ 0 → o % 0x1000 ≠ 4 → exec (.registerWrite p off v) s =
        .next { s with host := { s.host with dbIgnored := satAdd s.host.dbIgnored 1 } })) ∧
    (o % 4 = 0 → bellPath p = false → ∀ a, s.regAddr p o = some a → s.regFail a = none →
      (pairHi a = false → pairLo a = false → s.regOpen a = false → ∃ t, reads t (toLE 4 (s.regVal a 0).toNat) ∧ t.mem = s.mem ∧ t.cores.florets = s.cores.florets) ∧
      (pairHi a = false → pairLo a = true → s.regOpen a = false → ∃ t, reads t (toLE 4 (s.regVal a 0).toNat) ∧
        (t.latch p a).read = BitVec.ofNat 32 ((s.regVal a 0).toNat / 2 ^ 32)) ∧
      (pairHi a = true → ∃ t, reads t (toLE 4 (s.latch p (a - 4)).read.toNat) ∧ { t with host := s.host } = s) ∧
      (pairRw a = false → pairHi a = false → exec (.registerWrite p off v) s = .next (s.regSet a (keepFn p a v))) ∧
      (pairRw a = false → pairHi a = true → pairRw (a - 4) = true → ∃ t, exec (.registerWrite p off v) s = .next t ∧
        { t with acc := s.acc } = s ∧ (t.latch p (a - 4)).held = some v ∧ (t.latch p (a - 4)).read = (s.latch p (a - 4)).read) ∧
      (pairRw a = false → pairHi a = true → pairRw (a - 4) = false → exec (.registerWrite p off v) s = .next s) ∧
      (a = 0x100 → ∃ t, exec (.registerWrite p off v) s = .next t ∧ t.host.bar4Lo = v &&& 0xC0000000 ∧ (t.latch p a).held = none ∧
        (∀ h, (s.latch p a).held = some h → t.host.bar4Hi = h &&& 0xFFF)) ∧
      (∀ q h, q < 4096 → a = 0x110000 + q * 0x40 → (s.latch p a).held = some h → ∃ t, exec (.registerWrite p off v) s = .next t ∧
        t.mem = s.mem ∧ (t.queue q).base = if (s.queue q).st = .disabled then BitVec.ofNat 64 (h.toNat * 2 ^ 32 + v.toNat) &&& 0xFFFFFFFFFFFFF000 else (s.queue q).base) ∧
      (a < 0x00C → exec (.registerWrite p off v) s = .next s) ∧
      (a = 0x000 → s.regVal a 0 = BitVec.ofNat 64 (0x4858 * 2 ^ 16 + s.sec.otp.rev.toNat * 2 ^ 8 + s.sec.cfg.sku.toNat)) ∧
      (a = 0x114 → ∃ t, exec (.registerWrite p off v) s = .next t ∧ { t with acc := s.acc } = s ∧
        t.acc.valid = (s.acc.valid && !v.getLsbD 31) ∧ t.acc.ovf = (s.acc.ovf && !v.getLsbD 30)) ∧
      (a = 0x300000 → ∃ t, exec (.registerWrite p off v) s = .next t ∧ t.flt = { s.flt with corr := s.flt.corr && !v.getLsbD 30 }) ∧
      (a = 0x100000 → ∃ t, exec (.registerReadClear p off) s = .next t ∧ t.host.peak = 0)) ∧
    (names = true → exec (.pairLoRead p off) s = exec (.registerReadClear p off) s ∧
      exec (.pairLoWrite p off v) s = exec (.registerWrite p off v) s) ∧
    (names = false → exec (.pairLoRead p off) s = .next s ∧ exec (.pairLoWrite p off v) s = .next s) ∧
    (∀ hi : BitVec 26, hi.toNat = o + 4 → (names = true → exec (.pairHiWrite p hi v) s = exec (.registerWrite p hi v) s) ∧
      (names = false → exec (.pairHiWrite p hi v) s = .next s)) ∧
    (∀ (i : Fin 1024) (w : Fin 8), p = .pf → ∃ t, exec (.faultLogRead p i w) s = .next t ∧
      t.host.readOut = s.host.readOut ++ [slice (s.logSlot i.val) (4 * w.val) 4] ∧ t.flt.count = s.flt.count ∧ t.mem = s.mem ∧
      (∀ e, Tab.get none s.flt.log i.val = some e → Tab.get none t.flt.log i.val = some { e with read := true }) ∧
      ∀ j, j ≠ i.val → Tab.get none t.flt.log j = Tab.get none s.flt.log j)

/-- Accesses through BAR4 (R169, R170, R400 to R402, R586, R587, Table 12-3): the base and the offset give a
package-local address; control space is reached as registers, memory untranslated; what cannot be performed, and what is
not answered within 50 µs, is recorded in HUB_BAR4_ERR, a read then giving ones and a write changing nothing. Where the
spec leaves something open, its clauses follow the model's choices in log entry 140. -/
def Obligations.Bar4Accesses : Prop :=
  ∀ (off : Local) (n : Nat) (bs : List Byte) (s : State),
    let a := s.bar4Addr off
    let r := a - 0xF0000000000
    let control := 0xF0000000000 ≤ a ∧ a < 0xF0004000000
    let read := exec (.bar4Access off n none) s
    let write := exec (.bar4Access off n (some bs)) s
    let failed := fun (t : State) (kind : BitVec 2) (w : Bool) => (s.host.bar4Valid = true → t.host.bar4Ovf = true ∧ t.host.bar4Addr = s.host.bar4Addr) ∧
      (s.host.bar4Valid = false → t.host.bar4Valid = true ∧ t.host.bar4Kind = kind ∧ t.host.bar4Write = w ∧ t.host.bar4Addr.toNat = a) ∧
      { t with host := s.host } = s ∧ t.host.readOut = if w then s.host.readOut else s.host.readOut ++ [List.replicate n 0xFF]
    (control → r % 4 = 0 → exec (.bar4Access off 4 none) s = exec (.registerReadClear .pf (BitVec.ofNat 26 r)) s) ∧
    (control → r % 4 = 0 → bs.length = 4 → write = exec (.registerWrite .pf (BitVec.ofNat 26 r) (BitVec.ofNat 32 (leAt bs 0 4))) s) ∧
    (control → ¬ ((n = 4 ∨ n = 8) ∧ r % n = 0) → ∃ t, read = .next t ∧ { t with host := s.host, acc := s.acc } = s ∧
      t.host.readOut = s.host.readOut ++ [List.replicate n 0xFF] ∧ (s.acc.valid = false → t.acc.valid = true ∧ t.acc.kind = 0 ∧ t.acc.off.toNat = r)) ∧
    (¬ control → localHome a = none → (∃ t, read = .next t ∧ failed t 0 false) ∧ ∃ t, write = .next t ∧ failed t 0 true) ∧
    (∀ w, ∃ t, exec (.bar4Timeout off n w) s = .next t ∧ failed t 1 w) ∧
    (¬ control → ∀ h, localHome a = some h →
      let shadow := fun (k : Nat) => match h with
        | .bank i o => s.shadowHit i o k
        | _ => false
      let quiet := s.homeResetting h = false
      (h.room < n → ∃ t, read = .next t ∧ failed t 0 false) ∧ (h.room < bs.length → ∃ t, write = .next t ∧ failed t 0 true) ∧
      (n ≤ h.room → quiet → shadow n = true → ∃ t, read = .next t ∧ failed t 2 false) ∧
      (n ≤ h.room → quiet → shadow n = false → s.homeSilent h n = true → read = .next s) ∧
      (0 < n → n ≤ h.room → quiet → shadow n = false → s.homeSilent h n = false → s.homeClean h n →
        ∃ t, read = .next t ∧ t.host.readOut = s.host.readOut ++ [s.homeBytes h n] ∧ t.mem = s.mem) ∧
      (0 < bs.length → bs.length ≤ h.room → quiet → shadow bs.length = false → s.homeSilent h bs.length = false → s.homeClean h bs.length →
        ∃ t, write = .next t ∧ HomeWritten s t h bs ∧ t.host.bar4Valid = s.host.bar4Valid ∧ t.host.readOut = s.host.readOut))

/-- The power contract (R29, R507 to R513, R515, R518 to R522, Table 16-1): the limit is the lowest active ceiling, the
lower code where two are equal; ten samples make an average; an average above the limit lowers F_cap, then throttles the
granary, then raises CAP_UNMET once; F_cap rises by a step where the estimate stays within the limit; silence of the
tray starts the orphan cap; the schedule's entry, P_base and the end of fast-throttle. Where the spec leaves something
open, its clauses follow the model's choices in log entry 101. -/
def Obligations.PowerIsCapped : Prop :=
  ∀ (watts : Nat) (s : State),
    let p := s.pwr
    let cs := s.ceilings (s.capEntry p.entry)
    let sum := p.samples.foldl (· + ·) 0
    let above := s.limit < p.avg100
    let drop := (p.drop - 1) / 50000 * 50000
    let stays := (s.pBase : Int) * s.fcap + ((p.avg100 : Int) - s.pBase) * ((s.maxClk : Int) - drop) ≤ (s.limit : Int) * s.fcap
    s.governing ∈ cs ∧ (∀ e ∈ cs, s.limit ≤ e.2) ∧ (∀ e ∈ cs, e.2 = s.limit → s.governing.1 ≤ e.1) ∧
    (p.samples.length + 1 < 10 → exec (.powerSample watts) s = .next { s with pwr := { p with samples := watts :: p.samples } }) ∧
    (p.samples.length = 9 → ∃ t, exec (.powerSample watts) s = .next t ∧ { t with pwr := p } = s ∧ t.pwr.avg100 = (sum + watts) / 10 ∧
      t.pwr.samples = [] ∧ t.pwr.avgs.length ≤ 100 ∧ t.pwr.avgs.tail = p.avgs.take 99) ∧
    (¬ above → exec .fcapUpdate s = .next { s with pwr := { p with unmet := false } }) ∧
    (above → s.emergencyClk < s.fcap → ∃ t, exec .fcapUpdate s = .next t ∧ { t with pwr := p } = s ∧
      t.fcap = Nat.min s.fcap (s.fcapFor p.avg100 s.limit) ∧ s.emergencyClk ≤ t.fcap) ∧
    (above → s.fcap ≤ s.emergencyClk → p.grnThrottle = false → exec .fcapUpdate s = .next { s with pwr := { p with grnThrottle := true } }) ∧
    (above → s.fcap ≤ s.emergencyClk → p.grnThrottle = true → p.unmet = true → exec .fcapUpdate s = .next s) ∧
    (above → s.fcap ≤ s.emergencyClk → p.grnThrottle = true → p.unmet = false → ∃ t, exec .fcapUpdate s = .next t ∧
      t.pwr = { p with unmet := true, capUnmet := true } ∧ t.flt.count = s.flt.count + 1 ∧
      ∃ e, Tab.get none t.flt.log (s.flt.count.toNat % 1024) = some e ∧ e.code = 0x0702 ∧ e.cls = 1) ∧
    (p.drop = 0 ∨ ¬ stays → exec .fcapRaise s = .next s) ∧
    (p.drop ≠ 0 → stays → exec .fcapRaise s = .next { s with pwr := { p with drop := drop, grnThrottle := false } }) ∧
    (s.anyRunning = true → exec (.pBaseUpdate watts) s = .next s) ∧
    (s.anyRunning = false → ∃ t, exec (.pBaseUpdate watts) s = .next t ∧ t.pBase = watts ∧ { t with pwr := p } = s) ∧
    (p.sched = [] → exec .capEntryBoundary s = .next s) ∧
    (p.sched ≠ [] → exec .capEntryBoundary s = .next { s with pwr := { p with entry := Nat.min 15 (p.entry + 1) } }) ∧
    (s.mgt.silent = true → exec .traySilence s = .next s) ∧
    (s.mgt.silent = false → ∃ t, exec .traySilence s = .next t ∧ t.mgt.silent = true ∧ t.pwr.orphan = true ∧
      t.flt.count = s.flt.count + 1 ∧ t.limit ≤ Nat.max s.orphanW (s.tdp / 5)) ∧
    (p.ftAsserted = true → exec .fastThrottleRelease s = .next s) ∧
    (p.ftAsserted = false → exec .fastThrottleRelease s = .next { s with pwr := { p with ftActive := false } })

/-- Sensors, clocks and the thermal trip (R521, R527 to R532, R535, R545, Tables 16-2, 16-6): an implausible sample
makes its sensor suspect and leaves its reading, plausible ones of trusted sensors are the readings, 110 °C trips;
readings that stay apart are logged once; F_therm steps down from 95 °C and up below 92 °C; no clock exceeds F_cap.
Coolant and forecasts (R523 to R526, R533, R534, Tables 16-3, 16-4): a report is kept, low flow or a warm inlet starts
the slow-loss floor, flow below 20 % the emergency; both end as the flow returns; the forecast has 60 seconds and 16
minutes, and R_fit follows from the hottest zone and the last second's power. Where the spec leaves something open, its
clauses follow the model's choices in log entries 93, 94, 96 and 97. -/
def Obligations.HeatAndForecasts : Prop :=
  (
  ∀ (z : ZoneId) (a b : BitVec 12) (s : State),
    let x := s.zone z.val
    let sane := fun (last : Option (BitVec 12)) (new : BitVec 12) => -160 ≤ new.toInt ∧ new.toInt ≤ 1200 ∧ ∀ old, last = some old → (new.toInt - old.toInt).natAbs ≤ 160
    let trusted := x.suspA = false ∧ x.suspB = false ∧ sane x.lastA a ∧ sane x.lastB b
    let hot := max a.toInt b.toInt
    (trusted → ∃ t, exec (.sensorSample z a b) s = .next t ∧ (t.zone z.val).ta = a ∧ (t.zone z.val).tb = b ∧
      (t.zone z.val).ctl = some hot ∧ (880 ≤ hot → t.mgt.trip = true ∧ (s.mgt.trip = false → t.pwr.stopped = true ∧ t.mgt.heartbeat = false))) ∧
    (trusted → hot < 880 → x.past = [] → ∃ t, exec (.sensorSample z a b) s = .next t ∧ { t with pwr := s.pwr } = s ∧
      t.pwr.emergency = s.pwr.emergency ∧ ∀ y, y ≠ z.val → t.zone y = s.zone y) ∧
    (¬ sane x.lastA a → ∃ t, exec (.sensorSample z a b) s = .next t ∧ (t.zone z.val).suspA = true ∧ (t.zone z.val).ta = x.ta) ∧
    (¬ sane x.lastB b → ∃ t, exec (.sensorSample z a b) s = .next t ∧ (t.zone z.val).suspB = true ∧ (t.zone z.val).tb = x.tb) ∧
    (x.differ = none ∨ x.told = true → exec (.sensorDisagree z) s = .next s) ∧
    (x.differ ≠ none → x.told = false → ∃ t, exec (.sensorDisagree z) s = .next t ∧ t.zone z.val = { x with told := true, disagree := true } ∧
      t.flt.count = s.flt.count + 1) ∧
    (x.ctl = none → exec (.fthermStep z) s = .next s) ∧
    (∀ c, x.ctl = some c →
      (760 ≤ c → exec (.fthermStep z) s = .next (s.setZone z.val { x with drop := Nat.min (x.drop + 50000) (s.maxClk - s.emergencyClk) })) ∧
      (736 < c → c < 760 → exec (.fthermStep z) s = .next s) ∧
      (c ≤ 736 → exec (.fthermStep z) s = .next (s.setZone z.val { x with drop := x.drop - 50000 }))) ∧
    s.zoneClk z.val ≤ s.fcap ∧ s.zoneClk z.val ≤ s.maxClk ∧ (s.pwr.stopped = true → s.zoneClk z.val = 0) ∧
    (s.zoneEmergency z.val = true → s.zoneClk z.val ≤ s.emergencyClk)) ∧
  (
  ∀ (inst inlet outlet : BitVec 8) (flow : BitVec 16) (watts : Nat) (s : State),
    let p := s.pwr
    let c := p.coolant
    let served := s.boot.inReset = false ∧ s.mgtServes 4 = true ∧
      ∀ a ∈ s.mgt.answered, a.code = 4 → a.inst = inst → s.since a.at_ 1000000000 = true
    let calm := ∀ e ∈ p.zones, e.2.atLeast 760 = false ∧ ∀ k, e.2.ctl = some k → e.2.rising k = false
    (served → ∃ t, exec (.coolantReport inst inlet outlet flow) s = .next t ∧
      t.pwr.coolant = { inlet := inlet, outlet := outlet, flow := flow, stale := false } ∧ t.mgt.out = s.mgt.out ++ [[4, inst, 0]] ∧
      t.mgt.last = s.refcnt ∧ t.mgt.silent = false ∧
      t.pwr.degraded = (p.degraded || decide (flow.toNat < 42 ∨ 40 < inlet.toNat)) ∧
      t.pwr.emergency = (p.emergency || decide (flow.toNat < 12)) ∧
      t.pwr.degradedW = (if t.pwr.degraded then t.degradedFloor else 0) ∧ t.mem = s.mem ∧ t.cores = s.cores) ∧
    exec .coolantStale s = .next { s with pwr := { p with coolant := { c with stale := true } } } ∧
    (p.emergency = true → 42 ≤ c.flow.toNat → calm → exec .coolantLossEnd s = .next { s with pwr := { p with emergency := false } }) ∧
    (p.emergency = false ∨ c.flow.toNat < 42 ∨ ¬ calm → exec .coolantLossEnd s = .next s) ∧
    (p.degraded = true → 45 ≤ c.flow.toNat → c.inlet.toNat ≤ 40 →
      exec .coolingDegradedEnd s = .next { s with pwr := { p with degraded := false, degradedW := 0 } }) ∧
    (p.degraded = false ∨ c.flow.toNat < 45 ∨ 40 < c.inlet.toNat → exec .coolingDegradedEnd s = .next s) ∧
    (∃ t, exec (.forecastRebuild false) s = .next t ∧ { t with pwr := p } = s ∧ t.pwr.secs.length = 60 ∧ t.pwr.builtAt = s.refcnt ∧
      t.pwr.mins = p.mins ∧ ∀ i, i < 60 → t.pwr.secs[i]? = some (s.forecastEntry (i * 1000000) ((i + 1) * 1000000))) ∧
    (∃ t, exec (.forecastRebuild true) s = .next t ∧ { t with pwr := p } = s ∧ t.pwr.mins.length = 16 ∧ t.pwr.secs = p.secs ∧
      ∀ j, j < 16 → t.pwr.mins[j]? = some (s.forecastEntry (j * 60000000) ((j + 1) * 60000000))) ∧
    (∀ i j, (s.forecastEntry i j).extractLsb' 0 16 = BitVec.ofNat 16 (Nat.min (s.forecastPower i j) (lowest (s.ceilings (s.capAhead i)) s.tdp).2)) ∧
    (watts ≠ 0 → exec (.thermalForecastRefit watts) s =
      .next { s with pwr := { p with rFit := (s.hottest.2 - 8 * s.inletC) * 1250 / (watts : Int) } }) ∧
    ∃ (t : State) (r : Int), exec (.thermalForecastRefit 0) s = .next t ∧ t.pwr = { p with rFit := r } ∧ { t with pwr := p, freeIx := s.freeIx } = s)

/-- Camnik requests (R438, R476, R501, R507, R511, R514, R526, R545, R551 to R553, R555, R559, R561, R562, R573, Tables
17-2, 17-4, 17-5): a repeat within a second is answered again and not performed again, a request that is not served now
is NOT_READY, and each request that is served has its effect and its reply. Where the spec leaves something open, its
clauses follow the model's choices in log entries 127, 128, 129, 130 and 131. -/
def Obligations.CamnikRequestsAreServed : Prop :=
  ∀ (inst : BitVec 8) (s : State), s.boot.inReset = false →
    let m := s.mgt
    let fresh := fun (code : Nat) => ∀ a ∈ m.answered, a.code = code → a.inst = inst → s.since a.at_ 1000000000 = true
    let answers := fun (i : Instr) (code st : Nat) (more : List Byte) (t : State) => exec i s = .next t ∧
      t.mgt.out = m.out ++ [toLE 1 code ++ toLE 1 inst.toNat ++ toLE 1 st ++ more] ∧ t.mgt.last = s.refcnt ∧ t.mgt.silent = false ∧
      t.mem = s.mem ∧ t.cores = s.cores
    let idle := fun (t : State) => { t with mgt := m } = s
    let ok := fun (code : Nat) => fresh code ∧ s.mgtServes code = true
    let codes : List (Instr × Nat) := [(.getStatus inst, 1), (.powerOff inst, 3), (.readForecast inst, 6), (.clearCorr inst, 8), (.resync inst, 11)]
    (∀ i ∈ codes, (∀ a, m.answered = [a] → a.code = i.2 → a.inst = inst → s.since a.at_ 1000000000 = false → ∃ t, exec i.1 s = .next t ∧ idle t ∧
        t.mgt.out = m.out ++ [a.reply]) ∧
      (fresh i.2 → s.mgtServes i.2 = false → ∃ t, answers i.1 i.2 6 [] t ∧ idle t)) ∧
    (ok 1 → ∃ t more, answers (.getStatus inst) 1 0 more t ∧ idle t ∧ more.length = 29 ∧ leAt more 0 1 = s.boot.phase.toNat ∧
      leAt more 13 4 = s.flt.count.toNat ∧ leAt more 21 8 = s.refcnt.toNat) ∧
    (∀ bs, ok 2 → bs.length = 36 → ∃ t more, answers (.setCapSchedule inst bs) 2 0 more t ∧ t.pwr.t0 = s.refcnt ∧ t.pwr.entry = 0 ∧
      t.pwr.orphan = false ∧ t.pwr.schedId.toNat = leAt bs 0 4 ∧ t.pwr.sched = (List.range 16).map (fun i => BitVec.ofNat 16 (leAt bs (4 + 2 * i) 2)) ∧
      t.flt.count = s.flt.count + 1) ∧
    (∀ bs, ok 2 → bs.length ≠ 36 → ∃ t, answers (.setCapSchedule inst bs) 2 1 [] t ∧ idle t) ∧
    (ok 3 → ∃ t, answers (.powerOff inst) 3 0 [] t ∧ t.pwr = { s.pwr with powerOff := true } ∧ t.host.msix = s.host.msix ++ [(0, 2)] ∧
      t.flt.count = s.flt.count + 1) ∧
    (∀ bs off, ok 5 → m.plan = none → leAt bs 0 2 = off → 4 ≤ bs.length → bs.length ≤ 1028 →
      (off = 0 → leAt bs 2 2 = 1616 → bs.length < 1620 → ∃ t, answers (.loadRackPlan inst bs) 5 0 (toLE 2 (bs.length - 4)) t ∧ t.fab = s.fab ∧
        t.mgt.plan = some { bytes := bs.drop 4, total := 1616 }) ∧
      (off ≠ 0 ∨ leAt bs 2 2 ≠ 1616 → ∃ t, answers (.loadRackPlan inst bs) 5 2 [] t ∧ t.fab = s.fab ∧ t.mgt.plan = none)) ∧
    (∀ bs had all, ok 5 → m.plan = some { bytes := had, total := 1616 } → had ≠ [] → leAt bs 0 2 = had.length → leAt bs 2 2 = 1616 →
      4 ≤ bs.length → bs.length ≤ 1028 → all = had ++ bs.drop 4 → all.length = 1616 →
      (s.planOk all = true → ∃ t, answers (.loadRackPlan inst bs) 5 0 (toLE 2 1616) t ∧ t.fab.plan = some all ∧ t.fab.coord = planCoord all ∧
        t.mgt.plan = none ∧ ∀ w, w < 32 → (t.straw w).state = if (s.straw w).state = .held ∨ (s.straw w).state = .quarantined then .rollCall
          else (s.straw w).state) ∧
      (s.planOk all = false → ∃ t, answers (.loadRackPlan inst bs) 5 2 [] t ∧ t.fab = s.fab ∧ t.mgt.plan = none)) ∧
    (ok 6 → ∃ t, answers (.readForecast inst) 6 0 s.forecastBytes t ∧ idle t) ∧
    (∀ (first : W32) (n : BitVec 8), ok 7 →
      (n = 0 ∨ 32 < n.toNat → ∃ t, answers (.readFaultLog inst first n) 7 2 [] t ∧ idle t) ∧
      (0 < n.toNat → n.toNat ≤ 32 → ∃ t, answers (.readFaultLog inst first n) 7 0
          ((s.logRange first.toNat n.toNat).flatMap (fun i => s.logSlot (i % 1024))) t ∧ t.flt.count = s.flt.count ∧
        ∀ i ∈ s.logRange first.toNat n.toNat, ∀ e, Tab.get none s.flt.log (i % 1024) = some e →
          Tab.get none t.flt.log (i % 1024) = some { e with read := true })) ∧
    (ok 8 → ∃ t, answers (.clearCorr inst) 8 0 [] t ∧ t.flt = { s.flt with corr := false } ∧ { t with mgt := m, flt := s.flt } = s) ∧
    (∀ mode level : BitVec 8, ok 9 →
      (mode = 1 → 25 ≤ level.toNat → level.toNat ≤ 100 → ∃ t more, answers (.setEvtMode inst mode level) 9 0 more t ∧ t.mgt.evtMode = 1 ∧
        t.pwr.ftLevel.toNat = level.toNat) ∧
      (mode = 1 → level.toNat < 25 ∨ 100 < level.toNat → ∃ t, answers (.setEvtMode inst mode level) 9 2 [] t ∧ idle t) ∧
      (mode = 2 → m.evtMode = 1 → ∃ t, answers (.setEvtMode inst mode level) 9 4 [] t ∧ t.mgt.evtMode = 1 ∧ t.mgt.refused = true) ∧
      (mode = 2 → m.evtMode ≠ 1 → s.scopeOpen 1 = false → ∃ t, answers (.setEvtMode inst mode level) 9 5 [] t ∧ idle t) ∧
      (mode = 2 → m.evtMode ≠ 1 → s.scopeOpen 1 = true → ∃ t more, answers (.setEvtMode inst mode level) 9 0 more t ∧ t.mgt.evtMode = 2) ∧
      (mode ≠ 1 → mode ≠ 2 → ∃ t, answers (.setEvtMode inst mode level) 9 2 [] t ∧ idle t)) ∧
    (∀ (off : W32) (last : Bool) (bs : List Byte), ok 10 →
      let had := (m.image.map (fun p => p.bytes)).getD []
      let shut := s.boot.source ≠ 3 ∨ 2 < s.boot.phase.toNat ∨ s.boot.sampled = false ∨ s.boot.whole = true
      let all := had ++ bs
      (shut → ∃ t, answers (.recoveryImage inst off last bs) 10 5 [] t ∧ idle t) ∧
      (¬ shut → bs.length ≤ 4032 → off.toNat = had.length → all.length ≤ 16777216 →
        (last = false → ∃ t, answers (.recoveryImage inst off last bs) 10 0 (toLE 4 all.length) t ∧ t.boot = s.boot ∧
          t.mgt.image = some { bytes := all, total := 0 }) ∧
        (last = true → ∃ t, answers (.recoveryImage inst off last bs) 10 0 (toLE 4 all.length) t ∧ t.boot.whole = true ∧
          imgBytes t.boot.image 0 all.length = all ∧ t.mgt.image = none))) ∧
    (ok 11 → ∃ t more, answers (.resync inst) 11 0 more t ∧ idle t ∧ more.length = 30 ∧ leAt more 0 4 = s.pwr.schedId.toNat ∧
      leAt more 28 2 = s.limit % 65536) ∧
    ∀ (slice : BitVec 16) (axes revoke : BitVec 8), ok 12 →
      let ax : BitVec 3 := axes.setWidth 3
      let own := match s.host.wraps.find? (fun g => g.1 = slice) with
        | some g => g.2
        | none => 0
      let taken := ∃ g ∈ s.host.wraps, g.1 ≠ slice ∧ g.2 &&& ax ≠ 0
      (8 ≤ axes.toNat ∨ 2 ≤ revoke.toNat ∨ (revoke = 0 ∧ taken) → ∃ t, answers (.grantWrap inst slice axes revoke) 12 2 [] t ∧ idle t) ∧
      (axes.toNat < 8 → revoke = 1 → ∃ t more, answers (.grantWrap inst slice axes revoke) 12 0 more t ∧
        t.host.wraps = putGrant s.host.wraps slice (own &&& ~~~ax)) ∧
      (axes.toNat < 8 → revoke = 0 → ¬ taken → own ≠ 0 ∨ s.host.wraps.length < 16 → ∃ t, t.host.wraps = putGrant s.host.wraps slice (own ||| ax) ∧
        answers (.grantWrap inst slice axes revoke) 12 0 (toLE 1 t.host.wraps.length) t)

/-- The rest of the port and the sidebands (R522, R545, R549, R550, R554, R556, R557, R559 to R562): notices of new
entries, at most ten a second; PKG_EVT_N clamps or starts a dump by its mode; the heartbeat; I3C addresses; MCTP control
messages; PLDM sensors and the update of the boot image. Where the spec leaves something open, its clauses follow the
model's choices in log entries 15, 130 and 132. -/
def Obligations.PortsAndSidebands : Prop :=
  ∀ (addr static : BitVec 7) (eid typ : BitVec 8) (sensor : BitVec 16) (image : List Byte) (s : State),
    let m := s.mgt
    let b := s.boot
    let sends := fun (i : Instr) (bytes : List Byte) (t : State) => exec i s = .next t ∧ t.mgt.out = m.out ++ [bytes] ∧ { t with mgt := m } = s
    let heard := fun (i : Instr) (bytes : List Byte) => ∃ t, sends i bytes t ∧ t.mgt.last = s.refcnt ∧ t.mgt.silent = false
    let mute := b.inReset = true ∨ b.phase.toNat < 3
    let calm := (s.recent 1000000000 m.notices).length < 10
    (mute ∨ s.nextNotice = none → exec .eventNotice s = .next s) ∧
    (∀ i, ¬ mute → s.nextNotice = some i → (calm → ∃ t, sends .eventNotice (toLE 1 0x80 ++ toLE 4 i ++ s.logSlot (i % 1024)) t ∧
        t.mgt.noticed = BitVec.ofNat 32 (i + 1)) ∧
      (¬ calm → ∃ t, exec .eventNotice s = .next t ∧ t.mgt.out = m.out ∧ t.mgt.noticed = BitVec.ofNat 32 (i + 1))) ∧
    exec .multipartAbandon s = .next { s with mgt := { m with plan := none, image := none } } ∧
    (b.inReset = false → m.evtN = true →
      (m.evtMode = 1 → ∃ t, exec .pkgEvtAssert s = .next t ∧ t.mgt.evtN = false ∧ t.pwr = { s.pwr with ftAsserted := true, ftActive := true } ∧
        t.flt.count = s.flt.count + 1) ∧
      (m.evtMode = 2 → (∀ t0, m.dumpAt = some t0 → s.since t0 1000000000 = true) → s.glean.running = false → ∃ t, exec .pkgEvtAssert s = .next t ∧
        t.glean.running = true ∧ t.glean.trigger = 0xFFFF ∧ t.mgt.dumpAt = some s.refcnt ∧ t.mgt.evtN = false)) ∧
    (b.inReset = true ∨ m.evtN = false ∨ (m.evtMode ≠ 1 ∧ m.evtMode ≠ 2) → exec .pkgEvtAssert s = .next { s with mgt := { m with evtN := false } }) ∧
    exec .pkgEvtDeassert s = .next { s with mgt := { m with evtN := true }, pwr := { s.pwr with ftAsserted := false } } ∧
    (∃ t, exec .heartbeatRearm s = .next t ∧ { t with mgt := m } = s ∧ (m.trip = false → b.inReset = false → t.mgt.heartbeat = true)) ∧
    exec .heartbeatStop s = .next { s with mgt := { m with heartbeat := false } } ∧
    (b.inReset = false → m.i3c = none → ∃ t, sends (.i3cEntdaa addr) (toLE 6 (0x0D8C * 2 ^ 33 + s.sec.otp.serial.toNat % 2 ^ 32)) t ∧
      t.mgt.i3c = some addr) ∧
    (b.inReset = true ∨ m.i3c ≠ none → exec (.i3cEntdaa addr) s = .next s) ∧
    (b.inReset = false → static = 0x3A → exec (.i3cSetdasa static addr) s = .next { s with mgt := { m with i3c := some addr } }) ∧
    (b.inReset = true ∨ static ≠ 0x3A → exec (.i3cSetdasa static addr) s = .next s) ∧
    exec .i3cRstdaa s = .next { s with mgt := { m with i3c := none } } ∧
    (b.inReset = true → ∀ i ∈ ([.setEndpointId eid, .getEndpointId, .getEndpointUuid, .getMessageTypeSupport, .pldmSensorRead sensor,
      .requestUpdate image] : List Instr), exec i s = .next s) ∧
    (b.inReset = false →
      (∃ t, sends (.setEndpointId eid) [1, 0, eid] t ∧ t.mgt.eid = some eid ∧ t.mgt.last = s.refcnt) ∧
      heard .getEndpointId [2, 0, m.eid.getD 0] ∧ heard .getEndpointUuid ([3, 0] ++ toLE 16 Config.endpointUuid.toNat) ∧
      heard .getMessageTypeSupport [5, 0, 4, 0x00, 0x01, 0x05, 0x7F] ∧
      (typ ∈ [0x00, 0x01, 0x05, 0x7F] → ∃ t v, exec (.getMctpVersionSupport typ) s = .next t ∧ v.length = 4 ∧ t.mgt.out = m.out ++ [[4, 0, 1] ++ v]) ∧
      (typ ∉ [0x00, 0x01, 0x05, 0x7F] → heard (.getMctpVersionSupport typ) [4, 0x80]) ∧
      (∀ v, s.sensorValue sensor.toNat = some (some v) → heard (.pldmSensorRead sensor) (toLE 2 sensor.toNat ++ [0] ++ toLE 4 (BitVec.ofInt 32 v).toNat)) ∧
      (s.sensorValue sensor.toNat = none → heard (.pldmSensorRead sensor) (toLE 2 sensor.toNat ++ [0x80])) ∧
      (s.sensorValue sensor.toNat = some none → ∃ t v, exec (.pldmSensorRead sensor) s = .next t ∧ v.length = 4 ∧
        t.mgt.out = m.out ++ [toLE 2 sensor.toNat ++ [0] ++ v]) ∧
      (b.phase.toNat < 3 ∨ 16777216 < image.length → exec (.requestUpdate image) s = .next s) ∧
      (3 ≤ b.phase.toNat → image.length ≤ 16777216 →
        let im := Tab.setMany 0 [] 0 image
        (s.imageCheck im ≠ 0 → heard (.requestUpdate image) (toLE 2 0x113)) ∧
        (s.imageCheck im = 0 → (b.flash (!b.slot)).erases.toNat < 90000 → ∃ t, exec (.requestUpdate image) s = .next t ∧
          t.mgt.out = m.out ++ [toLE 2 0] ∧ t.boot.flash b.slot = b.flash b.slot ∧ (t.boot.flash (!b.slot)).code = 1 ∧
          (t.boot.flash (!b.slot)).image = im)))

/-- SPDM (R558, R579 to R581, Table 18-6): a connection is made in the order of version, capabilities, algorithms; then
digests, certificates of slot 0, challenges and measurements are answered; out of order a request is an error; requests
are answered once the stewards run. Where the spec leaves something open, its clauses follow the model's choices in log
entries 16, 132, 135 and 193. -/
def Obligations.SpdmRequestsAreAnswered : Prop :=
  ∀ (p : SpdmPort) (slot index : BitVec 8) (nonce : List Byte) (off len : Nat) (s : State),
    let k := Tab.get 0 s.sec.conn (portNo p)
    let answers := fun (i : Instr) (r : SpdmRsp) (k' : Nat) => ∃ t, exec i s = .next t ∧ t.sec.out = s.sec.out ++ [(p, r)] ∧
      Tab.get 0 t.sec.conn (portNo p) = k' ∧ (∀ n, n ≠ portNo p → Tab.get 0 t.sec.conn n = Tab.get 0 s.sec.conn n) ∧
      { t with sec := s.sec, mgt := s.mgt } = s ∧ t.sec.otp = s.sec.otp ∧ t.sec.lock = s.sec.lock ∧ t.sec.nonce = s.sec.nonce
    let ready : List Instr := [.getDigests p, .getCertificate p slot off len, .challenge p slot nonce, .getMeasurements p index true nonce]
    let part := slice s.chain off len
    (s.spdmServes p = false → ∀ i ∈ ready ++ [.getVersion p, .getCapabilities p, .negotiateAlgorithms p true], exec i s = .next s) ∧
    (s.spdmServes p = true → answers (.getVersion p) .version 1 ∧
      (k < 1 → answers (.getCapabilities p) (.error 4) k) ∧ (1 ≤ k → answers (.getCapabilities p) .capabilities 2) ∧
      (k < 2 → ∀ offer, answers (.negotiateAlgorithms p offer) (.error 4) k) ∧
      (2 ≤ k → answers (.negotiateAlgorithms p true) .algorithms 3 ∧ answers (.negotiateAlgorithms p false) (.error 1) 2) ∧
      (k < 3 → ∀ i ∈ ready, answers i (.error 4) k) ∧
      (3 ≤ k → answers (.getDigests p) (.digests (Config.sha3 s.chain)) 3 ∧
        (slot = 0 → answers (.getCertificate p slot off len) (.certificate part (s.chain.length - (off + part.length))) 3 ∧
          answers (.challenge p slot nonce) (.challengeAuth nonce s.signer) 3) ∧
        (slot ≠ 0 → answers (.getCertificate p slot off len) (.error 1) 3 ∧ answers (.challenge p slot nonce) (.error 1) 3) ∧
        (∀ signed, (1 ≤ index.toNat → index.toNat ≤ 9 →
            answers (.getMeasurements p index signed nonce) (.measurements [(index.toNat, s.measure index.toNat)] (if signed then some s.signer else none) nonce) 3) ∧
          (index = 0 → answers (.getMeasurements p index signed nonce) (.measurements [] (if signed then some s.signer else none) nonce) 3) ∧
          (index = 0xFF → answers (.getMeasurements p index signed nonce)
            (.measurements ([1, 2, 3, 4, 5, 6, 7, 8, 9].map (fun i => (i, s.measure i))) (if signed then some s.signer else none) nonce) 3) ∧
          (9 < index.toNat → index ≠ 0xFF → answers (.getMeasurements p index signed nonce) (.error 1) 3))))

/-- Tokens, the debug lock and the TAP (R456, R548, R559, R570 to R578, Tables 18-4, 18-5): vendor requests are answered
over MCTP; a nonce is replaced by the next and used up by a token; a token of the wrong length, part, nonce or signer is
refused, one that is right starts the write of its generation or opens the lock with its scope; closing the lock resets
the TAP and withdraws an armed trigger; a locked TAP bypasses what it does not open. Where the spec leaves something
open, its clauses follow the model's choices in log entries 133, 134 and 135. -/
def Obligations.TokensAndDebugLock : Prop :=
  ∀ (p : SpdmPort) (tok : List Byte) (ir : BitVec 8) (s : State),
    let answers := fun (i : Instr) (r : SpdmRsp) (t : State) => exec i s = .next t ∧ t.sec.out = s.sec.out ++ [(p, r)] ∧ t.mem = s.mem ∧
      t.cores = s.cores ∧ t.host = s.host
    let refused := fun (i : Instr) (code st : Nat) => ∃ t, answers i (.vendor code st []) t ∧ t.sec.nonce = none ∧ t.sec.lock = s.sec.lock ∧
      t.sec.otp = s.sec.otp
    let vendors : List Instr := [.getNonce p, .lcTransition p tok, .debugUnlock p tok, .debugRelock p]
    let mine := s.spdmServes p = true ∧ p = .mctp
    let whole := tok.length = 324
    let used := s.sec.otp.cfg.length
    let scope := leAt tok 2 1
    let mins := leAt tok 4 2
    let lcOk := s.tokenOk tok 1 s.sec.nonce = true ∧ mins = 0
    let dbgOk := s.tokenOk tok 2 s.sec.nonce = true ∧ scope < 8 ∧ (scope % 2 = 1 → s.fullOk = true) ∧ 0 < mins ∧ mins ≤ 1440 ∧
      ownerFused (slice tok 32 64) = false ∧ s.debugSigned tok = true
    let closed := fun (t : State) => t.sec.lock = none ∧ (s.sec.lock.isSome = true → t.sec.tap = .idcode ∧
      (s.mgt.evtMode = 2 → t.mgt.evtMode = 0 ∧ t.flt.count = s.flt.count + 1)) ∧ (s.mgt.evtMode ≠ 2 → t.flt = s.flt)
    (s.spdmServes p = false → ∀ i ∈ vendors, exec i s = .next s) ∧
    (s.spdmServes p = true → p ≠ .mctp → ∀ i ∈ vendors, ∃ t, answers i (.error 7) t ∧ t.sec.nonce = s.sec.nonce ∧ t.sec.lock = s.sec.lock) ∧
    (mine → ∃ t bs, answers (.getNonce p) (.vendor 1 0 bs) t ∧ bs.length = 16 ∧ t.sec.nonce = some (BitVec.ofNat 128 (ofLE bs)) ∧
      t.sec.otp = s.sec.otp) ∧
    (mine → ¬ whole → refused (.lcTransition p tok) 2 1 ∧ refused (.debugUnlock p tok) 3 1) ∧
    (mine → whole → s.sec.otp.writing.isSome = true → refused (.lcTransition p tok) 2 3 ∧ refused (.debugUnlock p tok) 3 3) ∧
    (mine → whole → s.sec.otp.writing = none →
      (¬ lcOk → refused (.lcTransition p tok) 2 2) ∧
      (lcOk → s.transition tok = none → refused (.lcTransition p tok) 2 2) ∧
      (∀ g, lcOk → s.transition tok = some g →
        let room := if g.lc = 4 then 4 else 3
        (room ≤ used → refused (.lcTransition p tok) 2 2) ∧
        (used < room → ∃ t, answers (.lcTransition p tok) (.vendor 2 0 []) t ∧ t.sec.nonce = none ∧
          t.sec.otp = { s.sec.otp with writing := some (.cfg g) } ∧ t.sec.cfg = s.sec.cfg)) ∧
      (¬ dbgOk → refused (.debugUnlock p tok) 3 2) ∧
      (dbgOk → ∃ t, answers (.debugUnlock p tok) (.vendor 3 0 []) t ∧ t.sec.nonce = none ∧ t.sec.otp = s.sec.otp ∧
        t.sec.lock = some { scope := BitVec.ofNat 3 scope, at_ := s.refcnt, minutes := mins })) ∧
    (mine → ∃ t, answers (.debugRelock p) (.vendor 4 0 []) t ∧ closed t) ∧
    (∃ t, exec .debugLifetimeExpire s = .next t ∧ closed t ∧ t.mem = s.mem ∧ t.sec.otp = s.sec.otp) ∧
    exec .nonceExpire s = .next { s with sec := { s.sec with nonce := none } } ∧
    exec (.jtagInstruction .idcode) s = .next { s with sec := { s.sec with tap := .idcode } } ∧
    exec (.jtagInstruction .bypass) s = .next { s with sec := { s.sec with tap := .bypass } } ∧
    (s.tapOpen = false → exec (.jtagInstruction (.other ir)) s = .next { s with sec := { s.sec with tap := .bypass } }) ∧
    (s.tapOpen = true → exec (.jtagInstruction (.other ir)) s = .refused .tapInstruction)

end
end

