-- ==== Sys2Proof/Laws/Tab.lean ====
section
/-! SUPPORT. Laws of tables: reading what was written, and the canonical form. -/

namespace Sys2Proof.Machine

variable {α : Type}

/-! ### Reading back -/

theorem Tab.get_filter_ne (d : α) (n m : Nat) (h : m ≠ n) :
    ∀ t : Tab α, Tab.get d (t.filter (fun e => decide (e.1 ≠ n))) m = Tab.get d t m
  | [] => rfl
  | (k, v) :: t => by
    have ih := Tab.get_filter_ne d n m h t
    by_cases hk : k = n
    · subst hk
      simp [Tab.get, Ne.symm h, ← ih]
    · by_cases hm : k = m <;> simp [Tab.get, hk, hm] <;> simp_all [Tab.get]

theorem Tab.get_filter_self (d : α) (n : Nat) :
    ∀ t : Tab α, Tab.get d (t.filter (fun e => decide (e.1 ≠ n))) n = d
  | [] => rfl
  | (k, v) :: t => by
    have ih := Tab.get_filter_self d n t
    by_cases hk : k = n <;> simp_all [Tab.get]

variable [DecidableEq α]

theorem Tab.get_put (d : α) (n m : Nat) (v : α) (t : Tab α) :
    Tab.get d (Tab.put d n v t) m = if v = d then Tab.get d t m else if n = m then v else Tab.get d t m := by
  unfold Tab.put
  split <;> simp [Tab.get]

/-- Reading a table after a write: the value written at its key, the old value elsewhere. -/
theorem Tab.get_set (d : α) (n m : Nat) (v : α) :
    ∀ t : Tab α, Tab.get d (Tab.set d t n v) m = if n = m then v else Tab.get d t m
  | [] => by
    simp only [Tab.set, Tab.get_put, Tab.get]
    split <;> split <;> simp_all
  | (k, w) :: t => by
    have ih := Tab.get_set d n m v t
    unfold Tab.set
    split
    · by_cases h : k = m
      · subst h
        have : n ≠ k := by omega
        simp [Tab.get, this]
      · simp [Tab.get, h, ih]
    · rw [Tab.get_put]
      by_cases hn : n = m
      · subst hn
        rw [Tab.get_filter_self]
        split <;> simp_all
      · rw [Tab.get_filter_ne d n m (Ne.symm hn)]
        simp [hn]

/-- Reading the key that was written. -/
@[simp] theorem Tab.get_set_same (d : α) (n : Nat) (v : α) (t : Tab α) : Tab.get d (Tab.set d t n v) n = v := by
  simp [Tab.get_set]

/-- Reading another key. -/
theorem Tab.get_set_other (d : α) (n m : Nat) (v : α) (t : Tab α) (h : n ≠ m) :
    Tab.get d (Tab.set d t n v) m = Tab.get d t m := by
  simp [Tab.get_set, h]

/-- A key outside the keys that consecutive writes cover. -/
theorem Tab.get_setMany_other (d : α) (m : Nat) :
    ∀ (vs : List α) (t : Tab α) (n : Nat), m < n ∨ n + vs.length ≤ m → Tab.get d (Tab.setMany d t n vs) m = Tab.get d t m
  | [], _, _, _ => rfl
  | v :: vs, t, n, h => by
    have hl : (v :: vs).length = vs.length + 1 := rfl
    rw [hl] at h
    rw [Tab.setMany, Tab.get_setMany_other d m vs _ _ (by omega), Tab.get_set_other _ _ _ _ _ (by omega)]

/-- A key among those that consecutive writes cover. -/
theorem Tab.get_setMany_in (d : α) :
    ∀ (vs : List α) (t : Tab α) (n i : Nat) (h : i < vs.length), Tab.get d (Tab.setMany d t n vs) (n + i) = vs[i]
  | v :: vs, t, n, 0, _ => by
    rw [Tab.setMany, Tab.get_setMany_other d _ vs _ _ (by omega)]
    simp
  | v :: vs, t, n, i + 1, h => by
    have := Tab.get_setMany_in d vs (Tab.set d t n v) (n + 1) i (by simpa using h)
    rw [Tab.setMany, show n + (i + 1) = n + 1 + i by omega, this]
    simp

/-- Reading back the keys that were written. -/
theorem Tab.getMany_setMany (d : α) (vs : List α) (t : Tab α) (n : Nat) :
    Tab.getMany d (Tab.setMany d t n vs) n vs.length = vs := by
  have key : ∀ (k i : Nat) (us : List α), us.length = k → vs.drop i = us →
      Tab.getMany d (Tab.setMany d t n vs) (n + i) k = us := by
    intro k
    induction k with
    | zero => intro i us hl _; simp_all [Tab.getMany]
    | succ k ih =>
      intro i us hl hd
      have hi : i < vs.length := by
        have := congrArg List.length hd
        simp at this
        omega
      rw [Tab.getMany, Tab.get_setMany_in d vs t n i hi]
      rw [List.drop_eq_getElem_cons hi] at hd
      subst hd
      rw [show n + i + 1 = n + (i + 1) by omega, ih (i + 1) _ (by simp at hl ⊢; omega) rfl]
  simpa using key vs.length 0 vs rfl (by simp)

/-- Reading back some of the keys that were written. -/
theorem Tab.getMany_setMany_part (d : α) (vs : List α) (t : Tab α) (a : Nat) :
    ∀ (n off : Nat), off + n ≤ vs.length → Tab.getMany d (Tab.setMany d t a vs) (a + off) n = (vs.drop off).take n
  | 0, off, _ => by simp [Tab.getMany]
  | n + 1, off, h => by
    have hi : off < vs.length := by omega
    rw [Tab.getMany, Tab.get_setMany_in d vs t a off hi, List.drop_eq_getElem_cons hi, List.take_succ_cons,
      show a + off + 1 = a + (off + 1) by omega, Tab.getMany_setMany_part d vs t a n (off + 1) (by omega)]

/-! ### The canonical form -/

theorem Tab.above_weaken (d : α) (b c : Option Nat) :
    ∀ t : Tab α, Tab.above d b t = true → (∀ m, c = some m → ∃ k, b = some k ∧ m ≤ k) → Tab.above d c t = true
  | [], _, _ => rfl
  | (k, v) :: t, h, hc => by
    cases b with
    | none =>
      cases c with
      | none => exact h
      | some m =>
        obtain ⟨k', hk, _⟩ := hc m rfl
        exact absurd hk (by simp)
    | some b =>
      simp only [Tab.above, Bool.and_eq_true, decide_eq_true_eq] at h
      cases c with
      | none => simpa [Tab.above] using h.2
      | some m =>
        obtain ⟨k', hk, hm⟩ := hc m rfl
        cases hk
        simp only [Tab.above, Bool.and_eq_true, decide_eq_true_eq]
        exact ⟨by omega, h.2⟩

/-- Dropping entries keeps the canonical form. -/
theorem Tab.above_filter (d : α) (p : Nat × α → Bool) (b : Option Nat) :
    ∀ t : Tab α, Tab.above d b t = true → Tab.above d b (t.filter p) = true
  | [], _ => rfl
  | (k, v) :: t, h => by
    simp only [Tab.above, Bool.and_eq_true] at h
    have ih := Tab.above_filter d p (some k) t h.2.2
    by_cases hp : p (k, v) = true
    · rw [List.filter_cons_of_pos hp]
      simp only [Tab.above, Bool.and_eq_true]
      exact ⟨h.1, h.2.1, ih⟩
    · rw [List.filter_cons_of_neg hp]
      refine Tab.above_weaken d (some k) b _ ih ?_
      intro m hm
      subst hm
      exact ⟨k, rfl, by have := h.1; simp at this; omega⟩

theorem Tab.wf_filter (d : α) (p : Nat × α → Bool) (t : Tab α) (h : Tab.wf d t = true) : Tab.wf d (t.filter p) = true :=
  Tab.above_filter d p none t h

theorem Tab.above_put (d : α) (n : Nat) (v : α) (b : Option Nat) (t : Tab α)
    (hb : ∀ m, b = some m → m < n) (h : Tab.above d (some n) t = true) : Tab.above d b (Tab.put d n v t) = true := by
  unfold Tab.put
  split
  · exact Tab.above_weaken d (some n) b t h (fun m hm => ⟨n, rfl, Nat.le_of_lt (hb m hm)⟩)
  · rename_i hv
    cases b with
    | none => simpa [Tab.above, hv] using h
    | some m => simpa [Tab.above, hv, hb m rfl] using h

/-- A write keeps the canonical form. -/
theorem Tab.above_set (d : α) (n : Nat) (v : α) :
    ∀ (b : Option Nat) (t : Tab α), (∀ m, b = some m → m < n) → Tab.above d b t = true →
      Tab.above d b (Tab.set d t n v) = true
  | b, [], hb, _ => Tab.above_put d n v b [] hb rfl
  | b, (k, w) :: t, hb, h => by
    have h' := h
    simp only [Tab.above, Bool.and_eq_true] at h
    unfold Tab.set
    split
    · rename_i hk
      have ih := Tab.above_set d n v (some k) t (fun m hm => by cases hm; exact hk) h.2.2
      simp only [Tab.above, Bool.and_eq_true]
      exact ⟨h.1, h.2.1, ih⟩
    · rename_i hk
      refine Tab.above_put d n v b _ hb ?_
      by_cases hn : k = n
      · subst hn
        rw [List.filter_cons_of_neg (by simp)]
        exact Tab.above_filter d _ (some k) t h.2.2
      · rw [List.filter_cons_of_pos (by simp [hn])]
        have := Tab.above_filter d (fun e => decide (e.1 ≠ n)) (some k) t h.2.2
        simp only [Tab.above, Bool.and_eq_true, decide_eq_true_eq] at h ⊢
        exact ⟨by omega, h.2.1, this⟩

theorem Tab.wf_set (d : α) (n : Nat) (v : α) (t : Tab α) (h : Tab.wf d t = true) : Tab.wf d (Tab.set d t n v) = true :=
  Tab.above_set d n v none t (by simp) h

theorem Tab.wf_setMany (d : α) : ∀ (vs : List α) (n : Nat) (t : Tab α), Tab.wf d t = true →
    Tab.wf d (Tab.setMany d t n vs) = true
  | [], _, _, h => h
  | v :: vs, n, t, h => Tab.wf_setMany d vs (n + 1) _ (Tab.wf_set d n v t h)

end Sys2Proof.Machine
end

