-- ==== Sys2Proof/Laws/State.lean ====
section
/-! SUPPORT. What each accessor reads after each update of one unit: the value written at its own place, the old
value elsewhere, and every other part of the state unchanged. -/

namespace Sys2Proof.Machine

variable (s : State) (n m : Nat)

/-! ### floret -/

theorem State.floret_setFloret (v : Floret) : (s.setFloret n v).floret m = if n = m then v else s.floret m :=
  Tab.get_set _ _ _ _ _

@[simp] theorem State.floret_setFloret_same (v : Floret) : (s.setFloret n v).floret n = v := Tab.get_set_same _ _ _ _

@[simp] theorem State.spk_setFloret (v : Floret) : (s.setFloret n v).spk m = s.spk m := rfl
@[simp] theorem State.pan_setFloret (v : Floret) : (s.setFloret n v).pan m = s.pan m := rfl
@[simp] theorem State.seqr_setFloret (v : Floret) : (s.setFloret n v).seqr m = s.seqr m := rfl
@[simp] theorem State.ctx_setFloret (v : Floret) : (s.setFloret n v).ctx m = s.ctx m := rfl
@[simp] theorem State.queue_setFloret (v : Floret) : (s.setFloret n v).queue m = s.queue m := rfl
@[simp] theorem State.stew_setFloret (v : Floret) : (s.setFloret n v).stew m = s.stew m := rfl
@[simp] theorem State.stack_setFloret (v : Floret) : (s.setFloret n v).stack m = s.stack m := rfl
@[simp] theorem State.panArb_setFloret (v : Floret) : (s.setFloret n v).panArb m = s.panArb m := rfl
@[simp] theorem State.straw_setFloret (v : Floret) : (s.setFloret n v).straw m = s.straw m := rfl
@[simp] theorem State.dir_setFloret (v : Floret) : (s.setFloret n v).dir m = s.dir m := rfl
@[simp] theorem State.die_setFloret (v : Floret) : (s.setFloret n v).die m = s.die m := rfl
@[simp] theorem State.sheaf_setFloret (v : Floret) : (s.setFloret n v).sheaf m = s.sheaf m := rfl
@[simp] theorem State.ring_setFloret (v : Floret) : (s.setFloret n v).ring m = s.ring m := rfl
@[simp] theorem State.dom_setFloret (v : Floret) : (s.setFloret n v).dom m = s.dom m := rfl
@[simp] theorem State.zone_setFloret (v : Floret) : (s.setFloret n v).zone m = s.zone m := rfl
@[simp] theorem State.comb_setFloret (v : Floret) : (s.setFloret n v).comb m = s.comb m := rfl
@[simp] theorem State.leaf_setFloret (v : Floret) : (s.setFloret n v).leaf m = s.leaf m := rfl
@[simp] theorem State.slots_setFloret (v : Floret) : (s.setFloret n v).slots m = s.slots m := rfl
@[simp] theorem State.panBnd_setFloret (v : Floret) : (s.setFloret n v).panBnd m = s.panBnd m := rfl
@[simp] theorem State.stackBnd_setFloret (v : Floret) : (s.setFloret n v).stackBnd m = s.stackBnd m := rfl
@[simp] theorem State.pending_setFloret (v : Floret) : (s.setFloret n v).pending = s.pending := rfl
@[simp] theorem State.refcnt_setFloret (v : Floret) : (s.setFloret n v).refcnt = s.refcnt := rfl
@[simp] theorem State.freeIx_setFloret (v : Floret) : (s.setFloret n v).freeIx = s.freeIx := rfl
@[simp] theorem State.mem_setFloret (v : Floret) : (s.setFloret n v).mem = s.mem := rfl
@[simp] theorem State.grn_setFloret (v : Floret) : (s.setFloret n v).grn = s.grn := rfl
@[simp] theorem State.fab_setFloret (v : Floret) : (s.setFloret n v).fab = s.fab := rfl
@[simp] theorem State.red_setFloret (v : Floret) : (s.setFloret n v).red = s.red := rfl
@[simp] theorem State.bnd_setFloret (v : Floret) : (s.setFloret n v).bnd = s.bnd := rfl
@[simp] theorem State.host_setFloret (v : Floret) : (s.setFloret n v).host = s.host := rfl
@[simp] theorem State.floor_setFloret (v : Floret) : (s.setFloret n v).floor = s.floor := rfl
@[simp] theorem State.flt_setFloret (v : Floret) : (s.setFloret n v).flt = s.flt := rfl
@[simp] theorem State.det_setFloret (v : Floret) : (s.setFloret n v).det = s.det := rfl
@[simp] theorem State.sec_setFloret (v : Floret) : (s.setFloret n v).sec = s.sec := rfl
@[simp] theorem State.boot_setFloret (v : Floret) : (s.setFloret n v).boot = s.boot := rfl
@[simp] theorem State.bist_setFloret (v : Floret) : (s.setFloret n v).bist = s.bist := rfl
@[simp] theorem State.glean_setFloret (v : Floret) : (s.setFloret n v).glean = s.glean := rfl
@[simp] theorem State.pwr_setFloret (v : Floret) : (s.setFloret n v).pwr = s.pwr := rfl
@[simp] theorem State.mgt_setFloret (v : Floret) : (s.setFloret n v).mgt = s.mgt := rfl
@[simp] theorem State.acc_setFloret (v : Floret) : (s.setFloret n v).acc = s.acc := rfl

/-! ### spk -/

theorem State.spk_setSpk (v : Spikelet) : (s.setSpk n v).spk m = if n = m then v else s.spk m :=
  Tab.get_set _ _ _ _ _

@[simp] theorem State.spk_setSpk_same (v : Spikelet) : (s.setSpk n v).spk n = v := Tab.get_set_same _ _ _ _

@[simp] theorem State.floret_setSpk (v : Spikelet) : (s.setSpk n v).floret m = s.floret m := rfl
@[simp] theorem State.pan_setSpk (v : Spikelet) : (s.setSpk n v).pan m = s.pan m := rfl
@[simp] theorem State.seqr_setSpk (v : Spikelet) : (s.setSpk n v).seqr m = s.seqr m := rfl
@[simp] theorem State.ctx_setSpk (v : Spikelet) : (s.setSpk n v).ctx m = s.ctx m := rfl
@[simp] theorem State.queue_setSpk (v : Spikelet) : (s.setSpk n v).queue m = s.queue m := rfl
@[simp] theorem State.stew_setSpk (v : Spikelet) : (s.setSpk n v).stew m = s.stew m := rfl
@[simp] theorem State.stack_setSpk (v : Spikelet) : (s.setSpk n v).stack m = s.stack m := rfl
@[simp] theorem State.panArb_setSpk (v : Spikelet) : (s.setSpk n v).panArb m = s.panArb m := rfl
@[simp] theorem State.straw_setSpk (v : Spikelet) : (s.setSpk n v).straw m = s.straw m := rfl
@[simp] theorem State.dir_setSpk (v : Spikelet) : (s.setSpk n v).dir m = s.dir m := rfl
@[simp] theorem State.die_setSpk (v : Spikelet) : (s.setSpk n v).die m = s.die m := rfl
@[simp] theorem State.sheaf_setSpk (v : Spikelet) : (s.setSpk n v).sheaf m = s.sheaf m := rfl
@[simp] theorem State.ring_setSpk (v : Spikelet) : (s.setSpk n v).ring m = s.ring m := rfl
@[simp] theorem State.dom_setSpk (v : Spikelet) : (s.setSpk n v).dom m = s.dom m := rfl
@[simp] theorem State.zone_setSpk (v : Spikelet) : (s.setSpk n v).zone m = s.zone m := rfl
@[simp] theorem State.comb_setSpk (v : Spikelet) : (s.setSpk n v).comb m = s.comb m := rfl
@[simp] theorem State.leaf_setSpk (v : Spikelet) : (s.setSpk n v).leaf m = s.leaf m := rfl
@[simp] theorem State.slots_setSpk (v : Spikelet) : (s.setSpk n v).slots m = s.slots m := rfl
@[simp] theorem State.panBnd_setSpk (v : Spikelet) : (s.setSpk n v).panBnd m = s.panBnd m := rfl
@[simp] theorem State.stackBnd_setSpk (v : Spikelet) : (s.setSpk n v).stackBnd m = s.stackBnd m := rfl
@[simp] theorem State.pending_setSpk (v : Spikelet) : (s.setSpk n v).pending = s.pending := rfl
@[simp] theorem State.refcnt_setSpk (v : Spikelet) : (s.setSpk n v).refcnt = s.refcnt := rfl
@[simp] theorem State.freeIx_setSpk (v : Spikelet) : (s.setSpk n v).freeIx = s.freeIx := rfl
@[simp] theorem State.mem_setSpk (v : Spikelet) : (s.setSpk n v).mem = s.mem := rfl
@[simp] theorem State.grn_setSpk (v : Spikelet) : (s.setSpk n v).grn = s.grn := rfl
@[simp] theorem State.fab_setSpk (v : Spikelet) : (s.setSpk n v).fab = s.fab := rfl
@[simp] theorem State.red_setSpk (v : Spikelet) : (s.setSpk n v).red = s.red := rfl
@[simp] theorem State.bnd_setSpk (v : Spikelet) : (s.setSpk n v).bnd = s.bnd := rfl
@[simp] theorem State.host_setSpk (v : Spikelet) : (s.setSpk n v).host = s.host := rfl
@[simp] theorem State.floor_setSpk (v : Spikelet) : (s.setSpk n v).floor = s.floor := rfl
@[simp] theorem State.flt_setSpk (v : Spikelet) : (s.setSpk n v).flt = s.flt := rfl
@[simp] theorem State.det_setSpk (v : Spikelet) : (s.setSpk n v).det = s.det := rfl
@[simp] theorem State.sec_setSpk (v : Spikelet) : (s.setSpk n v).sec = s.sec := rfl
@[simp] theorem State.boot_setSpk (v : Spikelet) : (s.setSpk n v).boot = s.boot := rfl
@[simp] theorem State.bist_setSpk (v : Spikelet) : (s.setSpk n v).bist = s.bist := rfl
@[simp] theorem State.glean_setSpk (v : Spikelet) : (s.setSpk n v).glean = s.glean := rfl
@[simp] theorem State.pwr_setSpk (v : Spikelet) : (s.setSpk n v).pwr = s.pwr := rfl
@[simp] theorem State.mgt_setSpk (v : Spikelet) : (s.setSpk n v).mgt = s.mgt := rfl
@[simp] theorem State.acc_setSpk (v : Spikelet) : (s.setSpk n v).acc = s.acc := rfl

/-! ### pan -/

theorem State.pan_setPan (v : Panicle) : (s.setPan n v).pan m = if n = m then v else s.pan m :=
  Tab.get_set _ _ _ _ _

@[simp] theorem State.pan_setPan_same (v : Panicle) : (s.setPan n v).pan n = v := Tab.get_set_same _ _ _ _

@[simp] theorem State.floret_setPan (v : Panicle) : (s.setPan n v).floret m = s.floret m := rfl
@[simp] theorem State.spk_setPan (v : Panicle) : (s.setPan n v).spk m = s.spk m := rfl
@[simp] theorem State.seqr_setPan (v : Panicle) : (s.setPan n v).seqr m = s.seqr m := rfl
@[simp] theorem State.ctx_setPan (v : Panicle) : (s.setPan n v).ctx m = s.ctx m := rfl
@[simp] theorem State.queue_setPan (v : Panicle) : (s.setPan n v).queue m = s.queue m := rfl
@[simp] theorem State.stew_setPan (v : Panicle) : (s.setPan n v).stew m = s.stew m := rfl
@[simp] theorem State.stack_setPan (v : Panicle) : (s.setPan n v).stack m = s.stack m := rfl
@[simp] theorem State.panArb_setPan (v : Panicle) : (s.setPan n v).panArb m = s.panArb m := rfl
@[simp] theorem State.straw_setPan (v : Panicle) : (s.setPan n v).straw m = s.straw m := rfl
@[simp] theorem State.dir_setPan (v : Panicle) : (s.setPan n v).dir m = s.dir m := rfl
@[simp] theorem State.die_setPan (v : Panicle) : (s.setPan n v).die m = s.die m := rfl
@[simp] theorem State.sheaf_setPan (v : Panicle) : (s.setPan n v).sheaf m = s.sheaf m := rfl
@[simp] theorem State.ring_setPan (v : Panicle) : (s.setPan n v).ring m = s.ring m := rfl
@[simp] theorem State.dom_setPan (v : Panicle) : (s.setPan n v).dom m = s.dom m := rfl
@[simp] theorem State.zone_setPan (v : Panicle) : (s.setPan n v).zone m = s.zone m := rfl
@[simp] theorem State.comb_setPan (v : Panicle) : (s.setPan n v).comb m = s.comb m := rfl
@[simp] theorem State.leaf_setPan (v : Panicle) : (s.setPan n v).leaf m = s.leaf m := rfl
@[simp] theorem State.slots_setPan (v : Panicle) : (s.setPan n v).slots m = s.slots m := rfl
@[simp] theorem State.panBnd_setPan (v : Panicle) : (s.setPan n v).panBnd m = s.panBnd m := rfl
@[simp] theorem State.stackBnd_setPan (v : Panicle) : (s.setPan n v).stackBnd m = s.stackBnd m := rfl
@[simp] theorem State.pending_setPan (v : Panicle) : (s.setPan n v).pending = s.pending := rfl
@[simp] theorem State.refcnt_setPan (v : Panicle) : (s.setPan n v).refcnt = s.refcnt := rfl
@[simp] theorem State.freeIx_setPan (v : Panicle) : (s.setPan n v).freeIx = s.freeIx := rfl
@[simp] theorem State.mem_setPan (v : Panicle) : (s.setPan n v).mem = s.mem := rfl
@[simp] theorem State.grn_setPan (v : Panicle) : (s.setPan n v).grn = s.grn := rfl
@[simp] theorem State.fab_setPan (v : Panicle) : (s.setPan n v).fab = s.fab := rfl
@[simp] theorem State.red_setPan (v : Panicle) : (s.setPan n v).red = s.red := rfl
@[simp] theorem State.bnd_setPan (v : Panicle) : (s.setPan n v).bnd = s.bnd := rfl
@[simp] theorem State.host_setPan (v : Panicle) : (s.setPan n v).host = s.host := rfl
@[simp] theorem State.floor_setPan (v : Panicle) : (s.setPan n v).floor = s.floor := rfl
@[simp] theorem State.flt_setPan (v : Panicle) : (s.setPan n v).flt = s.flt := rfl
@[simp] theorem State.det_setPan (v : Panicle) : (s.setPan n v).det = s.det := rfl
@[simp] theorem State.sec_setPan (v : Panicle) : (s.setPan n v).sec = s.sec := rfl
@[simp] theorem State.boot_setPan (v : Panicle) : (s.setPan n v).boot = s.boot := rfl
@[simp] theorem State.bist_setPan (v : Panicle) : (s.setPan n v).bist = s.bist := rfl
@[simp] theorem State.glean_setPan (v : Panicle) : (s.setPan n v).glean = s.glean := rfl
@[simp] theorem State.pwr_setPan (v : Panicle) : (s.setPan n v).pwr = s.pwr := rfl
@[simp] theorem State.mgt_setPan (v : Panicle) : (s.setPan n v).mgt = s.mgt := rfl
@[simp] theorem State.acc_setPan (v : Panicle) : (s.setPan n v).acc = s.acc := rfl

/-! ### seqr -/

theorem State.seqr_setSeqr (v : Sequencer) : (s.setSeqr n v).seqr m = if n = m then v else s.seqr m :=
  Tab.get_set _ _ _ _ _

@[simp] theorem State.seqr_setSeqr_same (v : Sequencer) : (s.setSeqr n v).seqr n = v := Tab.get_set_same _ _ _ _

@[simp] theorem State.floret_setSeqr (v : Sequencer) : (s.setSeqr n v).floret m = s.floret m := rfl
@[simp] theorem State.spk_setSeqr (v : Sequencer) : (s.setSeqr n v).spk m = s.spk m := rfl
@[simp] theorem State.pan_setSeqr (v : Sequencer) : (s.setSeqr n v).pan m = s.pan m := rfl
@[simp] theorem State.ctx_setSeqr (v : Sequencer) : (s.setSeqr n v).ctx m = s.ctx m := rfl
@[simp] theorem State.queue_setSeqr (v : Sequencer) : (s.setSeqr n v).queue m = s.queue m := rfl
@[simp] theorem State.stew_setSeqr (v : Sequencer) : (s.setSeqr n v).stew m = s.stew m := rfl
@[simp] theorem State.stack_setSeqr (v : Sequencer) : (s.setSeqr n v).stack m = s.stack m := rfl
@[simp] theorem State.panArb_setSeqr (v : Sequencer) : (s.setSeqr n v).panArb m = s.panArb m := rfl
@[simp] theorem State.straw_setSeqr (v : Sequencer) : (s.setSeqr n v).straw m = s.straw m := rfl
@[simp] theorem State.dir_setSeqr (v : Sequencer) : (s.setSeqr n v).dir m = s.dir m := rfl
@[simp] theorem State.die_setSeqr (v : Sequencer) : (s.setSeqr n v).die m = s.die m := rfl
@[simp] theorem State.sheaf_setSeqr (v : Sequencer) : (s.setSeqr n v).sheaf m = s.sheaf m := rfl
@[simp] theorem State.ring_setSeqr (v : Sequencer) : (s.setSeqr n v).ring m = s.ring m := rfl
@[simp] theorem State.dom_setSeqr (v : Sequencer) : (s.setSeqr n v).dom m = s.dom m := rfl
@[simp] theorem State.zone_setSeqr (v : Sequencer) : (s.setSeqr n v).zone m = s.zone m := rfl
@[simp] theorem State.comb_setSeqr (v : Sequencer) : (s.setSeqr n v).comb m = s.comb m := rfl
@[simp] theorem State.leaf_setSeqr (v : Sequencer) : (s.setSeqr n v).leaf m = s.leaf m := rfl
@[simp] theorem State.slots_setSeqr (v : Sequencer) : (s.setSeqr n v).slots m = s.slots m := rfl
@[simp] theorem State.panBnd_setSeqr (v : Sequencer) : (s.setSeqr n v).panBnd m = s.panBnd m := rfl
@[simp] theorem State.stackBnd_setSeqr (v : Sequencer) : (s.setSeqr n v).stackBnd m = s.stackBnd m := rfl
@[simp] theorem State.pending_setSeqr (v : Sequencer) : (s.setSeqr n v).pending = s.pending := rfl
@[simp] theorem State.refcnt_setSeqr (v : Sequencer) : (s.setSeqr n v).refcnt = s.refcnt := rfl
@[simp] theorem State.freeIx_setSeqr (v : Sequencer) : (s.setSeqr n v).freeIx = s.freeIx := rfl
@[simp] theorem State.mem_setSeqr (v : Sequencer) : (s.setSeqr n v).mem = s.mem := rfl
@[simp] theorem State.grn_setSeqr (v : Sequencer) : (s.setSeqr n v).grn = s.grn := rfl
@[simp] theorem State.fab_setSeqr (v : Sequencer) : (s.setSeqr n v).fab = s.fab := rfl
@[simp] theorem State.red_setSeqr (v : Sequencer) : (s.setSeqr n v).red = s.red := rfl
@[simp] theorem State.bnd_setSeqr (v : Sequencer) : (s.setSeqr n v).bnd = s.bnd := rfl
@[simp] theorem State.host_setSeqr (v : Sequencer) : (s.setSeqr n v).host = s.host := rfl
@[simp] theorem State.floor_setSeqr (v : Sequencer) : (s.setSeqr n v).floor = s.floor := rfl
@[simp] theorem State.flt_setSeqr (v : Sequencer) : (s.setSeqr n v).flt = s.flt := rfl
@[simp] theorem State.det_setSeqr (v : Sequencer) : (s.setSeqr n v).det = s.det := rfl
@[simp] theorem State.sec_setSeqr (v : Sequencer) : (s.setSeqr n v).sec = s.sec := rfl
@[simp] theorem State.boot_setSeqr (v : Sequencer) : (s.setSeqr n v).boot = s.boot := rfl
@[simp] theorem State.bist_setSeqr (v : Sequencer) : (s.setSeqr n v).bist = s.bist := rfl
@[simp] theorem State.glean_setSeqr (v : Sequencer) : (s.setSeqr n v).glean = s.glean := rfl
@[simp] theorem State.pwr_setSeqr (v : Sequencer) : (s.setSeqr n v).pwr = s.pwr := rfl
@[simp] theorem State.mgt_setSeqr (v : Sequencer) : (s.setSeqr n v).mgt = s.mgt := rfl
@[simp] theorem State.acc_setSeqr (v : Sequencer) : (s.setSeqr n v).acc = s.acc := rfl

/-! ### ctx -/

theorem State.ctx_setCtx (v : Ctx) : (s.setCtx n v).ctx m = if n = m then v else s.ctx m :=
  Tab.get_set _ _ _ _ _

@[simp] theorem State.ctx_setCtx_same (v : Ctx) : (s.setCtx n v).ctx n = v := Tab.get_set_same _ _ _ _

@[simp] theorem State.floret_setCtx (v : Ctx) : (s.setCtx n v).floret m = s.floret m := rfl
@[simp] theorem State.spk_setCtx (v : Ctx) : (s.setCtx n v).spk m = s.spk m := rfl
@[simp] theorem State.pan_setCtx (v : Ctx) : (s.setCtx n v).pan m = s.pan m := rfl
@[simp] theorem State.seqr_setCtx (v : Ctx) : (s.setCtx n v).seqr m = s.seqr m := rfl
@[simp] theorem State.queue_setCtx (v : Ctx) : (s.setCtx n v).queue m = s.queue m := rfl
@[simp] theorem State.stew_setCtx (v : Ctx) : (s.setCtx n v).stew m = s.stew m := rfl
@[simp] theorem State.stack_setCtx (v : Ctx) : (s.setCtx n v).stack m = s.stack m := rfl
@[simp] theorem State.panArb_setCtx (v : Ctx) : (s.setCtx n v).panArb m = s.panArb m := rfl
@[simp] theorem State.straw_setCtx (v : Ctx) : (s.setCtx n v).straw m = s.straw m := rfl
@[simp] theorem State.dir_setCtx (v : Ctx) : (s.setCtx n v).dir m = s.dir m := rfl
@[simp] theorem State.die_setCtx (v : Ctx) : (s.setCtx n v).die m = s.die m := rfl
@[simp] theorem State.sheaf_setCtx (v : Ctx) : (s.setCtx n v).sheaf m = s.sheaf m := rfl
@[simp] theorem State.ring_setCtx (v : Ctx) : (s.setCtx n v).ring m = s.ring m := rfl
@[simp] theorem State.dom_setCtx (v : Ctx) : (s.setCtx n v).dom m = s.dom m := rfl
@[simp] theorem State.zone_setCtx (v : Ctx) : (s.setCtx n v).zone m = s.zone m := rfl
@[simp] theorem State.comb_setCtx (v : Ctx) : (s.setCtx n v).comb m = s.comb m := rfl
@[simp] theorem State.leaf_setCtx (v : Ctx) : (s.setCtx n v).leaf m = s.leaf m := rfl
@[simp] theorem State.slots_setCtx (v : Ctx) : (s.setCtx n v).slots m = s.slots m := rfl
@[simp] theorem State.panBnd_setCtx (v : Ctx) : (s.setCtx n v).panBnd m = s.panBnd m := rfl
@[simp] theorem State.stackBnd_setCtx (v : Ctx) : (s.setCtx n v).stackBnd m = s.stackBnd m := rfl
@[simp] theorem State.pending_setCtx (v : Ctx) : (s.setCtx n v).pending = s.pending := rfl
@[simp] theorem State.refcnt_setCtx (v : Ctx) : (s.setCtx n v).refcnt = s.refcnt := rfl
@[simp] theorem State.freeIx_setCtx (v : Ctx) : (s.setCtx n v).freeIx = s.freeIx := rfl
@[simp] theorem State.cores_setCtx (v : Ctx) : (s.setCtx n v).cores = s.cores := rfl
@[simp] theorem State.mem_setCtx (v : Ctx) : (s.setCtx n v).mem = s.mem := rfl
@[simp] theorem State.grn_setCtx (v : Ctx) : (s.setCtx n v).grn = s.grn := rfl
@[simp] theorem State.fab_setCtx (v : Ctx) : (s.setCtx n v).fab = s.fab := rfl
@[simp] theorem State.red_setCtx (v : Ctx) : (s.setCtx n v).red = s.red := rfl
@[simp] theorem State.bnd_setCtx (v : Ctx) : (s.setCtx n v).bnd = s.bnd := rfl
@[simp] theorem State.floor_setCtx (v : Ctx) : (s.setCtx n v).floor = s.floor := rfl
@[simp] theorem State.flt_setCtx (v : Ctx) : (s.setCtx n v).flt = s.flt := rfl
@[simp] theorem State.det_setCtx (v : Ctx) : (s.setCtx n v).det = s.det := rfl
@[simp] theorem State.sec_setCtx (v : Ctx) : (s.setCtx n v).sec = s.sec := rfl
@[simp] theorem State.boot_setCtx (v : Ctx) : (s.setCtx n v).boot = s.boot := rfl
@[simp] theorem State.bist_setCtx (v : Ctx) : (s.setCtx n v).bist = s.bist := rfl
@[simp] theorem State.glean_setCtx (v : Ctx) : (s.setCtx n v).glean = s.glean := rfl
@[simp] theorem State.pwr_setCtx (v : Ctx) : (s.setCtx n v).pwr = s.pwr := rfl
@[simp] theorem State.mgt_setCtx (v : Ctx) : (s.setCtx n v).mgt = s.mgt := rfl
@[simp] theorem State.acc_setCtx (v : Ctx) : (s.setCtx n v).acc = s.acc := rfl

/-! ### queue -/

theorem State.queue_setQueue (v : Queue) : (s.setQueue n v).queue m = if n = m then v else s.queue m :=
  Tab.get_set _ _ _ _ _

@[simp] theorem State.queue_setQueue_same (v : Queue) : (s.setQueue n v).queue n = v := Tab.get_set_same _ _ _ _

@[simp] theorem State.floret_setQueue (v : Queue) : (s.setQueue n v).floret m = s.floret m := rfl
@[simp] theorem State.spk_setQueue (v : Queue) : (s.setQueue n v).spk m = s.spk m := rfl
@[simp] theorem State.pan_setQueue (v : Queue) : (s.setQueue n v).pan m = s.pan m := rfl
@[simp] theorem State.seqr_setQueue (v : Queue) : (s.setQueue n v).seqr m = s.seqr m := rfl
@[simp] theorem State.ctx_setQueue (v : Queue) : (s.setQueue n v).ctx m = s.ctx m := rfl
@[simp] theorem State.stew_setQueue (v : Queue) : (s.setQueue n v).stew m = s.stew m := rfl
@[simp] theorem State.stack_setQueue (v : Queue) : (s.setQueue n v).stack m = s.stack m := rfl
@[simp] theorem State.panArb_setQueue (v : Queue) : (s.setQueue n v).panArb m = s.panArb m := rfl
@[simp] theorem State.straw_setQueue (v : Queue) : (s.setQueue n v).straw m = s.straw m := rfl
@[simp] theorem State.dir_setQueue (v : Queue) : (s.setQueue n v).dir m = s.dir m := rfl
@[simp] theorem State.die_setQueue (v : Queue) : (s.setQueue n v).die m = s.die m := rfl
@[simp] theorem State.sheaf_setQueue (v : Queue) : (s.setQueue n v).sheaf m = s.sheaf m := rfl
@[simp] theorem State.ring_setQueue (v : Queue) : (s.setQueue n v).ring m = s.ring m := rfl
@[simp] theorem State.dom_setQueue (v : Queue) : (s.setQueue n v).dom m = s.dom m := rfl
@[simp] theorem State.zone_setQueue (v : Queue) : (s.setQueue n v).zone m = s.zone m := rfl
@[simp] theorem State.comb_setQueue (v : Queue) : (s.setQueue n v).comb m = s.comb m := rfl
@[simp] theorem State.leaf_setQueue (v : Queue) : (s.setQueue n v).leaf m = s.leaf m := rfl
@[simp] theorem State.slots_setQueue (v : Queue) : (s.setQueue n v).slots m = s.slots m := rfl
@[simp] theorem State.panBnd_setQueue (v : Queue) : (s.setQueue n v).panBnd m = s.panBnd m := rfl
@[simp] theorem State.stackBnd_setQueue (v : Queue) : (s.setQueue n v).stackBnd m = s.stackBnd m := rfl
@[simp] theorem State.pending_setQueue (v : Queue) : (s.setQueue n v).pending = s.pending := rfl
@[simp] theorem State.refcnt_setQueue (v : Queue) : (s.setQueue n v).refcnt = s.refcnt := rfl
@[simp] theorem State.freeIx_setQueue (v : Queue) : (s.setQueue n v).freeIx = s.freeIx := rfl
@[simp] theorem State.cores_setQueue (v : Queue) : (s.setQueue n v).cores = s.cores := rfl
@[simp] theorem State.mem_setQueue (v : Queue) : (s.setQueue n v).mem = s.mem := rfl
@[simp] theorem State.grn_setQueue (v : Queue) : (s.setQueue n v).grn = s.grn := rfl
@[simp] theorem State.fab_setQueue (v : Queue) : (s.setQueue n v).fab = s.fab := rfl
@[simp] theorem State.red_setQueue (v : Queue) : (s.setQueue n v).red = s.red := rfl
@[simp] theorem State.bnd_setQueue (v : Queue) : (s.setQueue n v).bnd = s.bnd := rfl
@[simp] theorem State.floor_setQueue (v : Queue) : (s.setQueue n v).floor = s.floor := rfl
@[simp] theorem State.flt_setQueue (v : Queue) : (s.setQueue n v).flt = s.flt := rfl
@[simp] theorem State.det_setQueue (v : Queue) : (s.setQueue n v).det = s.det := rfl
@[simp] theorem State.sec_setQueue (v : Queue) : (s.setQueue n v).sec = s.sec := rfl
@[simp] theorem State.boot_setQueue (v : Queue) : (s.setQueue n v).boot = s.boot := rfl
@[simp] theorem State.bist_setQueue (v : Queue) : (s.setQueue n v).bist = s.bist := rfl
@[simp] theorem State.glean_setQueue (v : Queue) : (s.setQueue n v).glean = s.glean := rfl
@[simp] theorem State.pwr_setQueue (v : Queue) : (s.setQueue n v).pwr = s.pwr := rfl
@[simp] theorem State.mgt_setQueue (v : Queue) : (s.setQueue n v).mgt = s.mgt := rfl
@[simp] theorem State.acc_setQueue (v : Queue) : (s.setQueue n v).acc = s.acc := rfl

/-! ### stew -/

theorem State.stew_setStew (v : Steward) : (s.setStew n v).stew m = if n = m then v else s.stew m :=
  Tab.get_set _ _ _ _ _

@[simp] theorem State.stew_setStew_same (v : Steward) : (s.setStew n v).stew n = v := Tab.get_set_same _ _ _ _

@[simp] theorem State.floret_setStew (v : Steward) : (s.setStew n v).floret m = s.floret m := rfl
@[simp] theorem State.spk_setStew (v : Steward) : (s.setStew n v).spk m = s.spk m := rfl
@[simp] theorem State.pan_setStew (v : Steward) : (s.setStew n v).pan m = s.pan m := rfl
@[simp] theorem State.seqr_setStew (v : Steward) : (s.setStew n v).seqr m = s.seqr m := rfl
@[simp] theorem State.ctx_setStew (v : Steward) : (s.setStew n v).ctx m = s.ctx m := rfl
@[simp] theorem State.queue_setStew (v : Steward) : (s.setStew n v).queue m = s.queue m := rfl
@[simp] theorem State.stack_setStew (v : Steward) : (s.setStew n v).stack m = s.stack m := rfl
@[simp] theorem State.panArb_setStew (v : Steward) : (s.setStew n v).panArb m = s.panArb m := rfl
@[simp] theorem State.straw_setStew (v : Steward) : (s.setStew n v).straw m = s.straw m := rfl
@[simp] theorem State.dir_setStew (v : Steward) : (s.setStew n v).dir m = s.dir m := rfl
@[simp] theorem State.die_setStew (v : Steward) : (s.setStew n v).die m = s.die m := rfl
@[simp] theorem State.sheaf_setStew (v : Steward) : (s.setStew n v).sheaf m = s.sheaf m := rfl
@[simp] theorem State.ring_setStew (v : Steward) : (s.setStew n v).ring m = s.ring m := rfl
@[simp] theorem State.dom_setStew (v : Steward) : (s.setStew n v).dom m = s.dom m := rfl
@[simp] theorem State.zone_setStew (v : Steward) : (s.setStew n v).zone m = s.zone m := rfl
@[simp] theorem State.comb_setStew (v : Steward) : (s.setStew n v).comb m = s.comb m := rfl
@[simp] theorem State.leaf_setStew (v : Steward) : (s.setStew n v).leaf m = s.leaf m := rfl
@[simp] theorem State.slots_setStew (v : Steward) : (s.setStew n v).slots m = s.slots m := rfl
@[simp] theorem State.panBnd_setStew (v : Steward) : (s.setStew n v).panBnd m = s.panBnd m := rfl
@[simp] theorem State.stackBnd_setStew (v : Steward) : (s.setStew n v).stackBnd m = s.stackBnd m := rfl
@[simp] theorem State.pending_setStew (v : Steward) : (s.setStew n v).pending = s.pending := rfl
@[simp] theorem State.refcnt_setStew (v : Steward) : (s.setStew n v).refcnt = s.refcnt := rfl
@[simp] theorem State.freeIx_setStew (v : Steward) : (s.setStew n v).freeIx = s.freeIx := rfl
@[simp] theorem State.cores_setStew (v : Steward) : (s.setStew n v).cores = s.cores := rfl
@[simp] theorem State.mem_setStew (v : Steward) : (s.setStew n v).mem = s.mem := rfl
@[simp] theorem State.grn_setStew (v : Steward) : (s.setStew n v).grn = s.grn := rfl
@[simp] theorem State.fab_setStew (v : Steward) : (s.setStew n v).fab = s.fab := rfl
@[simp] theorem State.red_setStew (v : Steward) : (s.setStew n v).red = s.red := rfl
@[simp] theorem State.bnd_setStew (v : Steward) : (s.setStew n v).bnd = s.bnd := rfl
@[simp] theorem State.floor_setStew (v : Steward) : (s.setStew n v).floor = s.floor := rfl
@[simp] theorem State.flt_setStew (v : Steward) : (s.setStew n v).flt = s.flt := rfl
@[simp] theorem State.det_setStew (v : Steward) : (s.setStew n v).det = s.det := rfl
@[simp] theorem State.sec_setStew (v : Steward) : (s.setStew n v).sec = s.sec := rfl
@[simp] theorem State.boot_setStew (v : Steward) : (s.setStew n v).boot = s.boot := rfl
@[simp] theorem State.bist_setStew (v : Steward) : (s.setStew n v).bist = s.bist := rfl
@[simp] theorem State.glean_setStew (v : Steward) : (s.setStew n v).glean = s.glean := rfl
@[simp] theorem State.pwr_setStew (v : Steward) : (s.setStew n v).pwr = s.pwr := rfl
@[simp] theorem State.mgt_setStew (v : Steward) : (s.setStew n v).mgt = s.mgt := rfl
@[simp] theorem State.acc_setStew (v : Steward) : (s.setStew n v).acc = s.acc := rfl

/-! ### stack -/

theorem State.stack_setStack (v : Stack) : (s.setStack n v).stack m = if n = m then v else s.stack m :=
  Tab.get_set _ _ _ _ _

@[simp] theorem State.stack_setStack_same (v : Stack) : (s.setStack n v).stack n = v := Tab.get_set_same _ _ _ _

@[simp] theorem State.floret_setStack (v : Stack) : (s.setStack n v).floret m = s.floret m := rfl
@[simp] theorem State.spk_setStack (v : Stack) : (s.setStack n v).spk m = s.spk m := rfl
@[simp] theorem State.pan_setStack (v : Stack) : (s.setStack n v).pan m = s.pan m := rfl
@[simp] theorem State.seqr_setStack (v : Stack) : (s.setStack n v).seqr m = s.seqr m := rfl
@[simp] theorem State.ctx_setStack (v : Stack) : (s.setStack n v).ctx m = s.ctx m := rfl
@[simp] theorem State.queue_setStack (v : Stack) : (s.setStack n v).queue m = s.queue m := rfl
@[simp] theorem State.stew_setStack (v : Stack) : (s.setStack n v).stew m = s.stew m := rfl
@[simp] theorem State.panArb_setStack (v : Stack) : (s.setStack n v).panArb m = s.panArb m := rfl
@[simp] theorem State.straw_setStack (v : Stack) : (s.setStack n v).straw m = s.straw m := rfl
@[simp] theorem State.dir_setStack (v : Stack) : (s.setStack n v).dir m = s.dir m := rfl
@[simp] theorem State.die_setStack (v : Stack) : (s.setStack n v).die m = s.die m := rfl
@[simp] theorem State.sheaf_setStack (v : Stack) : (s.setStack n v).sheaf m = s.sheaf m := rfl
@[simp] theorem State.ring_setStack (v : Stack) : (s.setStack n v).ring m = s.ring m := rfl
@[simp] theorem State.dom_setStack (v : Stack) : (s.setStack n v).dom m = s.dom m := rfl
@[simp] theorem State.zone_setStack (v : Stack) : (s.setStack n v).zone m = s.zone m := rfl
@[simp] theorem State.comb_setStack (v : Stack) : (s.setStack n v).comb m = s.comb m := rfl
@[simp] theorem State.leaf_setStack (v : Stack) : (s.setStack n v).leaf m = s.leaf m := rfl
@[simp] theorem State.slots_setStack (v : Stack) : (s.setStack n v).slots m = s.slots m := rfl
@[simp] theorem State.panBnd_setStack (v : Stack) : (s.setStack n v).panBnd m = s.panBnd m := rfl
@[simp] theorem State.stackBnd_setStack (v : Stack) : (s.setStack n v).stackBnd m = s.stackBnd m := rfl
@[simp] theorem State.pending_setStack (v : Stack) : (s.setStack n v).pending = s.pending := rfl
@[simp] theorem State.refcnt_setStack (v : Stack) : (s.setStack n v).refcnt = s.refcnt := rfl
@[simp] theorem State.freeIx_setStack (v : Stack) : (s.setStack n v).freeIx = s.freeIx := rfl
@[simp] theorem State.cores_setStack (v : Stack) : (s.setStack n v).cores = s.cores := rfl
@[simp] theorem State.mem_setStack (v : Stack) : (s.setStack n v).mem = s.mem := rfl
@[simp] theorem State.fab_setStack (v : Stack) : (s.setStack n v).fab = s.fab := rfl
@[simp] theorem State.red_setStack (v : Stack) : (s.setStack n v).red = s.red := rfl
@[simp] theorem State.bnd_setStack (v : Stack) : (s.setStack n v).bnd = s.bnd := rfl
@[simp] theorem State.host_setStack (v : Stack) : (s.setStack n v).host = s.host := rfl
@[simp] theorem State.floor_setStack (v : Stack) : (s.setStack n v).floor = s.floor := rfl
@[simp] theorem State.flt_setStack (v : Stack) : (s.setStack n v).flt = s.flt := rfl
@[simp] theorem State.det_setStack (v : Stack) : (s.setStack n v).det = s.det := rfl
@[simp] theorem State.sec_setStack (v : Stack) : (s.setStack n v).sec = s.sec := rfl
@[simp] theorem State.boot_setStack (v : Stack) : (s.setStack n v).boot = s.boot := rfl
@[simp] theorem State.bist_setStack (v : Stack) : (s.setStack n v).bist = s.bist := rfl
@[simp] theorem State.glean_setStack (v : Stack) : (s.setStack n v).glean = s.glean := rfl
@[simp] theorem State.pwr_setStack (v : Stack) : (s.setStack n v).pwr = s.pwr := rfl
@[simp] theorem State.mgt_setStack (v : Stack) : (s.setStack n v).mgt = s.mgt := rfl
@[simp] theorem State.acc_setStack (v : Stack) : (s.setStack n v).acc = s.acc := rfl

/-! ### panArb -/

theorem State.panArb_setPanArb (v : PanArb) : (s.setPanArb n v).panArb m = if n = m then v else s.panArb m :=
  Tab.get_set _ _ _ _ _

@[simp] theorem State.panArb_setPanArb_same (v : PanArb) : (s.setPanArb n v).panArb n = v := Tab.get_set_same _ _ _ _

@[simp] theorem State.floret_setPanArb (v : PanArb) : (s.setPanArb n v).floret m = s.floret m := rfl
@[simp] theorem State.spk_setPanArb (v : PanArb) : (s.setPanArb n v).spk m = s.spk m := rfl
@[simp] theorem State.pan_setPanArb (v : PanArb) : (s.setPanArb n v).pan m = s.pan m := rfl
@[simp] theorem State.seqr_setPanArb (v : PanArb) : (s.setPanArb n v).seqr m = s.seqr m := rfl
@[simp] theorem State.ctx_setPanArb (v : PanArb) : (s.setPanArb n v).ctx m = s.ctx m := rfl
@[simp] theorem State.queue_setPanArb (v : PanArb) : (s.setPanArb n v).queue m = s.queue m := rfl
@[simp] theorem State.stew_setPanArb (v : PanArb) : (s.setPanArb n v).stew m = s.stew m := rfl
@[simp] theorem State.stack_setPanArb (v : PanArb) : (s.setPanArb n v).stack m = s.stack m := rfl
@[simp] theorem State.straw_setPanArb (v : PanArb) : (s.setPanArb n v).straw m = s.straw m := rfl
@[simp] theorem State.dir_setPanArb (v : PanArb) : (s.setPanArb n v).dir m = s.dir m := rfl
@[simp] theorem State.die_setPanArb (v : PanArb) : (s.setPanArb n v).die m = s.die m := rfl
@[simp] theorem State.sheaf_setPanArb (v : PanArb) : (s.setPanArb n v).sheaf m = s.sheaf m := rfl
@[simp] theorem State.ring_setPanArb (v : PanArb) : (s.setPanArb n v).ring m = s.ring m := rfl
@[simp] theorem State.dom_setPanArb (v : PanArb) : (s.setPanArb n v).dom m = s.dom m := rfl
@[simp] theorem State.zone_setPanArb (v : PanArb) : (s.setPanArb n v).zone m = s.zone m := rfl
@[simp] theorem State.comb_setPanArb (v : PanArb) : (s.setPanArb n v).comb m = s.comb m := rfl
@[simp] theorem State.leaf_setPanArb (v : PanArb) : (s.setPanArb n v).leaf m = s.leaf m := rfl
@[simp] theorem State.slots_setPanArb (v : PanArb) : (s.setPanArb n v).slots m = s.slots m := rfl
@[simp] theorem State.panBnd_setPanArb (v : PanArb) : (s.setPanArb n v).panBnd m = s.panBnd m := rfl
@[simp] theorem State.stackBnd_setPanArb (v : PanArb) : (s.setPanArb n v).stackBnd m = s.stackBnd m := rfl
@[simp] theorem State.pending_setPanArb (v : PanArb) : (s.setPanArb n v).pending = s.pending := rfl
@[simp] theorem State.refcnt_setPanArb (v : PanArb) : (s.setPanArb n v).refcnt = s.refcnt := rfl
@[simp] theorem State.freeIx_setPanArb (v : PanArb) : (s.setPanArb n v).freeIx = s.freeIx := rfl
@[simp] theorem State.cores_setPanArb (v : PanArb) : (s.setPanArb n v).cores = s.cores := rfl
@[simp] theorem State.mem_setPanArb (v : PanArb) : (s.setPanArb n v).mem = s.mem := rfl
@[simp] theorem State.grn_setPanArb (v : PanArb) : (s.setPanArb n v).grn = s.grn := rfl
@[simp] theorem State.red_setPanArb (v : PanArb) : (s.setPanArb n v).red = s.red := rfl
@[simp] theorem State.bnd_setPanArb (v : PanArb) : (s.setPanArb n v).bnd = s.bnd := rfl
@[simp] theorem State.host_setPanArb (v : PanArb) : (s.setPanArb n v).host = s.host := rfl
@[simp] theorem State.floor_setPanArb (v : PanArb) : (s.setPanArb n v).floor = s.floor := rfl
@[simp] theorem State.flt_setPanArb (v : PanArb) : (s.setPanArb n v).flt = s.flt := rfl
@[simp] theorem State.det_setPanArb (v : PanArb) : (s.setPanArb n v).det = s.det := rfl
@[simp] theorem State.sec_setPanArb (v : PanArb) : (s.setPanArb n v).sec = s.sec := rfl
@[simp] theorem State.boot_setPanArb (v : PanArb) : (s.setPanArb n v).boot = s.boot := rfl
@[simp] theorem State.bist_setPanArb (v : PanArb) : (s.setPanArb n v).bist = s.bist := rfl
@[simp] theorem State.glean_setPanArb (v : PanArb) : (s.setPanArb n v).glean = s.glean := rfl
@[simp] theorem State.pwr_setPanArb (v : PanArb) : (s.setPanArb n v).pwr = s.pwr := rfl
@[simp] theorem State.mgt_setPanArb (v : PanArb) : (s.setPanArb n v).mgt = s.mgt := rfl
@[simp] theorem State.acc_setPanArb (v : PanArb) : (s.setPanArb n v).acc = s.acc := rfl

/-! ### straw -/

theorem State.straw_setStraw (v : Straw) : (s.setStraw n v).straw m = if n = m then v else s.straw m :=
  Tab.get_set _ _ _ _ _

@[simp] theorem State.straw_setStraw_same (v : Straw) : (s.setStraw n v).straw n = v := Tab.get_set_same _ _ _ _

@[simp] theorem State.floret_setStraw (v : Straw) : (s.setStraw n v).floret m = s.floret m := rfl
@[simp] theorem State.spk_setStraw (v : Straw) : (s.setStraw n v).spk m = s.spk m := rfl
@[simp] theorem State.pan_setStraw (v : Straw) : (s.setStraw n v).pan m = s.pan m := rfl
@[simp] theorem State.seqr_setStraw (v : Straw) : (s.setStraw n v).seqr m = s.seqr m := rfl
@[simp] theorem State.ctx_setStraw (v : Straw) : (s.setStraw n v).ctx m = s.ctx m := rfl
@[simp] theorem State.queue_setStraw (v : Straw) : (s.setStraw n v).queue m = s.queue m := rfl
@[simp] theorem State.stew_setStraw (v : Straw) : (s.setStraw n v).stew m = s.stew m := rfl
@[simp] theorem State.stack_setStraw (v : Straw) : (s.setStraw n v).stack m = s.stack m := rfl
@[simp] theorem State.panArb_setStraw (v : Straw) : (s.setStraw n v).panArb m = s.panArb m := rfl
@[simp] theorem State.dir_setStraw (v : Straw) : (s.setStraw n v).dir m = s.dir m := rfl
@[simp] theorem State.die_setStraw (v : Straw) : (s.setStraw n v).die m = s.die m := rfl
@[simp] theorem State.sheaf_setStraw (v : Straw) : (s.setStraw n v).sheaf m = s.sheaf m := rfl
@[simp] theorem State.ring_setStraw (v : Straw) : (s.setStraw n v).ring m = s.ring m := rfl
@[simp] theorem State.dom_setStraw (v : Straw) : (s.setStraw n v).dom m = s.dom m := rfl
@[simp] theorem State.zone_setStraw (v : Straw) : (s.setStraw n v).zone m = s.zone m := rfl
@[simp] theorem State.comb_setStraw (v : Straw) : (s.setStraw n v).comb m = s.comb m := rfl
@[simp] theorem State.leaf_setStraw (v : Straw) : (s.setStraw n v).leaf m = s.leaf m := rfl
@[simp] theorem State.slots_setStraw (v : Straw) : (s.setStraw n v).slots m = s.slots m := rfl
@[simp] theorem State.panBnd_setStraw (v : Straw) : (s.setStraw n v).panBnd m = s.panBnd m := rfl
@[simp] theorem State.stackBnd_setStraw (v : Straw) : (s.setStraw n v).stackBnd m = s.stackBnd m := rfl
@[simp] theorem State.pending_setStraw (v : Straw) : (s.setStraw n v).pending = s.pending := rfl
@[simp] theorem State.refcnt_setStraw (v : Straw) : (s.setStraw n v).refcnt = s.refcnt := rfl
@[simp] theorem State.freeIx_setStraw (v : Straw) : (s.setStraw n v).freeIx = s.freeIx := rfl
@[simp] theorem State.cores_setStraw (v : Straw) : (s.setStraw n v).cores = s.cores := rfl
@[simp] theorem State.mem_setStraw (v : Straw) : (s.setStraw n v).mem = s.mem := rfl
@[simp] theorem State.grn_setStraw (v : Straw) : (s.setStraw n v).grn = s.grn := rfl
@[simp] theorem State.red_setStraw (v : Straw) : (s.setStraw n v).red = s.red := rfl
@[simp] theorem State.bnd_setStraw (v : Straw) : (s.setStraw n v).bnd = s.bnd := rfl
@[simp] theorem State.host_setStraw (v : Straw) : (s.setStraw n v).host = s.host := rfl
@[simp] theorem State.floor_setStraw (v : Straw) : (s.setStraw n v).floor = s.floor := rfl
@[simp] theorem State.flt_setStraw (v : Straw) : (s.setStraw n v).flt = s.flt := rfl
@[simp] theorem State.det_setStraw (v : Straw) : (s.setStraw n v).det = s.det := rfl
@[simp] theorem State.sec_setStraw (v : Straw) : (s.setStraw n v).sec = s.sec := rfl
@[simp] theorem State.boot_setStraw (v : Straw) : (s.setStraw n v).boot = s.boot := rfl
@[simp] theorem State.bist_setStraw (v : Straw) : (s.setStraw n v).bist = s.bist := rfl
@[simp] theorem State.glean_setStraw (v : Straw) : (s.setStraw n v).glean = s.glean := rfl
@[simp] theorem State.pwr_setStraw (v : Straw) : (s.setStraw n v).pwr = s.pwr := rfl
@[simp] theorem State.mgt_setStraw (v : Straw) : (s.setStraw n v).mgt = s.mgt := rfl
@[simp] theorem State.acc_setStraw (v : Straw) : (s.setStraw n v).acc = s.acc := rfl

/-! ### dir -/

theorem State.dir_setDir (v : BDir) : (s.setDir n v).dir m = if n = m then v else s.dir m :=
  Tab.get_set _ _ _ _ _

@[simp] theorem State.dir_setDir_same (v : BDir) : (s.setDir n v).dir n = v := Tab.get_set_same _ _ _ _

@[simp] theorem State.floret_setDir (v : BDir) : (s.setDir n v).floret m = s.floret m := rfl
@[simp] theorem State.spk_setDir (v : BDir) : (s.setDir n v).spk m = s.spk m := rfl
@[simp] theorem State.pan_setDir (v : BDir) : (s.setDir n v).pan m = s.pan m := rfl
@[simp] theorem State.seqr_setDir (v : BDir) : (s.setDir n v).seqr m = s.seqr m := rfl
@[simp] theorem State.ctx_setDir (v : BDir) : (s.setDir n v).ctx m = s.ctx m := rfl
@[simp] theorem State.queue_setDir (v : BDir) : (s.setDir n v).queue m = s.queue m := rfl
@[simp] theorem State.stew_setDir (v : BDir) : (s.setDir n v).stew m = s.stew m := rfl
@[simp] theorem State.stack_setDir (v : BDir) : (s.setDir n v).stack m = s.stack m := rfl
@[simp] theorem State.panArb_setDir (v : BDir) : (s.setDir n v).panArb m = s.panArb m := rfl
@[simp] theorem State.straw_setDir (v : BDir) : (s.setDir n v).straw m = s.straw m := rfl
@[simp] theorem State.die_setDir (v : BDir) : (s.setDir n v).die m = s.die m := rfl
@[simp] theorem State.sheaf_setDir (v : BDir) : (s.setDir n v).sheaf m = s.sheaf m := rfl
@[simp] theorem State.ring_setDir (v : BDir) : (s.setDir n v).ring m = s.ring m := rfl
@[simp] theorem State.dom_setDir (v : BDir) : (s.setDir n v).dom m = s.dom m := rfl
@[simp] theorem State.zone_setDir (v : BDir) : (s.setDir n v).zone m = s.zone m := rfl
@[simp] theorem State.comb_setDir (v : BDir) : (s.setDir n v).comb m = s.comb m := rfl
@[simp] theorem State.leaf_setDir (v : BDir) : (s.setDir n v).leaf m = s.leaf m := rfl
@[simp] theorem State.slots_setDir (v : BDir) : (s.setDir n v).slots m = s.slots m := rfl
@[simp] theorem State.panBnd_setDir (v : BDir) : (s.setDir n v).panBnd m = s.panBnd m := rfl
@[simp] theorem State.stackBnd_setDir (v : BDir) : (s.setDir n v).stackBnd m = s.stackBnd m := rfl
@[simp] theorem State.pending_setDir (v : BDir) : (s.setDir n v).pending = s.pending := rfl
@[simp] theorem State.refcnt_setDir (v : BDir) : (s.setDir n v).refcnt = s.refcnt := rfl
@[simp] theorem State.freeIx_setDir (v : BDir) : (s.setDir n v).freeIx = s.freeIx := rfl
@[simp] theorem State.cores_setDir (v : BDir) : (s.setDir n v).cores = s.cores := rfl
@[simp] theorem State.mem_setDir (v : BDir) : (s.setDir n v).mem = s.mem := rfl
@[simp] theorem State.grn_setDir (v : BDir) : (s.setDir n v).grn = s.grn := rfl
@[simp] theorem State.red_setDir (v : BDir) : (s.setDir n v).red = s.red := rfl
@[simp] theorem State.bnd_setDir (v : BDir) : (s.setDir n v).bnd = s.bnd := rfl
@[simp] theorem State.host_setDir (v : BDir) : (s.setDir n v).host = s.host := rfl
@[simp] theorem State.floor_setDir (v : BDir) : (s.setDir n v).floor = s.floor := rfl
@[simp] theorem State.flt_setDir (v : BDir) : (s.setDir n v).flt = s.flt := rfl
@[simp] theorem State.det_setDir (v : BDir) : (s.setDir n v).det = s.det := rfl
@[simp] theorem State.sec_setDir (v : BDir) : (s.setDir n v).sec = s.sec := rfl
@[simp] theorem State.boot_setDir (v : BDir) : (s.setDir n v).boot = s.boot := rfl
@[simp] theorem State.bist_setDir (v : BDir) : (s.setDir n v).bist = s.bist := rfl
@[simp] theorem State.glean_setDir (v : BDir) : (s.setDir n v).glean = s.glean := rfl
@[simp] theorem State.pwr_setDir (v : BDir) : (s.setDir n v).pwr = s.pwr := rfl
@[simp] theorem State.mgt_setDir (v : BDir) : (s.setDir n v).mgt = s.mgt := rfl
@[simp] theorem State.acc_setDir (v : BDir) : (s.setDir n v).acc = s.acc := rfl

/-! ### die -/

theorem State.die_setDie (v : DieRoute) : (s.setDie n v).die m = if n = m then v else s.die m :=
  Tab.get_set _ _ _ _ _

@[simp] theorem State.die_setDie_same (v : DieRoute) : (s.setDie n v).die n = v := Tab.get_set_same _ _ _ _

@[simp] theorem State.floret_setDie (v : DieRoute) : (s.setDie n v).floret m = s.floret m := rfl
@[simp] theorem State.spk_setDie (v : DieRoute) : (s.setDie n v).spk m = s.spk m := rfl
@[simp] theorem State.pan_setDie (v : DieRoute) : (s.setDie n v).pan m = s.pan m := rfl
@[simp] theorem State.seqr_setDie (v : DieRoute) : (s.setDie n v).seqr m = s.seqr m := rfl
@[simp] theorem State.ctx_setDie (v : DieRoute) : (s.setDie n v).ctx m = s.ctx m := rfl
@[simp] theorem State.queue_setDie (v : DieRoute) : (s.setDie n v).queue m = s.queue m := rfl
@[simp] theorem State.stew_setDie (v : DieRoute) : (s.setDie n v).stew m = s.stew m := rfl
@[simp] theorem State.stack_setDie (v : DieRoute) : (s.setDie n v).stack m = s.stack m := rfl
@[simp] theorem State.panArb_setDie (v : DieRoute) : (s.setDie n v).panArb m = s.panArb m := rfl
@[simp] theorem State.straw_setDie (v : DieRoute) : (s.setDie n v).straw m = s.straw m := rfl
@[simp] theorem State.dir_setDie (v : DieRoute) : (s.setDie n v).dir m = s.dir m := rfl
@[simp] theorem State.sheaf_setDie (v : DieRoute) : (s.setDie n v).sheaf m = s.sheaf m := rfl
@[simp] theorem State.ring_setDie (v : DieRoute) : (s.setDie n v).ring m = s.ring m := rfl
@[simp] theorem State.dom_setDie (v : DieRoute) : (s.setDie n v).dom m = s.dom m := rfl
@[simp] theorem State.zone_setDie (v : DieRoute) : (s.setDie n v).zone m = s.zone m := rfl
@[simp] theorem State.comb_setDie (v : DieRoute) : (s.setDie n v).comb m = s.comb m := rfl
@[simp] theorem State.leaf_setDie (v : DieRoute) : (s.setDie n v).leaf m = s.leaf m := rfl
@[simp] theorem State.slots_setDie (v : DieRoute) : (s.setDie n v).slots m = s.slots m := rfl
@[simp] theorem State.panBnd_setDie (v : DieRoute) : (s.setDie n v).panBnd m = s.panBnd m := rfl
@[simp] theorem State.stackBnd_setDie (v : DieRoute) : (s.setDie n v).stackBnd m = s.stackBnd m := rfl
@[simp] theorem State.pending_setDie (v : DieRoute) : (s.setDie n v).pending = s.pending := rfl
@[simp] theorem State.refcnt_setDie (v : DieRoute) : (s.setDie n v).refcnt = s.refcnt := rfl
@[simp] theorem State.freeIx_setDie (v : DieRoute) : (s.setDie n v).freeIx = s.freeIx := rfl
@[simp] theorem State.cores_setDie (v : DieRoute) : (s.setDie n v).cores = s.cores := rfl
@[simp] theorem State.mem_setDie (v : DieRoute) : (s.setDie n v).mem = s.mem := rfl
@[simp] theorem State.grn_setDie (v : DieRoute) : (s.setDie n v).grn = s.grn := rfl
@[simp] theorem State.red_setDie (v : DieRoute) : (s.setDie n v).red = s.red := rfl
@[simp] theorem State.bnd_setDie (v : DieRoute) : (s.setDie n v).bnd = s.bnd := rfl
@[simp] theorem State.host_setDie (v : DieRoute) : (s.setDie n v).host = s.host := rfl
@[simp] theorem State.floor_setDie (v : DieRoute) : (s.setDie n v).floor = s.floor := rfl
@[simp] theorem State.flt_setDie (v : DieRoute) : (s.setDie n v).flt = s.flt := rfl
@[simp] theorem State.det_setDie (v : DieRoute) : (s.setDie n v).det = s.det := rfl
@[simp] theorem State.sec_setDie (v : DieRoute) : (s.setDie n v).sec = s.sec := rfl
@[simp] theorem State.boot_setDie (v : DieRoute) : (s.setDie n v).boot = s.boot := rfl
@[simp] theorem State.bist_setDie (v : DieRoute) : (s.setDie n v).bist = s.bist := rfl
@[simp] theorem State.glean_setDie (v : DieRoute) : (s.setDie n v).glean = s.glean := rfl
@[simp] theorem State.pwr_setDie (v : DieRoute) : (s.setDie n v).pwr = s.pwr := rfl
@[simp] theorem State.mgt_setDie (v : DieRoute) : (s.setDie n v).mgt = s.mgt := rfl
@[simp] theorem State.acc_setDie (v : DieRoute) : (s.setDie n v).acc = s.acc := rfl

/-! ### sheaf -/

theorem State.sheaf_setSheaf (v : Sheaf) : (s.setSheaf n v).sheaf m = if n = m then v else s.sheaf m :=
  Tab.get_set _ _ _ _ _

@[simp] theorem State.sheaf_setSheaf_same (v : Sheaf) : (s.setSheaf n v).sheaf n = v := Tab.get_set_same _ _ _ _

@[simp] theorem State.floret_setSheaf (v : Sheaf) : (s.setSheaf n v).floret m = s.floret m := rfl
@[simp] theorem State.spk_setSheaf (v : Sheaf) : (s.setSheaf n v).spk m = s.spk m := rfl
@[simp] theorem State.pan_setSheaf (v : Sheaf) : (s.setSheaf n v).pan m = s.pan m := rfl
@[simp] theorem State.seqr_setSheaf (v : Sheaf) : (s.setSheaf n v).seqr m = s.seqr m := rfl
@[simp] theorem State.ctx_setSheaf (v : Sheaf) : (s.setSheaf n v).ctx m = s.ctx m := rfl
@[simp] theorem State.queue_setSheaf (v : Sheaf) : (s.setSheaf n v).queue m = s.queue m := rfl
@[simp] theorem State.stew_setSheaf (v : Sheaf) : (s.setSheaf n v).stew m = s.stew m := rfl
@[simp] theorem State.stack_setSheaf (v : Sheaf) : (s.setSheaf n v).stack m = s.stack m := rfl
@[simp] theorem State.panArb_setSheaf (v : Sheaf) : (s.setSheaf n v).panArb m = s.panArb m := rfl
@[simp] theorem State.straw_setSheaf (v : Sheaf) : (s.setSheaf n v).straw m = s.straw m := rfl
@[simp] theorem State.dir_setSheaf (v : Sheaf) : (s.setSheaf n v).dir m = s.dir m := rfl
@[simp] theorem State.die_setSheaf (v : Sheaf) : (s.setSheaf n v).die m = s.die m := rfl
@[simp] theorem State.ring_setSheaf (v : Sheaf) : (s.setSheaf n v).ring m = s.ring m := rfl
@[simp] theorem State.dom_setSheaf (v : Sheaf) : (s.setSheaf n v).dom m = s.dom m := rfl
@[simp] theorem State.zone_setSheaf (v : Sheaf) : (s.setSheaf n v).zone m = s.zone m := rfl
@[simp] theorem State.comb_setSheaf (v : Sheaf) : (s.setSheaf n v).comb m = s.comb m := rfl
@[simp] theorem State.leaf_setSheaf (v : Sheaf) : (s.setSheaf n v).leaf m = s.leaf m := rfl
@[simp] theorem State.slots_setSheaf (v : Sheaf) : (s.setSheaf n v).slots m = s.slots m := rfl
@[simp] theorem State.panBnd_setSheaf (v : Sheaf) : (s.setSheaf n v).panBnd m = s.panBnd m := rfl
@[simp] theorem State.stackBnd_setSheaf (v : Sheaf) : (s.setSheaf n v).stackBnd m = s.stackBnd m := rfl
@[simp] theorem State.pending_setSheaf (v : Sheaf) : (s.setSheaf n v).pending = s.pending := rfl
@[simp] theorem State.refcnt_setSheaf (v : Sheaf) : (s.setSheaf n v).refcnt = s.refcnt := rfl
@[simp] theorem State.freeIx_setSheaf (v : Sheaf) : (s.setSheaf n v).freeIx = s.freeIx := rfl
@[simp] theorem State.cores_setSheaf (v : Sheaf) : (s.setSheaf n v).cores = s.cores := rfl
@[simp] theorem State.mem_setSheaf (v : Sheaf) : (s.setSheaf n v).mem = s.mem := rfl
@[simp] theorem State.grn_setSheaf (v : Sheaf) : (s.setSheaf n v).grn = s.grn := rfl
@[simp] theorem State.red_setSheaf (v : Sheaf) : (s.setSheaf n v).red = s.red := rfl
@[simp] theorem State.bnd_setSheaf (v : Sheaf) : (s.setSheaf n v).bnd = s.bnd := rfl
@[simp] theorem State.host_setSheaf (v : Sheaf) : (s.setSheaf n v).host = s.host := rfl
@[simp] theorem State.floor_setSheaf (v : Sheaf) : (s.setSheaf n v).floor = s.floor := rfl
@[simp] theorem State.flt_setSheaf (v : Sheaf) : (s.setSheaf n v).flt = s.flt := rfl
@[simp] theorem State.det_setSheaf (v : Sheaf) : (s.setSheaf n v).det = s.det := rfl
@[simp] theorem State.sec_setSheaf (v : Sheaf) : (s.setSheaf n v).sec = s.sec := rfl
@[simp] theorem State.boot_setSheaf (v : Sheaf) : (s.setSheaf n v).boot = s.boot := rfl
@[simp] theorem State.bist_setSheaf (v : Sheaf) : (s.setSheaf n v).bist = s.bist := rfl
@[simp] theorem State.glean_setSheaf (v : Sheaf) : (s.setSheaf n v).glean = s.glean := rfl
@[simp] theorem State.pwr_setSheaf (v : Sheaf) : (s.setSheaf n v).pwr = s.pwr := rfl
@[simp] theorem State.mgt_setSheaf (v : Sheaf) : (s.setSheaf n v).mgt = s.mgt := rfl
@[simp] theorem State.acc_setSheaf (v : Sheaf) : (s.setSheaf n v).acc = s.acc := rfl

/-! ### ring -/

theorem State.ring_setRing (v : Ring) : (s.setRing n v).ring m = if n = m then v else s.ring m :=
  Tab.get_set _ _ _ _ _

@[simp] theorem State.ring_setRing_same (v : Ring) : (s.setRing n v).ring n = v := Tab.get_set_same _ _ _ _

@[simp] theorem State.floret_setRing (v : Ring) : (s.setRing n v).floret m = s.floret m := rfl
@[simp] theorem State.spk_setRing (v : Ring) : (s.setRing n v).spk m = s.spk m := rfl
@[simp] theorem State.pan_setRing (v : Ring) : (s.setRing n v).pan m = s.pan m := rfl
@[simp] theorem State.seqr_setRing (v : Ring) : (s.setRing n v).seqr m = s.seqr m := rfl
@[simp] theorem State.ctx_setRing (v : Ring) : (s.setRing n v).ctx m = s.ctx m := rfl
@[simp] theorem State.queue_setRing (v : Ring) : (s.setRing n v).queue m = s.queue m := rfl
@[simp] theorem State.stew_setRing (v : Ring) : (s.setRing n v).stew m = s.stew m := rfl
@[simp] theorem State.stack_setRing (v : Ring) : (s.setRing n v).stack m = s.stack m := rfl
@[simp] theorem State.panArb_setRing (v : Ring) : (s.setRing n v).panArb m = s.panArb m := rfl
@[simp] theorem State.straw_setRing (v : Ring) : (s.setRing n v).straw m = s.straw m := rfl
@[simp] theorem State.dir_setRing (v : Ring) : (s.setRing n v).dir m = s.dir m := rfl
@[simp] theorem State.die_setRing (v : Ring) : (s.setRing n v).die m = s.die m := rfl
@[simp] theorem State.sheaf_setRing (v : Ring) : (s.setRing n v).sheaf m = s.sheaf m := rfl
@[simp] theorem State.dom_setRing (v : Ring) : (s.setRing n v).dom m = s.dom m := rfl
@[simp] theorem State.zone_setRing (v : Ring) : (s.setRing n v).zone m = s.zone m := rfl
@[simp] theorem State.comb_setRing (v : Ring) : (s.setRing n v).comb m = s.comb m := rfl
@[simp] theorem State.leaf_setRing (v : Ring) : (s.setRing n v).leaf m = s.leaf m := rfl
@[simp] theorem State.slots_setRing (v : Ring) : (s.setRing n v).slots m = s.slots m := rfl
@[simp] theorem State.panBnd_setRing (v : Ring) : (s.setRing n v).panBnd m = s.panBnd m := rfl
@[simp] theorem State.stackBnd_setRing (v : Ring) : (s.setRing n v).stackBnd m = s.stackBnd m := rfl
@[simp] theorem State.pending_setRing (v : Ring) : (s.setRing n v).pending = s.pending := rfl
@[simp] theorem State.refcnt_setRing (v : Ring) : (s.setRing n v).refcnt = s.refcnt := rfl
@[simp] theorem State.freeIx_setRing (v : Ring) : (s.setRing n v).freeIx = s.freeIx := rfl
@[simp] theorem State.cores_setRing (v : Ring) : (s.setRing n v).cores = s.cores := rfl
@[simp] theorem State.mem_setRing (v : Ring) : (s.setRing n v).mem = s.mem := rfl
@[simp] theorem State.grn_setRing (v : Ring) : (s.setRing n v).grn = s.grn := rfl
@[simp] theorem State.red_setRing (v : Ring) : (s.setRing n v).red = s.red := rfl
@[simp] theorem State.bnd_setRing (v : Ring) : (s.setRing n v).bnd = s.bnd := rfl
@[simp] theorem State.host_setRing (v : Ring) : (s.setRing n v).host = s.host := rfl
@[simp] theorem State.floor_setRing (v : Ring) : (s.setRing n v).floor = s.floor := rfl
@[simp] theorem State.flt_setRing (v : Ring) : (s.setRing n v).flt = s.flt := rfl
@[simp] theorem State.det_setRing (v : Ring) : (s.setRing n v).det = s.det := rfl
@[simp] theorem State.sec_setRing (v : Ring) : (s.setRing n v).sec = s.sec := rfl
@[simp] theorem State.boot_setRing (v : Ring) : (s.setRing n v).boot = s.boot := rfl
@[simp] theorem State.bist_setRing (v : Ring) : (s.setRing n v).bist = s.bist := rfl
@[simp] theorem State.glean_setRing (v : Ring) : (s.setRing n v).glean = s.glean := rfl
@[simp] theorem State.pwr_setRing (v : Ring) : (s.setRing n v).pwr = s.pwr := rfl
@[simp] theorem State.mgt_setRing (v : Ring) : (s.setRing n v).mgt = s.mgt := rfl
@[simp] theorem State.acc_setRing (v : Ring) : (s.setRing n v).acc = s.acc := rfl

/-! ### dom -/

theorem State.dom_setDom (v : Dom) : (s.setDom n v).dom m = if n = m then v else s.dom m :=
  Tab.get_set _ _ _ _ _

@[simp] theorem State.dom_setDom_same (v : Dom) : (s.setDom n v).dom n = v := Tab.get_set_same _ _ _ _

@[simp] theorem State.floret_setDom (v : Dom) : (s.setDom n v).floret m = s.floret m := rfl
@[simp] theorem State.spk_setDom (v : Dom) : (s.setDom n v).spk m = s.spk m := rfl
@[simp] theorem State.pan_setDom (v : Dom) : (s.setDom n v).pan m = s.pan m := rfl
@[simp] theorem State.seqr_setDom (v : Dom) : (s.setDom n v).seqr m = s.seqr m := rfl
@[simp] theorem State.ctx_setDom (v : Dom) : (s.setDom n v).ctx m = s.ctx m := rfl
@[simp] theorem State.queue_setDom (v : Dom) : (s.setDom n v).queue m = s.queue m := rfl
@[simp] theorem State.stew_setDom (v : Dom) : (s.setDom n v).stew m = s.stew m := rfl
@[simp] theorem State.stack_setDom (v : Dom) : (s.setDom n v).stack m = s.stack m := rfl
@[simp] theorem State.panArb_setDom (v : Dom) : (s.setDom n v).panArb m = s.panArb m := rfl
@[simp] theorem State.straw_setDom (v : Dom) : (s.setDom n v).straw m = s.straw m := rfl
@[simp] theorem State.dir_setDom (v : Dom) : (s.setDom n v).dir m = s.dir m := rfl
@[simp] theorem State.die_setDom (v : Dom) : (s.setDom n v).die m = s.die m := rfl
@[simp] theorem State.sheaf_setDom (v : Dom) : (s.setDom n v).sheaf m = s.sheaf m := rfl
@[simp] theorem State.ring_setDom (v : Dom) : (s.setDom n v).ring m = s.ring m := rfl
@[simp] theorem State.zone_setDom (v : Dom) : (s.setDom n v).zone m = s.zone m := rfl
@[simp] theorem State.comb_setDom (v : Dom) : (s.setDom n v).comb m = s.comb m := rfl
@[simp] theorem State.leaf_setDom (v : Dom) : (s.setDom n v).leaf m = s.leaf m := rfl
@[simp] theorem State.slots_setDom (v : Dom) : (s.setDom n v).slots m = s.slots m := rfl
@[simp] theorem State.panBnd_setDom (v : Dom) : (s.setDom n v).panBnd m = s.panBnd m := rfl
@[simp] theorem State.stackBnd_setDom (v : Dom) : (s.setDom n v).stackBnd m = s.stackBnd m := rfl
@[simp] theorem State.pending_setDom (v : Dom) : (s.setDom n v).pending = s.pending := rfl
@[simp] theorem State.refcnt_setDom (v : Dom) : (s.setDom n v).refcnt = s.refcnt := rfl
@[simp] theorem State.freeIx_setDom (v : Dom) : (s.setDom n v).freeIx = s.freeIx := rfl
@[simp] theorem State.cores_setDom (v : Dom) : (s.setDom n v).cores = s.cores := rfl
@[simp] theorem State.mem_setDom (v : Dom) : (s.setDom n v).mem = s.mem := rfl
@[simp] theorem State.grn_setDom (v : Dom) : (s.setDom n v).grn = s.grn := rfl
@[simp] theorem State.fab_setDom (v : Dom) : (s.setDom n v).fab = s.fab := rfl
@[simp] theorem State.red_setDom (v : Dom) : (s.setDom n v).red = s.red := rfl
@[simp] theorem State.bnd_setDom (v : Dom) : (s.setDom n v).bnd = s.bnd := rfl
@[simp] theorem State.host_setDom (v : Dom) : (s.setDom n v).host = s.host := rfl
@[simp] theorem State.floor_setDom (v : Dom) : (s.setDom n v).floor = s.floor := rfl
@[simp] theorem State.det_setDom (v : Dom) : (s.setDom n v).det = s.det := rfl
@[simp] theorem State.sec_setDom (v : Dom) : (s.setDom n v).sec = s.sec := rfl
@[simp] theorem State.boot_setDom (v : Dom) : (s.setDom n v).boot = s.boot := rfl
@[simp] theorem State.bist_setDom (v : Dom) : (s.setDom n v).bist = s.bist := rfl
@[simp] theorem State.glean_setDom (v : Dom) : (s.setDom n v).glean = s.glean := rfl
@[simp] theorem State.pwr_setDom (v : Dom) : (s.setDom n v).pwr = s.pwr := rfl
@[simp] theorem State.mgt_setDom (v : Dom) : (s.setDom n v).mgt = s.mgt := rfl
@[simp] theorem State.acc_setDom (v : Dom) : (s.setDom n v).acc = s.acc := rfl

/-! ### zone -/

theorem State.zone_setZone (v : Zone) : (s.setZone n v).zone m = if n = m then v else s.zone m :=
  Tab.get_set _ _ _ _ _

@[simp] theorem State.zone_setZone_same (v : Zone) : (s.setZone n v).zone n = v := Tab.get_set_same _ _ _ _

@[simp] theorem State.floret_setZone (v : Zone) : (s.setZone n v).floret m = s.floret m := rfl
@[simp] theorem State.spk_setZone (v : Zone) : (s.setZone n v).spk m = s.spk m := rfl
@[simp] theorem State.pan_setZone (v : Zone) : (s.setZone n v).pan m = s.pan m := rfl
@[simp] theorem State.seqr_setZone (v : Zone) : (s.setZone n v).seqr m = s.seqr m := rfl
@[simp] theorem State.ctx_setZone (v : Zone) : (s.setZone n v).ctx m = s.ctx m := rfl
@[simp] theorem State.queue_setZone (v : Zone) : (s.setZone n v).queue m = s.queue m := rfl
@[simp] theorem State.stew_setZone (v : Zone) : (s.setZone n v).stew m = s.stew m := rfl
@[simp] theorem State.stack_setZone (v : Zone) : (s.setZone n v).stack m = s.stack m := rfl
@[simp] theorem State.panArb_setZone (v : Zone) : (s.setZone n v).panArb m = s.panArb m := rfl
@[simp] theorem State.straw_setZone (v : Zone) : (s.setZone n v).straw m = s.straw m := rfl
@[simp] theorem State.dir_setZone (v : Zone) : (s.setZone n v).dir m = s.dir m := rfl
@[simp] theorem State.die_setZone (v : Zone) : (s.setZone n v).die m = s.die m := rfl
@[simp] theorem State.sheaf_setZone (v : Zone) : (s.setZone n v).sheaf m = s.sheaf m := rfl
@[simp] theorem State.ring_setZone (v : Zone) : (s.setZone n v).ring m = s.ring m := rfl
@[simp] theorem State.dom_setZone (v : Zone) : (s.setZone n v).dom m = s.dom m := rfl
@[simp] theorem State.comb_setZone (v : Zone) : (s.setZone n v).comb m = s.comb m := rfl
@[simp] theorem State.leaf_setZone (v : Zone) : (s.setZone n v).leaf m = s.leaf m := rfl
@[simp] theorem State.slots_setZone (v : Zone) : (s.setZone n v).slots m = s.slots m := rfl
@[simp] theorem State.panBnd_setZone (v : Zone) : (s.setZone n v).panBnd m = s.panBnd m := rfl
@[simp] theorem State.stackBnd_setZone (v : Zone) : (s.setZone n v).stackBnd m = s.stackBnd m := rfl
@[simp] theorem State.pending_setZone (v : Zone) : (s.setZone n v).pending = s.pending := rfl
@[simp] theorem State.refcnt_setZone (v : Zone) : (s.setZone n v).refcnt = s.refcnt := rfl
@[simp] theorem State.freeIx_setZone (v : Zone) : (s.setZone n v).freeIx = s.freeIx := rfl
@[simp] theorem State.cores_setZone (v : Zone) : (s.setZone n v).cores = s.cores := rfl
@[simp] theorem State.mem_setZone (v : Zone) : (s.setZone n v).mem = s.mem := rfl
@[simp] theorem State.grn_setZone (v : Zone) : (s.setZone n v).grn = s.grn := rfl
@[simp] theorem State.fab_setZone (v : Zone) : (s.setZone n v).fab = s.fab := rfl
@[simp] theorem State.red_setZone (v : Zone) : (s.setZone n v).red = s.red := rfl
@[simp] theorem State.bnd_setZone (v : Zone) : (s.setZone n v).bnd = s.bnd := rfl
@[simp] theorem State.host_setZone (v : Zone) : (s.setZone n v).host = s.host := rfl
@[simp] theorem State.floor_setZone (v : Zone) : (s.setZone n v).floor = s.floor := rfl
@[simp] theorem State.flt_setZone (v : Zone) : (s.setZone n v).flt = s.flt := rfl
@[simp] theorem State.det_setZone (v : Zone) : (s.setZone n v).det = s.det := rfl
@[simp] theorem State.sec_setZone (v : Zone) : (s.setZone n v).sec = s.sec := rfl
@[simp] theorem State.boot_setZone (v : Zone) : (s.setZone n v).boot = s.boot := rfl
@[simp] theorem State.bist_setZone (v : Zone) : (s.setZone n v).bist = s.bist := rfl
@[simp] theorem State.glean_setZone (v : Zone) : (s.setZone n v).glean = s.glean := rfl
@[simp] theorem State.mgt_setZone (v : Zone) : (s.setZone n v).mgt = s.mgt := rfl
@[simp] theorem State.acc_setZone (v : Zone) : (s.setZone n v).acc = s.acc := rfl

/-! ### comb -/

theorem State.comb_setComb (v : Combiner) : (s.setComb n v).comb m = if n = m then v else s.comb m :=
  Tab.get_set _ _ _ _ _

@[simp] theorem State.comb_setComb_same (v : Combiner) : (s.setComb n v).comb n = v := Tab.get_set_same _ _ _ _

@[simp] theorem State.floret_setComb (v : Combiner) : (s.setComb n v).floret m = s.floret m := rfl
@[simp] theorem State.spk_setComb (v : Combiner) : (s.setComb n v).spk m = s.spk m := rfl
@[simp] theorem State.pan_setComb (v : Combiner) : (s.setComb n v).pan m = s.pan m := rfl
@[simp] theorem State.seqr_setComb (v : Combiner) : (s.setComb n v).seqr m = s.seqr m := rfl
@[simp] theorem State.ctx_setComb (v : Combiner) : (s.setComb n v).ctx m = s.ctx m := rfl
@[simp] theorem State.queue_setComb (v : Combiner) : (s.setComb n v).queue m = s.queue m := rfl
@[simp] theorem State.stew_setComb (v : Combiner) : (s.setComb n v).stew m = s.stew m := rfl
@[simp] theorem State.stack_setComb (v : Combiner) : (s.setComb n v).stack m = s.stack m := rfl
@[simp] theorem State.panArb_setComb (v : Combiner) : (s.setComb n v).panArb m = s.panArb m := rfl
@[simp] theorem State.straw_setComb (v : Combiner) : (s.setComb n v).straw m = s.straw m := rfl
@[simp] theorem State.dir_setComb (v : Combiner) : (s.setComb n v).dir m = s.dir m := rfl
@[simp] theorem State.die_setComb (v : Combiner) : (s.setComb n v).die m = s.die m := rfl
@[simp] theorem State.sheaf_setComb (v : Combiner) : (s.setComb n v).sheaf m = s.sheaf m := rfl
@[simp] theorem State.ring_setComb (v : Combiner) : (s.setComb n v).ring m = s.ring m := rfl
@[simp] theorem State.dom_setComb (v : Combiner) : (s.setComb n v).dom m = s.dom m := rfl
@[simp] theorem State.zone_setComb (v : Combiner) : (s.setComb n v).zone m = s.zone m := rfl
@[simp] theorem State.leaf_setComb (v : Combiner) : (s.setComb n v).leaf m = s.leaf m := rfl
@[simp] theorem State.slots_setComb (v : Combiner) : (s.setComb n v).slots m = s.slots m := rfl
@[simp] theorem State.panBnd_setComb (v : Combiner) : (s.setComb n v).panBnd m = s.panBnd m := rfl
@[simp] theorem State.stackBnd_setComb (v : Combiner) : (s.setComb n v).stackBnd m = s.stackBnd m := rfl
@[simp] theorem State.pending_setComb (v : Combiner) : (s.setComb n v).pending = s.pending := rfl
@[simp] theorem State.refcnt_setComb (v : Combiner) : (s.setComb n v).refcnt = s.refcnt := rfl
@[simp] theorem State.freeIx_setComb (v : Combiner) : (s.setComb n v).freeIx = s.freeIx := rfl
@[simp] theorem State.cores_setComb (v : Combiner) : (s.setComb n v).cores = s.cores := rfl
@[simp] theorem State.mem_setComb (v : Combiner) : (s.setComb n v).mem = s.mem := rfl
@[simp] theorem State.grn_setComb (v : Combiner) : (s.setComb n v).grn = s.grn := rfl
@[simp] theorem State.fab_setComb (v : Combiner) : (s.setComb n v).fab = s.fab := rfl
@[simp] theorem State.bnd_setComb (v : Combiner) : (s.setComb n v).bnd = s.bnd := rfl
@[simp] theorem State.host_setComb (v : Combiner) : (s.setComb n v).host = s.host := rfl
@[simp] theorem State.floor_setComb (v : Combiner) : (s.setComb n v).floor = s.floor := rfl
@[simp] theorem State.flt_setComb (v : Combiner) : (s.setComb n v).flt = s.flt := rfl
@[simp] theorem State.det_setComb (v : Combiner) : (s.setComb n v).det = s.det := rfl
@[simp] theorem State.sec_setComb (v : Combiner) : (s.setComb n v).sec = s.sec := rfl
@[simp] theorem State.boot_setComb (v : Combiner) : (s.setComb n v).boot = s.boot := rfl
@[simp] theorem State.bist_setComb (v : Combiner) : (s.setComb n v).bist = s.bist := rfl
@[simp] theorem State.glean_setComb (v : Combiner) : (s.setComb n v).glean = s.glean := rfl
@[simp] theorem State.pwr_setComb (v : Combiner) : (s.setComb n v).pwr = s.pwr := rfl
@[simp] theorem State.mgt_setComb (v : Combiner) : (s.setComb n v).mgt = s.mgt := rfl
@[simp] theorem State.acc_setComb (v : Combiner) : (s.setComb n v).acc = s.acc := rfl

/-! ### leaf -/

theorem State.leaf_setLeaf (v : LeafUnit) : (s.setLeaf n v).leaf m = if n = m then v else s.leaf m :=
  Tab.get_set _ _ _ _ _

@[simp] theorem State.leaf_setLeaf_same (v : LeafUnit) : (s.setLeaf n v).leaf n = v := Tab.get_set_same _ _ _ _

@[simp] theorem State.floret_setLeaf (v : LeafUnit) : (s.setLeaf n v).floret m = s.floret m := rfl
@[simp] theorem State.spk_setLeaf (v : LeafUnit) : (s.setLeaf n v).spk m = s.spk m := rfl
@[simp] theorem State.pan_setLeaf (v : LeafUnit) : (s.setLeaf n v).pan m = s.pan m := rfl
@[simp] theorem State.seqr_setLeaf (v : LeafUnit) : (s.setLeaf n v).seqr m = s.seqr m := rfl
@[simp] theorem State.ctx_setLeaf (v : LeafUnit) : (s.setLeaf n v).ctx m = s.ctx m := rfl
@[simp] theorem State.queue_setLeaf (v : LeafUnit) : (s.setLeaf n v).queue m = s.queue m := rfl
@[simp] theorem State.stew_setLeaf (v : LeafUnit) : (s.setLeaf n v).stew m = s.stew m := rfl
@[simp] theorem State.stack_setLeaf (v : LeafUnit) : (s.setLeaf n v).stack m = s.stack m := rfl
@[simp] theorem State.panArb_setLeaf (v : LeafUnit) : (s.setLeaf n v).panArb m = s.panArb m := rfl
@[simp] theorem State.straw_setLeaf (v : LeafUnit) : (s.setLeaf n v).straw m = s.straw m := rfl
@[simp] theorem State.dir_setLeaf (v : LeafUnit) : (s.setLeaf n v).dir m = s.dir m := rfl
@[simp] theorem State.die_setLeaf (v : LeafUnit) : (s.setLeaf n v).die m = s.die m := rfl
@[simp] theorem State.sheaf_setLeaf (v : LeafUnit) : (s.setLeaf n v).sheaf m = s.sheaf m := rfl
@[simp] theorem State.ring_setLeaf (v : LeafUnit) : (s.setLeaf n v).ring m = s.ring m := rfl
@[simp] theorem State.dom_setLeaf (v : LeafUnit) : (s.setLeaf n v).dom m = s.dom m := rfl
@[simp] theorem State.zone_setLeaf (v : LeafUnit) : (s.setLeaf n v).zone m = s.zone m := rfl
@[simp] theorem State.comb_setLeaf (v : LeafUnit) : (s.setLeaf n v).comb m = s.comb m := rfl
@[simp] theorem State.slots_setLeaf (v : LeafUnit) : (s.setLeaf n v).slots m = s.slots m := rfl
@[simp] theorem State.panBnd_setLeaf (v : LeafUnit) : (s.setLeaf n v).panBnd m = s.panBnd m := rfl
@[simp] theorem State.stackBnd_setLeaf (v : LeafUnit) : (s.setLeaf n v).stackBnd m = s.stackBnd m := rfl
@[simp] theorem State.pending_setLeaf (v : LeafUnit) : (s.setLeaf n v).pending = s.pending := rfl
@[simp] theorem State.refcnt_setLeaf (v : LeafUnit) : (s.setLeaf n v).refcnt = s.refcnt := rfl
@[simp] theorem State.freeIx_setLeaf (v : LeafUnit) : (s.setLeaf n v).freeIx = s.freeIx := rfl
@[simp] theorem State.cores_setLeaf (v : LeafUnit) : (s.setLeaf n v).cores = s.cores := rfl
@[simp] theorem State.mem_setLeaf (v : LeafUnit) : (s.setLeaf n v).mem = s.mem := rfl
@[simp] theorem State.grn_setLeaf (v : LeafUnit) : (s.setLeaf n v).grn = s.grn := rfl
@[simp] theorem State.fab_setLeaf (v : LeafUnit) : (s.setLeaf n v).fab = s.fab := rfl
@[simp] theorem State.bnd_setLeaf (v : LeafUnit) : (s.setLeaf n v).bnd = s.bnd := rfl
@[simp] theorem State.host_setLeaf (v : LeafUnit) : (s.setLeaf n v).host = s.host := rfl
@[simp] theorem State.floor_setLeaf (v : LeafUnit) : (s.setLeaf n v).floor = s.floor := rfl
@[simp] theorem State.flt_setLeaf (v : LeafUnit) : (s.setLeaf n v).flt = s.flt := rfl
@[simp] theorem State.det_setLeaf (v : LeafUnit) : (s.setLeaf n v).det = s.det := rfl
@[simp] theorem State.sec_setLeaf (v : LeafUnit) : (s.setLeaf n v).sec = s.sec := rfl
@[simp] theorem State.boot_setLeaf (v : LeafUnit) : (s.setLeaf n v).boot = s.boot := rfl
@[simp] theorem State.bist_setLeaf (v : LeafUnit) : (s.setLeaf n v).bist = s.bist := rfl
@[simp] theorem State.glean_setLeaf (v : LeafUnit) : (s.setLeaf n v).glean = s.glean := rfl
@[simp] theorem State.pwr_setLeaf (v : LeafUnit) : (s.setLeaf n v).pwr = s.pwr := rfl
@[simp] theorem State.mgt_setLeaf (v : LeafUnit) : (s.setLeaf n v).mgt = s.mgt := rfl
@[simp] theorem State.acc_setLeaf (v : LeafUnit) : (s.setLeaf n v).acc = s.acc := rfl

/-! ### slots -/

theorem State.slots_setSlots (v : StrawSlots) : (s.setSlots n v).slots m = if n = m then v else s.slots m :=
  Tab.get_set _ _ _ _ _

@[simp] theorem State.slots_setSlots_same (v : StrawSlots) : (s.setSlots n v).slots n = v := Tab.get_set_same _ _ _ _

@[simp] theorem State.floret_setSlots (v : StrawSlots) : (s.setSlots n v).floret m = s.floret m := rfl
@[simp] theorem State.spk_setSlots (v : StrawSlots) : (s.setSlots n v).spk m = s.spk m := rfl
@[simp] theorem State.pan_setSlots (v : StrawSlots) : (s.setSlots n v).pan m = s.pan m := rfl
@[simp] theorem State.seqr_setSlots (v : StrawSlots) : (s.setSlots n v).seqr m = s.seqr m := rfl
@[simp] theorem State.ctx_setSlots (v : StrawSlots) : (s.setSlots n v).ctx m = s.ctx m := rfl
@[simp] theorem State.queue_setSlots (v : StrawSlots) : (s.setSlots n v).queue m = s.queue m := rfl
@[simp] theorem State.stew_setSlots (v : StrawSlots) : (s.setSlots n v).stew m = s.stew m := rfl
@[simp] theorem State.stack_setSlots (v : StrawSlots) : (s.setSlots n v).stack m = s.stack m := rfl
@[simp] theorem State.panArb_setSlots (v : StrawSlots) : (s.setSlots n v).panArb m = s.panArb m := rfl
@[simp] theorem State.straw_setSlots (v : StrawSlots) : (s.setSlots n v).straw m = s.straw m := rfl
@[simp] theorem State.dir_setSlots (v : StrawSlots) : (s.setSlots n v).dir m = s.dir m := rfl
@[simp] theorem State.die_setSlots (v : StrawSlots) : (s.setSlots n v).die m = s.die m := rfl
@[simp] theorem State.sheaf_setSlots (v : StrawSlots) : (s.setSlots n v).sheaf m = s.sheaf m := rfl
@[simp] theorem State.ring_setSlots (v : StrawSlots) : (s.setSlots n v).ring m = s.ring m := rfl
@[simp] theorem State.dom_setSlots (v : StrawSlots) : (s.setSlots n v).dom m = s.dom m := rfl
@[simp] theorem State.zone_setSlots (v : StrawSlots) : (s.setSlots n v).zone m = s.zone m := rfl
@[simp] theorem State.comb_setSlots (v : StrawSlots) : (s.setSlots n v).comb m = s.comb m := rfl
@[simp] theorem State.leaf_setSlots (v : StrawSlots) : (s.setSlots n v).leaf m = s.leaf m := rfl
@[simp] theorem State.panBnd_setSlots (v : StrawSlots) : (s.setSlots n v).panBnd m = s.panBnd m := rfl
@[simp] theorem State.stackBnd_setSlots (v : StrawSlots) : (s.setSlots n v).stackBnd m = s.stackBnd m := rfl
@[simp] theorem State.pending_setSlots (v : StrawSlots) : (s.setSlots n v).pending = s.pending := rfl
@[simp] theorem State.refcnt_setSlots (v : StrawSlots) : (s.setSlots n v).refcnt = s.refcnt := rfl
@[simp] theorem State.freeIx_setSlots (v : StrawSlots) : (s.setSlots n v).freeIx = s.freeIx := rfl
@[simp] theorem State.cores_setSlots (v : StrawSlots) : (s.setSlots n v).cores = s.cores := rfl
@[simp] theorem State.mem_setSlots (v : StrawSlots) : (s.setSlots n v).mem = s.mem := rfl
@[simp] theorem State.grn_setSlots (v : StrawSlots) : (s.setSlots n v).grn = s.grn := rfl
@[simp] theorem State.fab_setSlots (v : StrawSlots) : (s.setSlots n v).fab = s.fab := rfl
@[simp] theorem State.bnd_setSlots (v : StrawSlots) : (s.setSlots n v).bnd = s.bnd := rfl
@[simp] theorem State.host_setSlots (v : StrawSlots) : (s.setSlots n v).host = s.host := rfl
@[simp] theorem State.floor_setSlots (v : StrawSlots) : (s.setSlots n v).floor = s.floor := rfl
@[simp] theorem State.flt_setSlots (v : StrawSlots) : (s.setSlots n v).flt = s.flt := rfl
@[simp] theorem State.det_setSlots (v : StrawSlots) : (s.setSlots n v).det = s.det := rfl
@[simp] theorem State.sec_setSlots (v : StrawSlots) : (s.setSlots n v).sec = s.sec := rfl
@[simp] theorem State.boot_setSlots (v : StrawSlots) : (s.setSlots n v).boot = s.boot := rfl
@[simp] theorem State.bist_setSlots (v : StrawSlots) : (s.setSlots n v).bist = s.bist := rfl
@[simp] theorem State.glean_setSlots (v : StrawSlots) : (s.setSlots n v).glean = s.glean := rfl
@[simp] theorem State.pwr_setSlots (v : StrawSlots) : (s.setSlots n v).pwr = s.pwr := rfl
@[simp] theorem State.mgt_setSlots (v : StrawSlots) : (s.setSlots n v).mgt = s.mgt := rfl
@[simp] theorem State.acc_setSlots (v : StrawSlots) : (s.setSlots n v).acc = s.acc := rfl

/-! ### panBnd -/

theorem State.panBnd_setPanBnd (v : PanBnd) : (s.setPanBnd n v).panBnd m = if n = m then v else s.panBnd m :=
  Tab.get_set _ _ _ _ _

@[simp] theorem State.panBnd_setPanBnd_same (v : PanBnd) : (s.setPanBnd n v).panBnd n = v := Tab.get_set_same _ _ _ _

@[simp] theorem State.floret_setPanBnd (v : PanBnd) : (s.setPanBnd n v).floret m = s.floret m := rfl
@[simp] theorem State.spk_setPanBnd (v : PanBnd) : (s.setPanBnd n v).spk m = s.spk m := rfl
@[simp] theorem State.pan_setPanBnd (v : PanBnd) : (s.setPanBnd n v).pan m = s.pan m := rfl
@[simp] theorem State.seqr_setPanBnd (v : PanBnd) : (s.setPanBnd n v).seqr m = s.seqr m := rfl
@[simp] theorem State.ctx_setPanBnd (v : PanBnd) : (s.setPanBnd n v).ctx m = s.ctx m := rfl
@[simp] theorem State.queue_setPanBnd (v : PanBnd) : (s.setPanBnd n v).queue m = s.queue m := rfl
@[simp] theorem State.stew_setPanBnd (v : PanBnd) : (s.setPanBnd n v).stew m = s.stew m := rfl
@[simp] theorem State.stack_setPanBnd (v : PanBnd) : (s.setPanBnd n v).stack m = s.stack m := rfl
@[simp] theorem State.panArb_setPanBnd (v : PanBnd) : (s.setPanBnd n v).panArb m = s.panArb m := rfl
@[simp] theorem State.straw_setPanBnd (v : PanBnd) : (s.setPanBnd n v).straw m = s.straw m := rfl
@[simp] theorem State.dir_setPanBnd (v : PanBnd) : (s.setPanBnd n v).dir m = s.dir m := rfl
@[simp] theorem State.die_setPanBnd (v : PanBnd) : (s.setPanBnd n v).die m = s.die m := rfl
@[simp] theorem State.sheaf_setPanBnd (v : PanBnd) : (s.setPanBnd n v).sheaf m = s.sheaf m := rfl
@[simp] theorem State.ring_setPanBnd (v : PanBnd) : (s.setPanBnd n v).ring m = s.ring m := rfl
@[simp] theorem State.dom_setPanBnd (v : PanBnd) : (s.setPanBnd n v).dom m = s.dom m := rfl
@[simp] theorem State.zone_setPanBnd (v : PanBnd) : (s.setPanBnd n v).zone m = s.zone m := rfl
@[simp] theorem State.comb_setPanBnd (v : PanBnd) : (s.setPanBnd n v).comb m = s.comb m := rfl
@[simp] theorem State.leaf_setPanBnd (v : PanBnd) : (s.setPanBnd n v).leaf m = s.leaf m := rfl
@[simp] theorem State.slots_setPanBnd (v : PanBnd) : (s.setPanBnd n v).slots m = s.slots m := rfl
@[simp] theorem State.stackBnd_setPanBnd (v : PanBnd) : (s.setPanBnd n v).stackBnd m = s.stackBnd m := rfl
@[simp] theorem State.pending_setPanBnd (v : PanBnd) : (s.setPanBnd n v).pending = s.pending := rfl
@[simp] theorem State.refcnt_setPanBnd (v : PanBnd) : (s.setPanBnd n v).refcnt = s.refcnt := rfl
@[simp] theorem State.freeIx_setPanBnd (v : PanBnd) : (s.setPanBnd n v).freeIx = s.freeIx := rfl
@[simp] theorem State.cores_setPanBnd (v : PanBnd) : (s.setPanBnd n v).cores = s.cores := rfl
@[simp] theorem State.mem_setPanBnd (v : PanBnd) : (s.setPanBnd n v).mem = s.mem := rfl
@[simp] theorem State.grn_setPanBnd (v : PanBnd) : (s.setPanBnd n v).grn = s.grn := rfl
@[simp] theorem State.fab_setPanBnd (v : PanBnd) : (s.setPanBnd n v).fab = s.fab := rfl
@[simp] theorem State.red_setPanBnd (v : PanBnd) : (s.setPanBnd n v).red = s.red := rfl
@[simp] theorem State.host_setPanBnd (v : PanBnd) : (s.setPanBnd n v).host = s.host := rfl
@[simp] theorem State.floor_setPanBnd (v : PanBnd) : (s.setPanBnd n v).floor = s.floor := rfl
@[simp] theorem State.flt_setPanBnd (v : PanBnd) : (s.setPanBnd n v).flt = s.flt := rfl
@[simp] theorem State.det_setPanBnd (v : PanBnd) : (s.setPanBnd n v).det = s.det := rfl
@[simp] theorem State.sec_setPanBnd (v : PanBnd) : (s.setPanBnd n v).sec = s.sec := rfl
@[simp] theorem State.boot_setPanBnd (v : PanBnd) : (s.setPanBnd n v).boot = s.boot := rfl
@[simp] theorem State.bist_setPanBnd (v : PanBnd) : (s.setPanBnd n v).bist = s.bist := rfl
@[simp] theorem State.glean_setPanBnd (v : PanBnd) : (s.setPanBnd n v).glean = s.glean := rfl
@[simp] theorem State.pwr_setPanBnd (v : PanBnd) : (s.setPanBnd n v).pwr = s.pwr := rfl
@[simp] theorem State.mgt_setPanBnd (v : PanBnd) : (s.setPanBnd n v).mgt = s.mgt := rfl
@[simp] theorem State.acc_setPanBnd (v : PanBnd) : (s.setPanBnd n v).acc = s.acc := rfl

/-! ### stackBnd -/

theorem State.stackBnd_setStackBnd (v : StackBnd) : (s.setStackBnd n v).stackBnd m = if n = m then v else s.stackBnd m :=
  Tab.get_set _ _ _ _ _

@[simp] theorem State.stackBnd_setStackBnd_same (v : StackBnd) : (s.setStackBnd n v).stackBnd n = v := Tab.get_set_same _ _ _ _

@[simp] theorem State.floret_setStackBnd (v : StackBnd) : (s.setStackBnd n v).floret m = s.floret m := rfl
@[simp] theorem State.spk_setStackBnd (v : StackBnd) : (s.setStackBnd n v).spk m = s.spk m := rfl
@[simp] theorem State.pan_setStackBnd (v : StackBnd) : (s.setStackBnd n v).pan m = s.pan m := rfl
@[simp] theorem State.seqr_setStackBnd (v : StackBnd) : (s.setStackBnd n v).seqr m = s.seqr m := rfl
@[simp] theorem State.ctx_setStackBnd (v : StackBnd) : (s.setStackBnd n v).ctx m = s.ctx m := rfl
@[simp] theorem State.queue_setStackBnd (v : StackBnd) : (s.setStackBnd n v).queue m = s.queue m := rfl
@[simp] theorem State.stew_setStackBnd (v : StackBnd) : (s.setStackBnd n v).stew m = s.stew m := rfl
@[simp] theorem State.stack_setStackBnd (v : StackBnd) : (s.setStackBnd n v).stack m = s.stack m := rfl
@[simp] theorem State.panArb_setStackBnd (v : StackBnd) : (s.setStackBnd n v).panArb m = s.panArb m := rfl
@[simp] theorem State.straw_setStackBnd (v : StackBnd) : (s.setStackBnd n v).straw m = s.straw m := rfl
@[simp] theorem State.dir_setStackBnd (v : StackBnd) : (s.setStackBnd n v).dir m = s.dir m := rfl
@[simp] theorem State.die_setStackBnd (v : StackBnd) : (s.setStackBnd n v).die m = s.die m := rfl
@[simp] theorem State.sheaf_setStackBnd (v : StackBnd) : (s.setStackBnd n v).sheaf m = s.sheaf m := rfl
@[simp] theorem State.ring_setStackBnd (v : StackBnd) : (s.setStackBnd n v).ring m = s.ring m := rfl
@[simp] theorem State.dom_setStackBnd (v : StackBnd) : (s.setStackBnd n v).dom m = s.dom m := rfl
@[simp] theorem State.zone_setStackBnd (v : StackBnd) : (s.setStackBnd n v).zone m = s.zone m := rfl
@[simp] theorem State.comb_setStackBnd (v : StackBnd) : (s.setStackBnd n v).comb m = s.comb m := rfl
@[simp] theorem State.leaf_setStackBnd (v : StackBnd) : (s.setStackBnd n v).leaf m = s.leaf m := rfl
@[simp] theorem State.slots_setStackBnd (v : StackBnd) : (s.setStackBnd n v).slots m = s.slots m := rfl
@[simp] theorem State.panBnd_setStackBnd (v : StackBnd) : (s.setStackBnd n v).panBnd m = s.panBnd m := rfl
@[simp] theorem State.pending_setStackBnd (v : StackBnd) : (s.setStackBnd n v).pending = s.pending := rfl
@[simp] theorem State.refcnt_setStackBnd (v : StackBnd) : (s.setStackBnd n v).refcnt = s.refcnt := rfl
@[simp] theorem State.freeIx_setStackBnd (v : StackBnd) : (s.setStackBnd n v).freeIx = s.freeIx := rfl
@[simp] theorem State.cores_setStackBnd (v : StackBnd) : (s.setStackBnd n v).cores = s.cores := rfl
@[simp] theorem State.mem_setStackBnd (v : StackBnd) : (s.setStackBnd n v).mem = s.mem := rfl
@[simp] theorem State.grn_setStackBnd (v : StackBnd) : (s.setStackBnd n v).grn = s.grn := rfl
@[simp] theorem State.fab_setStackBnd (v : StackBnd) : (s.setStackBnd n v).fab = s.fab := rfl
@[simp] theorem State.red_setStackBnd (v : StackBnd) : (s.setStackBnd n v).red = s.red := rfl
@[simp] theorem State.host_setStackBnd (v : StackBnd) : (s.setStackBnd n v).host = s.host := rfl
@[simp] theorem State.floor_setStackBnd (v : StackBnd) : (s.setStackBnd n v).floor = s.floor := rfl
@[simp] theorem State.flt_setStackBnd (v : StackBnd) : (s.setStackBnd n v).flt = s.flt := rfl
@[simp] theorem State.det_setStackBnd (v : StackBnd) : (s.setStackBnd n v).det = s.det := rfl
@[simp] theorem State.sec_setStackBnd (v : StackBnd) : (s.setStackBnd n v).sec = s.sec := rfl
@[simp] theorem State.boot_setStackBnd (v : StackBnd) : (s.setStackBnd n v).boot = s.boot := rfl
@[simp] theorem State.bist_setStackBnd (v : StackBnd) : (s.setStackBnd n v).bist = s.bist := rfl
@[simp] theorem State.glean_setStackBnd (v : StackBnd) : (s.setStackBnd n v).glean = s.glean := rfl
@[simp] theorem State.pwr_setStackBnd (v : StackBnd) : (s.setStackBnd n v).pwr = s.pwr := rfl
@[simp] theorem State.mgt_setStackBnd (v : StackBnd) : (s.setStackBnd n v).mgt = s.mgt := rfl
@[simp] theorem State.acc_setStackBnd (v : StackBnd) : (s.setStackBnd n v).acc = s.acc := rfl

end Sys2Proof.Machine
end

