-- ==== Sys2Proof/Laws/Arbiter.lean ====
section
/-! SUPPORT. What a decision of an arbiter can change: who waits, hints, and the frame of a decision. -/

namespace Sys2Proof.Machine

theorem arbKey_inj {a b : ArbId} (h : arbKey a = arbKey b) : a = b := by
  cases a with
  | bank i => cases b <;> simp only [arbKey] at h <;> first | exact congrArg ArbId.bank (Fin.ext (by omega)) | omega
  | inject i => cases b <;> simp only [arbKey] at h <;> first | exact congrArg ArbId.inject (Fin.ext (by omega)) | omega
  | sheaf i => cases b <;> simp only [arbKey] at h <;> first | exact congrArg ArbId.sheaf (Fin.ext (by omega)) | omega
  | hbm n pc =>
    cases b <;> simp only [arbKey] at h
    case hbm m qc =>
      have hn : n = m := Fin.ext (by omega)
      have hp : pc = qc := Fin.ext (by omega)
      rw [hn, hp]
    all_goals omega

theorem State.arb_setArb (s : State) (a b : ArbId) (v : Arb) :
    (s.setArb a v).arb b = if a = b then v else s.arb b := by
  refine (Tab.get_set _ _ _ _ _).trans ?_
  by_cases h : a = b
  · simp [h]
  · have hk : arbKey b ≠ arbKey a := fun e => h (arbKey_inj e).symm
    simp [h, hk.symm, State.arb]

@[simp] theorem State.arb_setArb_same (s : State) (a : ArbId) (v : Arb) : (s.setArb a v).arb a = v := by
  simp [State.arb_setArb]

theorem State.mem_waitingAt (s : State) (a : ArbId) (r : Nat) :
    r ∈ s.waitingAt a ↔ r < arbSize a ∧ (0 < Tab.get 0 (s.arb a).reqs r ∨ 0 < s.asks a r) := by
  simp only [State.waitingAt, List.mem_flatMap, List.mem_range, List.mem_replicate]
  constructor
  · rintro ⟨k, hk, hn, rfl⟩
    exact ⟨hk, by omega⟩
  · rintro ⟨hk, hn⟩
    exact ⟨r, hk, by omega, rfl⟩

/-- Only florets differ. -/
def FloretsOnly (s t : State) : Prop := { t with cores := { t.cores with florets := s.cores.florets } } = s

theorem FloretsOnly.refl (s : State) : FloretsOnly s s := rfl

theorem FloretsOnly.floret {s t : State} (h : FloretsOnly s t) (n : Nat) (v : Floret) : FloretsOnly s (t.setFloret n v) := h

theorem FloretsOnly.trans {s t u : State} (h : FloretsOnly s t) (k : FloretsOnly t u) : FloretsOnly s u := by
  unfold FloretsOnly at *
  rw [← h, ← k]

/-- Hints of florets change florets only (R48). -/
theorem State.tellFlorets_frame (s : State) (i : Nat) (b : Arb) (e k : Nat) : FloretsOnly s (s.tellFlorets i b e k) := by
  unfold State.tellFlorets
  generalize (List.drop k (s.spk i).bankQ).zipIdx = l
  induction l generalizing s with
  | nil => exact .refl s
  | cons p l ih =>
    rw [List.foldl_cons]
    exact ((FloretsOnly.refl s).floret _ _).trans (ih _)

/-- The memory, the packets, the units and the open requests that a decision leaves as they are. -/
structure DecisionFrame (s t : State) : Prop where
  mem    : t.mem = s.mem
  sent   : t.fab.sent = s.fab.sent
  routed : t.fab.routed = s.fab.routed
  coord  : t.fab.coord = s.fab.coord
  sheaves : t.fab.sheaves = s.fab.sheaves
  spks   : t.cores.spikelets = s.cores.spikelets
  pans   : t.cores.panicles = s.cores.panicles
  opens  : ∀ n, (t.stack n).openReqs = (s.stack n).openReqs
  refresh : ∀ n, (t.stack n).refresh = (s.stack n).refresh

theorem DecisionFrame.refl (s : State) : DecisionFrame s s := ⟨rfl, rfl, rfl, rfl, rfl, rfl, rfl, fun _ => rfl, fun _ => rfl⟩

theorem DecisionFrame.trans {s t u : State} (h : DecisionFrame s t) (k : DecisionFrame t u) : DecisionFrame s u :=
  ⟨k.mem.trans h.mem, k.sent.trans h.sent, k.routed.trans h.routed, k.coord.trans h.coord, k.sheaves.trans h.sheaves,
   k.spks.trans h.spks, k.pans.trans h.pans, fun n => (k.opens n).trans (h.opens n), fun n => (k.refresh n).trans (h.refresh n)⟩

theorem FloretsOnly.decision {s t : State} (h : FloretsOnly s t) : DecisionFrame s t := by
  unfold FloretsOnly at h
  rw [← h]
  exact ⟨rfl, rfl, rfl, rfl, rfl, rfl, rfl, fun _ => rfl, fun _ => rfl⟩

theorem DecisionFrame.setArb (s : State) (a : ArbId) (b : Arb) : DecisionFrame s (s.setArb a b) :=
  ⟨rfl, rfl, rfl, rfl, rfl, rfl, rfl, fun _ => rfl, fun _ => rfl⟩

theorem DecisionFrame.setStack (s : State) (n : Nat) (k : Stack) (h : k.openReqs = (s.stack n).openReqs)
    (hr : k.refresh = (s.stack n).refresh) : DecisionFrame s (s.setStack n k) :=
  ⟨rfl, rfl, rfl, rfl, rfl, rfl, rfl,
   fun m => by rw [State.stack_setStack]; split <;> simp_all,
   fun m => by rw [State.stack_setStack]; split <;> simp_all⟩

/-- What the hints of a decision can change (R48, R235, R260). -/
theorem State.hinted_frame (s : State) (a : ArbId) (w : Option Nat) (ls os : List Nat) :
    DecisionFrame s (s.hinted a w ls os) := by
  cases a with
  | bank i => exact (State.tellFlorets_frame _ _ _ _ _).decision
  | hbm n pc =>
    apply DecisionFrame.setStack <;> (dsimp only; split <;> (try split) <;> (try split) <;> rfl)
  | inject p => exact ⟨rfl, rfl, rfl, rfl, rfl, rfl, rfl, fun _ => rfl, fun _ => rfl⟩
  | sheaf w => exact ⟨rfl, rfl, rfl, rfl, rfl, rfl, rfl, fun _ => rfl, fun _ => rfl⟩

/-- The time that passes changes the arbiter's counters (R229). -/
theorem State.passTime_frame (s : State) (a : ArbId) (ws : List Nat) (n : Nat) : DecisionFrame s (s.passTime a ws n) := by
  have h : ∀ (l : List Nat) (s : State), DecisionFrame s (l.foldl (fun (s : State) r =>
      if (s.arb a).known.contains r then s.setArb a ((s.arb a).elapse r n)
      else
        let (v, s) := s.draw
        s.setArb a ((s.arb a).elapse r (v.toNat % (n + 1)))) s) := by
    intro l
    induction l with
    | nil => exact .refl
    | cons r l ih =>
      intro s
      rw [List.foldl_cons]
      refine DecisionFrame.trans ?_ (ih _)
      split
      · exact .setArb _ _ _
      · exact ⟨rfl, rfl, rfl, rfl, rfl, rfl, rfl, fun _ => rfl, fun _ => rfl⟩
  exact (h ws s).trans (.setArb _ _ _)

/-- A grant changes its arbiter and the hints of the losers. -/
theorem State.grantTo_frame (s : State) (a : ArbId) (ws : List Nat) (len : Nat) (g : Grant) :
    DecisionFrame s (s.grantTo a ws len g) :=
  (DecisionFrame.setArb _ _ _).trans (State.hinted_frame _ _ _ _ _)

/-- A decision changes its arbiter, hints and nothing else. -/
theorem State.arbitrate_frame (s : State) (a : ArbId) (ws : List Nat) (e : Nat) (u : Nat → Nat × Grant) :
    DecisionFrame s (s.arbitrate a ws e u).1 := by
  unfold State.arbitrate
  dsimp only
  split
  · exact (State.passTime_frame _ _ _ _).trans (.setArb _ _ _)
  · exact (State.passTime_frame _ _ _ _).trans (State.grantTo_frame _ _ _ _ _)

end Sys2Proof.Machine
end

