-- ==== Sys2Proof/Laws/Transport.lean ====
section
/-! SUPPORT. What putting a packet into the fabric and ending a command can change. -/

namespace Sys2Proof.Machine

theorem State.trySend_ok {s t : State} {ep : Nat} {p : Packet} (h : s.trySend ep p = .ok t) :
    ∃ f, t = { s with fab := f } := by
  simp only [State.trySend] at h
  split at h
  · split at h
    · cases h
    · cases h; exact ⟨_, rfl⟩
  · split at h
    · cases h
    · split at h
      · cases h
      · cases h; exact ⟨_, rfl⟩

/-- A packet that is injected changes the fabric, and a mover's counters where it stalls for want of an entry. -/
theorem State.inject_frame (s : State) (ep : Nat) (p : Packet) :
    ∃ f c, s.inject ep p = { s with fab := f, cores := c } ∧ (1536 ≤ ep → c = s.cores) := by
  simp only [State.inject]
  split
  · split
    · exact ⟨_, _, rfl, fun _ => rfl⟩
    · split
      · exact ⟨_, _, rfl, fun _ => rfl⟩
      · split
        · next h => obtain ⟨f, rfl⟩ := State.trySend_ok h; exact ⟨f, _, rfl, fun _ => rfl⟩
        · exact ⟨_, _, rfl, fun _ => rfl⟩
        · simp only [State.countTp]
          split
          · exact ⟨_, _, rfl, fun h => absurd h (by omega)⟩
          · exact ⟨_, _, rfl, fun _ => rfl⟩
  · split
    · exact ⟨_, _, rfl, fun _ => rfl⟩
    · exact ⟨_, _, rfl, fun _ => rfl⟩

/-- A steward message goes to the list of those sent, and its packet into the fabric. -/
theorem State.sendStw_frame (s : State) (dst : Ec) (m : StwMsg) :
    ∃ f, s.sendStw dst m = { s with fab := f, host := { s.host with stwOut := s.host.stwOut ++ [(dst, m)] } } := by
  obtain ⟨f, c, h, hc⟩ := State.inject_frame
    { s with host := { s.host with stwOut := s.host.stwOut ++ [(dst, m)] } } 1568
    { dst := dst, src := s.stewardEc 0, kind := 0, op := 0x50, gen := (s.dom 0).gen }
  cases hc (by decide)
  exact ⟨f, h⟩

/-- A loop whose every turn changes the fabric alone changes the fabric alone. -/
theorem foldl_fab {α : Type} (g : State → α → State) (h : ∀ s x, ∃ f, g s x = { s with fab := f }) (l : List α)
    (s : State) : ∃ f, l.foldl g s = { s with fab := f } := by
  induction l generalizing s with
  | nil => exact ⟨_, rfl⟩
  | cons x l ih =>
    obtain ⟨f, e⟩ := h s x
    obtain ⟨f', e'⟩ := ih (g s x)
    exact ⟨f', by rw [List.foldl_cons, e', e]⟩

/-- A host access that goes to the master is put into the fabric. -/
theorem State.hostSend_frame (s : State) (m : Ec) (fn a n tag : Nat) (w : Option (List Byte)) :
    ∃ f, s.hostSend m fn a n tag w = { s with fab := f } := by
  apply foldl_fab
  intro s q
  obtain ⟨f, c, h, hc⟩ := State.inject_frame s 1568 _
  rw [hc (by decide)] at h
  exact ⟨f, h⟩

/-- Host memory written, here or through the master. -/
theorem State.hostPut_frame (s : State) (m : Option Ec) (fn a : Nat) (bs : List Byte) :
    ∃ k f, s.hostPut m fn a bs = { s with mem := k, fab := f } ∧ k.bytes = s.mem.bytes := by
  cases m with
  | none => exact ⟨_, _, rfl, rfl⟩
  | some m =>
    obtain ⟨f, e⟩ := State.hostSend_frame s m fn a bs.length 0 (some bs)
    exact ⟨s.mem, f, e, rfl⟩

theorem State.dropCmd_frame (s : State) (q : QueueId) (c : HCmd) :
    ∃ m d, s.dropCmd q c = { s with mem := m, det := d } ∧ m.bytes = s.mem.bytes ∧ m.host = s.mem.host := by
  simp only [State.dropCmd]
  split
  · exact ⟨_, _, rfl, rfl, rfl⟩
  · split
    · exact ⟨_, _, rfl, rfl, rfl⟩
    · exact ⟨_, _, rfl, rfl, rfl⟩

/-- The end of a command changes its queue, its ring in host memory or a message to the master, and its waits and
edges. -/
theorem State.complete_frame (s : State) (q : QueueId) (seq : W32) (st r : Nat) :
    ∃ m d f h, s.complete q seq st r = { s with mem := m, det := d, fab := f, host := h } ∧ m.bytes = s.mem.bytes := by
  simp only [State.complete]
  split
  · exact ⟨_, _, _, _, rfl, rfl⟩
  · next c _ =>
    obtain ⟨m, d, e, hb, _⟩ := State.dropCmd_frame s q c
    rw [e]
    split
    · exact ⟨_, _, _, _, rfl, hb⟩
    · split
      · next master _ =>
        obtain ⟨f, e⟩ := State.sendStw_frame (State.setQueue { s with mem := m, det := d } q.val
          (Queue.settle { s.queue q.val with cmds := (s.queue q.val).cmds.filter (fun d => d.seq ≠ seq) })) master
          (.completion q seq (Fin.ofNat 64 (coordIx s.fab.coord)) (BitVec.ofNat 16 st) (BitVec.ofNat 64 r))
        exact ⟨m, d, f, _, e, hb⟩
      · exact ⟨_, _, _, _, rfl, hb⟩

theorem State.memberDone_frame (s : State) (q : QueueId) (seq : W32) (k : Fin 64) (st : BitVec 16) (r : W64) :
    ∃ m d f h, s.memberDone q seq k st r = { s with mem := m, det := d, fab := f, host := h } ∧
      m.bytes = s.mem.bytes := by
  simp only [State.memberDone]
  split
  · exact ⟨_, _, _, _, rfl, rfl⟩
  · split
    · obtain ⟨m, d, f, h, e, hb⟩ := State.complete_frame (s.setCmd q _) q seq _ _
      exact ⟨m, d, f, h, e, hb⟩
    · exact ⟨_, _, _, _, rfl, rfl⟩

/-- The work of a command ends: nothing changes but queues, host memory, steward messages, waits and edges. -/
theorem State.finish_frame (s : State) (q : QueueId) (seq : W32) (st r : Nat) :
    ∃ m d f h, s.finish q seq st r = { s with mem := m, det := d, fab := f, host := h } ∧ m.bytes = s.mem.bytes := by
  simp only [State.finish]
  split
  · exact ⟨_, _, _, _, rfl, rfl⟩
  · split
    · exact State.memberDone_frame ..
    · exact State.complete_frame ..


variable (s : State) (q : QueueId) (seq : W32) (st r : Nat)

@[simp] theorem State.finish_refcnt : (s.finish q seq st r).refcnt = s.refcnt := by
  obtain ⟨_, _, _, _, e, _⟩ := s.finish_frame q seq st r
  rw [e]

@[simp] theorem State.finish_pending : (s.finish q seq st r).pending = s.pending := by
  obtain ⟨_, _, _, _, e, _⟩ := s.finish_frame q seq st r
  rw [e]

@[simp] theorem State.finish_freeIx : (s.finish q seq st r).freeIx = s.freeIx := by
  obtain ⟨_, _, _, _, e, _⟩ := s.finish_frame q seq st r
  rw [e]

@[simp] theorem State.finish_cores : (s.finish q seq st r).cores = s.cores := by
  obtain ⟨_, _, _, _, e, _⟩ := s.finish_frame q seq st r
  rw [e]

@[simp] theorem State.finish_grn : (s.finish q seq st r).grn = s.grn := by
  obtain ⟨_, _, _, _, e, _⟩ := s.finish_frame q seq st r
  rw [e]

@[simp] theorem State.finish_red : (s.finish q seq st r).red = s.red := by
  obtain ⟨_, _, _, _, e, _⟩ := s.finish_frame q seq st r
  rw [e]

@[simp] theorem State.finish_bnd : (s.finish q seq st r).bnd = s.bnd := by
  obtain ⟨_, _, _, _, e, _⟩ := s.finish_frame q seq st r
  rw [e]

@[simp] theorem State.finish_floor : (s.finish q seq st r).floor = s.floor := by
  obtain ⟨_, _, _, _, e, _⟩ := s.finish_frame q seq st r
  rw [e]

@[simp] theorem State.finish_flt : (s.finish q seq st r).flt = s.flt := by
  obtain ⟨_, _, _, _, e, _⟩ := s.finish_frame q seq st r
  rw [e]

@[simp] theorem State.finish_sec : (s.finish q seq st r).sec = s.sec := by
  obtain ⟨_, _, _, _, e, _⟩ := s.finish_frame q seq st r
  rw [e]

@[simp] theorem State.finish_boot : (s.finish q seq st r).boot = s.boot := by
  obtain ⟨_, _, _, _, e, _⟩ := s.finish_frame q seq st r
  rw [e]

@[simp] theorem State.finish_bist : (s.finish q seq st r).bist = s.bist := by
  obtain ⟨_, _, _, _, e, _⟩ := s.finish_frame q seq st r
  rw [e]

@[simp] theorem State.finish_glean : (s.finish q seq st r).glean = s.glean := by
  obtain ⟨_, _, _, _, e, _⟩ := s.finish_frame q seq st r
  rw [e]

@[simp] theorem State.finish_pwr : (s.finish q seq st r).pwr = s.pwr := by
  obtain ⟨_, _, _, _, e, _⟩ := s.finish_frame q seq st r
  rw [e]

@[simp] theorem State.finish_mgt : (s.finish q seq st r).mgt = s.mgt := by
  obtain ⟨_, _, _, _, e, _⟩ := s.finish_frame q seq st r
  rw [e]

@[simp] theorem State.finish_acc : (s.finish q seq st r).acc = s.acc := by
  obtain ⟨_, _, _, _, e, _⟩ := s.finish_frame q seq st r
  rw [e]

@[simp] theorem State.finish_bytes : (s.finish q seq st r).mem.bytes = s.mem.bytes := by
  obtain ⟨_, _, _, _, e, h⟩ := s.finish_frame q seq st r
  rw [e]
  exact h

@[simp] theorem State.finish_dom (d : Nat) : (s.finish q seq st r).dom d = s.dom d := by
  simp [State.dom]

end Sys2Proof.Machine
end

