-- ==== Sys2Proof/Laws/Dumps.lean ====
section
/-! SUPPORT. What the end of a dump can change. -/

namespace Sys2Proof.Machine

/-- What only a dump's end, its log entry and the commands that wait for it can change between two states. -/
def DumpEnds (s t : State) : Prop :=
  t.pending = s.pending ∧ t.refcnt = s.refcnt ∧ t.cores = s.cores ∧ t.grn = s.grn ∧ t.red = s.red ∧ t.bnd = s.bnd ∧
  t.floor = s.floor ∧ t.sec = s.sec ∧ t.boot = s.boot ∧ t.bist = s.bist ∧ t.pwr = s.pwr ∧ t.acc = s.acc ∧
  t.flt.doms = s.flt.doms ∧ t.glean.running = false ∧ t.glean.valid = true ∧ t.glean.waiting = []

theorem State.copyDump_frame (s : State) (q : QueueId) (c : HCmd) :
    ∃ m d f h, s.copyDump q c = { s with mem := m, det := d, fab := f, host := h } ∧ m.bytes = s.mem.bytes := by
  unfold State.copyDump
  split
  · exact State.finish_frame ..
  · obtain ⟨k, g, e, hk⟩ := State.hostPut_frame s c.via c.fn (c.p 1)
      (s.read Config.dumpAddr (if s.glean.valid then Nat.min (c.p 2) s.glean.length else 0))
    dsimp only
    rw [e]
    obtain ⟨m, d, f, h, e, hb⟩ := State.finish_frame { s with mem := k, fab := g } q c.seq 0
      (if s.glean.valid then Nat.min (c.p 2) s.glean.length else 0)
    exact ⟨m, d, f, h, e, hb.trans hk⟩

theorem State.copies_frame (ws : List (QueueId × W32)) : ∀ s : State,
    ∃ m d f h, ws.foldl (fun (s : State) (w : QueueId × W32) => match s.running w.1 w.2 0x11 with
      | some c => s.copyDump w.1 c
      | none => s) s = { s with mem := m, det := d, fab := f, host := h } ∧ m.bytes = s.mem.bytes := by
  induction ws with
  | nil => intro s; exact ⟨_, _, _, _, rfl, rfl⟩
  | cons w ws ih =>
    intro s
    simp only [List.foldl_cons]
    split
    · next c _ =>
      obtain ⟨m, d, f, h, e, hb⟩ := s.copyDump_frame w.1 c
      rw [e]
      obtain ⟨m', d', f', h', e', hb'⟩ := ih { s with mem := m, det := d, fab := f, host := h }
      exact ⟨m', d', f', h', e', hb'.trans hb⟩
    · exact ih s

theorem State.dumpWrite_frame (failed : BitVec 24) (bs : List Byte) : ∀ (s : State) (a : Nat),
    ∃ m, s.dumpWrite failed a bs = { s with mem := m } ∧ m.host = s.mem.host := by
  induction bs with
  | nil => intro s a; exact ⟨_, rfl, rfl⟩
  | cons b bs ih =>
    intro s a
    simp only [State.dumpWrite]
    split
    · exact ih _ _
    · obtain ⟨m, e, hm⟩ := ih (s.write a [b]) (a + 1)
      exact ⟨m, e, hm⟩

theorem State.dumpSummary_frame (s : State) (i : Bool) (failed : BitVec 24) :
    ∃ n, (s.dumpSummary i failed).2 = { s with freeIx := n } := ⟨_, rfl⟩

/-- The dump is written: the header and the records stand in the region, and the gleaner is free. -/
theorem State.putDump_frame (s : State) (i : Bool) (failed : BitVec 24) :
    ∃ m n, s.putDump i failed = { s with
      mem := m, glean := { s.glean with running := false, valid := true, length := n } } ∧ m.host = s.mem.host := by
  unfold State.putDump
  dsimp only
  generalize dumpHeader s.glean.recs.length i s.glean.start s.refcnt s.glean.trigger failed ++
    s.glean.recs.flatMap (fun r => r.bytesOf) = bytes
  obtain ⟨m, e, h⟩ := State.dumpWrite_frame failed bytes s Config.dumpAddr
  refine ⟨m, bytes.length, ?_, h⟩
  simp only [e]

/-- An event is logged: the log and its pins change, and PKG_EVT_N may pulse. -/
theorem State.log_frame (s : State) (code cls : Nat) (ctx : Option (BitVec 12)) (src aux : Ec) (detail : Nat) :
    ∃ l p, s.log code cls ctx src aux detail = { s with flt := l, mgt := { s.mgt with pulses := p } } ∧
      l.doms = s.flt.doms ∧ l.count = s.flt.count + 1 := by
  unfold State.log
  dsimp only
  cases (decide (s.mgt.evtMode = 2) && decide (s.mgt.dbgEvent.toNat = code))
  · refine ⟨_, s.mgt.pulses, rfl, ?_, ?_⟩ <;> rfl
  · refine ⟨_, _, rfl, ?_, ?_⟩ <;> rfl

theorem State.dumpDone_frame (s : State) (sum : List Byte) (n : Nat) :
    ∃ l p, s.dumpDone sum n = { s with
      glean := { s.glean with summary := sum }, host := { s.host with msix := s.host.msix ++ [(0, 1)] }
      flt := l, mgt := { s.mgt with pulses := p } } ∧ l.doms = s.flt.doms ∧ l.count = s.flt.count + 1 :=
  State.log_frame { s with
    glean := { s.glean with summary := sum }
    host := { s.host with msix := s.host.msix ++ [(0, 1)] } } ..

theorem State.serveDumps_frame (s : State) : ∃ m d f h, s.serveDumps = { s with
    mem := m, det := d, fab := f, host := h, glean := { s.glean with waiting := [] } } ∧ m.bytes = s.mem.bytes :=
  State.copies_frame s.glean.waiting { s with glean := { s.glean with waiting := [] } }

theorem State.endDump_frame (s : State) (incomplete : Bool) (failed : BitVec 24) :
    DumpEnds s (s.endDump incomplete failed) := by
  unfold State.endDump
  obtain ⟨n, e⟩ := s.dumpSummary_frame incomplete failed
  generalize s.dumpSummary incomplete failed = r at e ⊢
  obtain ⟨sum, t⟩ := r
  cases e
  obtain ⟨m, k, e, _⟩ := State.putDump_frame { s with freeIx := n } incomplete failed
  dsimp only
  rw [e]
  obtain ⟨l, p, e, hl, _⟩ := State.dumpDone_frame { s with
    freeIx := n, mem := m, glean := { s.glean with running := false, valid := true, length := k } } sum
    (s.glean.recs.filter (fun r => r.status = 1)).length
  rw [e]
  obtain ⟨m', d, f, h, e, _⟩ := State.serveDumps_frame { s with
    freeIx := n, mem := m, flt := l, mgt := { s.mgt with pulses := p }
    glean := { s.glean with running := false, valid := true, length := k, summary := sum }
    host := { s.host with msix := s.host.msix ++ [(0, 1)] } }
  rw [e]
  exact ⟨rfl, rfl, rfl, rfl, rfl, rfl, rfl, rfl, rfl, rfl, rfl, rfl, hl, rfl, rfl, rfl⟩

theorem State.cutDump_idle {s : State} (h : s.glean.running = false) : s.cutDump = s := by
  simp [State.cutDump, h]

theorem State.cutDump_running {s : State} (h : s.glean.running = true) : DumpEnds s s.cutDump := by
  simp only [State.cutDump, h]
  exact s.endDump_frame true 0

@[simp] theorem State.cutDump_dom (s : State) (d : Nat) : s.cutDump.dom d = s.dom d := by
  cases h : s.glean.running
  · rw [State.cutDump_idle h]
  · simp only [State.dom, (State.cutDump_running h).2.2.2.2.2.2.2.2.2.2.2.2.1]

@[simp] theorem State.cutDump_ended (s : State) : s.cutDump.glean.running = false := by
  cases h : s.glean.running
  · rw [State.cutDump_idle h, h]
  · exact (State.cutDump_running h).2.2.2.2.2.2.2.2.2.2.2.2.2.1

end Sys2Proof.Machine
end

