-- ==== Sys2Proof/Laws/Issue.lean ====
section
/-! SUPPORT. What the issue of an instruction does, in each of its cases, and what it leaves alone. -/

namespace Sys2Proof.Machine

variable {s : State} {f : FloretId} {g : BitVec 4} {regs : List (BitVec 5)} {hz ill : Bool} {body : Floret → Issued}

theorem State.issueOn_stopped (h : (s.floret f.val).status ≠ .runnable) : s.issueOn f regs hz ill g body = s := by
  simp [State.issueOn, h]

theorem State.issueOn_past (h : (s.floret f.val).status = .runnable) (hp : 0x80000 ≤ (s.floret f.val).pc.toNat) :
    s.issueOn f regs hz ill g body =
      s.syncFault f.val 0x02 (s.floret f.val).pc (some ((s.floret f.val).pc.setWidth 64)) := by
  simp [State.issueOn, h, hp]

theorem State.issueOn_noLine (h : (s.floret f.val).status = .runnable) (hp : (s.floret f.val).pc.toNat < 0x80000)
    (hl : lineOf (s.floret f.val).pc ∉ (s.spk (spkOfFloret f.val)).ibuf) :
    s.issueOn f regs hz ill g body = s.setStatus f.val (.blocked (.ibuf (lineOf (s.floret f.val).pc))) := by
  have : ¬ 0x80000 ≤ (s.floret f.val).pc.toNat := by omega
  simp [State.issueOn, h, this, hl]

theorem State.issueOn_reserved (h : Fetches s f) (hi : ill = true ∨ s.badWord f = true) :
    s.issueOn f regs hz ill g body = s.syncFault f.val 0x01 (s.floret f.val).pc none := by
  obtain ⟨h1, h2, h3, h4⟩ := h
  have : ¬ 0x80000 ≤ (s.floret f.val).pc.toNat := by omega
  simp only [List.contains_iff_mem] at h3
  rcases hi with hi | hi <;> simp [State.issueOn, h1, this, h3, h4, hi]

/-- A tile with a pending write holds the instruction (R37, R123). -/
theorem State.issueOn_held (h : Fetches s f) (hb : s.badWord f = false) : s.issueOn f regs true false g body = s := by
  obtain ⟨h1, h2, h3, h4⟩ := h
  have : ¬ 0x80000 ≤ (s.floret f.val).pc.toNat := by omega
  simp only [List.contains_iff_mem] at h3
  simp [State.issueOn, h1, this, h3, h4, hb]

/-- Past the checks the guard decides: the body's effect, or only the move of the PC. -/
theorem State.issueOn_fetched (h : Fetched s f regs) :
    s.issueOn f regs false false g body =
      s.after f.val (s.floret f.val).pc (if (s.floret f.val).guard g then body (s.floret f.val) else .ok s) := by
  obtain ⟨⟨h1, h2, h3, h5⟩, hb, h4⟩ := h
  have : ¬ 0x80000 ≤ (s.floret f.val).pc.toNat := by omega
  simp only [List.contains_iff_mem] at h3
  simp only [State.issueOn, h1, this]
  have hn : ¬ ∃ r, r ∈ regs ∧ (s.floret f.val).pend.getLsbD r.toNat = true := by
    rintro ⟨r, hr, hp⟩
    rw [h4 r hr] at hp
    exact absurd hp (by simp)
  cases hg : (s.floret f.val).guard g <;> simp [hn, h3, h5, hb]

theorem State.issueOn_ready (h : Ready s f g regs) :
    s.issueOn f regs false false g body = s.after f.val (s.floret f.val).pc (body (s.floret f.val)) := by
  rw [State.issueOn_fetched h.1, h.2]
  rfl

theorem State.issue_stopped (h : (s.floret f.val).status ≠ .runnable) : s.issue f regs ill g body = s :=
  State.issueOn_stopped h

theorem State.issue_past (h : (s.floret f.val).status = .runnable) (hp : 0x80000 ≤ (s.floret f.val).pc.toNat) :
    s.issue f regs ill g body =
      s.syncFault f.val 0x02 (s.floret f.val).pc (some ((s.floret f.val).pc.setWidth 64)) :=
  State.issueOn_past h hp

theorem State.issue_noLine (h : (s.floret f.val).status = .runnable) (hp : (s.floret f.val).pc.toNat < 0x80000)
    (hl : lineOf (s.floret f.val).pc ∉ (s.spk (spkOfFloret f.val)).ibuf) :
    s.issue f regs ill g body = s.setStatus f.val (.blocked (.ibuf (lineOf (s.floret f.val).pc))) :=
  State.issueOn_noLine h hp hl

theorem State.issue_reserved (h : Fetches s f) :
    s.issue f regs true g body = s.syncFault f.val 0x01 (s.floret f.val).pc none :=
  State.issueOn_reserved h (.inl rfl)

theorem State.issue_fetched (h : Fetched s f regs) :
    s.issue f regs false g body =
      s.after f.val (s.floret f.val).pc (if (s.floret f.val).guard g then body (s.floret f.val) else .ok s) :=
  State.issueOn_fetched h

theorem State.issue_ready (h : Ready s f g regs) :
    s.issue f regs false g body = s.after f.val (s.floret f.val).pc (body (s.floret f.val)) :=
  State.issueOn_ready h

/-- An instruction that writes its own floret only. -/
theorem retires_ok (fl : Floret) (pc : BitVec 20) :
    Retires s (s.after f.val pc (.ok (s.setFloret f.val fl))) f { fl with pc := pc + 4 } := by
  refine ⟨?_, rfl, ⟨fun _ => rfl, fun _ => rfl, ?_, ?_⟩, ?_⟩
  · simp [State.after, State.issuedBy, State.setPc]
  · intro y hy
    simp [State.after, State.issuedBy, State.setPc, State.floret_setFloret, Ne.symm hy]
  · intro i hi
    simp [State.after, State.issuedBy, State.setPc, State.spk_setSpk, Ne.symm hi]
  · simp [State.after, State.issuedBy, State.setPc]

/-- A jump that writes its own floret only. -/
theorem retires_jump (fl : Floret) (pc t : BitVec 20) :
    Retires s (s.after f.val pc (.jump (s.setFloret f.val fl) t)) f { fl with pc := t } := by
  refine ⟨?_, rfl, ⟨fun _ => rfl, fun _ => rfl, ?_, ?_⟩, ?_⟩
  · simp [State.after, State.issuedBy, State.setPc]
  · intro y hy
    simp [State.after, State.issuedBy, State.setPc, State.floret_setFloret, Ne.symm hy]
  · intro i hi
    simp [State.after, State.issuedBy, State.setPc, State.spk_setSpk, Ne.symm hi]
  · simp [State.after, State.issuedBy, State.setPc]

/-- An instruction under a false guard. -/
theorem retires_skip (pc : BitVec 20) : Retires s (s.after f.val pc (.ok s)) f { s.floret f.val with pc := pc + 4 } := by
  refine ⟨?_, rfl, ⟨fun _ => rfl, fun _ => rfl, ?_, ?_⟩, ?_⟩
  · simp [State.after, State.issuedBy, State.setPc]
  · intro y hy
    simp [State.after, State.issuedBy, State.setPc, State.floret_setFloret, Ne.symm hy]
  · intro i hi
    simp [State.after, State.issuedBy, State.setPc, State.spk_setSpk, Ne.symm hi]
  · simp [State.after, State.issuedBy, State.setPc]

end Sys2Proof.Machine
end

