-- ==== Sys2Proof/Laws/Memory.lean ====
section
/-! SUPPORT. Laws of memory: a read after a write, what a write leaves alone, and that every operation on memory keeps
the canonical form. -/

namespace Sys2Proof.Machine

/-! ### Reading after writing -/

/-- Bytes written are read back. -/
theorem State.read_write (s : State) (a : Nat) (bs : List Byte) : (s.write a bs).read a bs.length = bs :=
  Tab.getMany_setMany _ _ _ _

/-- A byte outside a write reads as before. -/
theorem State.byte_write_other (s : State) (a b : Nat) (bs : List Byte) (h : b < a ∨ a + bs.length ≤ b) :
    (s.write a bs).read b 1 = s.read b 1 := by
  simp [State.read, State.write, Tab.getMany, Tab.get_setMany_other _ _ _ _ _ h]

/-- Bytes written to host memory are read back. -/
theorem State.hostRead_hostWrite (s : State) (fn a : Nat) (bs : List Byte) :
    (s.hostWrite fn a bs).hostRead fn a bs.length = bs :=
  Tab.getMany_setMany _ _ _ _

/-- A byte of host memory outside a write reads as before. -/
theorem State.hostByte_hostWrite_other (s : State) (fn gn a b : Nat) (bs : List Byte)
    (h : hostKey gn b < hostKey fn a ∨ hostKey fn a + bs.length ≤ hostKey gn b) :
    (s.hostWrite fn a bs).hostRead gn b 1 = s.hostRead gn b 1 := by
  simp [State.hostRead, State.hostWrite, Tab.getMany, Tab.get_setMany_other _ _ _ _ _ h]

/-- The mark of a word after one word has been marked. -/
theorem State.eccAt_setEcc (s : State) (w v : Nat) (m : Option Bool) :
    (s.setEcc w m).eccAt v = if w = v then m else s.eccAt v :=
  Tab.get_set _ _ _ _ _

@[simp] theorem State.eccAt_write (s : State) (a w : Nat) (bs : List Byte) : (s.write a bs).eccAt w = s.eccAt w := rfl

@[simp] theorem State.read_setEcc (s : State) (w a n : Nat) (m : Option Bool) : (s.setEcc w m).read a n = s.read a n := rfl

@[simp] theorem State.hostRead_write (s : State) (a fn b n : Nat) (bs : List Byte) :
    (s.write a bs).hostRead fn b n = s.hostRead fn b n := rfl

@[simp] theorem State.read_hostWrite (s : State) (fn a b n : Nat) (bs : List Byte) :
    (s.hostWrite fn a bs).read b n = s.read b n := rfl

/-! ### The canonical form -/

theorem Mem.wf_iff (m : Mem) :
    m.wf = true ↔ Tab.wf 0 m.bytes = true ∧ Tab.wf none m.ecc = true ∧ Tab.wf none m.line = true ∧ Tab.wf 0 m.host = true := by
  simp only [Mem.wf, Bool.and_eq_true, and_assoc]

/-- The form that `Mem.wf` names depends on the four tables only. -/
theorem Mem.wf_congr {m n : Mem} (hb : n.bytes = m.bytes) (he : n.ecc = m.ecc) (hl : n.line = m.line) (hh : n.host = m.host) :
    n.wf = m.wf := by
  simp only [Mem.wf, hb, he, hl, hh]

theorem reset_mem_wf : State.reset.mem.wf = true := rfl

/-- A loop over changes that each keep the form. -/
theorem foldl_mem_wf {β : Type} {g : State → β → State} (h : ∀ s x, s.mem.wf = true → (g s x).mem.wf = true) :
    ∀ (l : List β) (s : State), s.mem.wf = true → (l.foldl g s).mem.wf = true
  | [], _, hs => hs
  | x :: l, s, hs => foldl_mem_wf h l _ (h s x hs)

/-- A loop that carries a state and one more value. -/
theorem foldl_fst_mem_wf {β γ : Type} {g : State × γ → β → State × γ}
    (h : ∀ p x, p.1.mem.wf = true → (g p x).1.mem.wf = true) :
    ∀ (l : List β) (p : State × γ), p.1.mem.wf = true → (l.foldl g p).1.mem.wf = true
  | [], _, hs => hs
  | x :: l, p, hs => foldl_fst_mem_wf h l _ (h p x hs)

/-- A loop over changes that each leave memory as it is. -/
theorem foldl_mem {β : Type} {g : State → β → State} (h : ∀ s x, (g s x).mem = s.mem) :
    ∀ (l : List β) (s : State), (l.foldl g s).mem = s.mem
  | [], _ => rfl
  | x :: l, s => by rw [List.foldl_cons, foldl_mem h l, h]

theorem State.write_mem_wf (s : State) (a : Nat) (bs : List Byte) (h : s.mem.wf = true) :
    (s.write a bs).mem.wf = true := by
  rw [Mem.wf_iff] at h ⊢
  exact ⟨Tab.wf_setMany _ _ _ _ h.1, h.2⟩

theorem State.hostWrite_mem_wf (s : State) (fn a : Nat) (bs : List Byte) (h : s.mem.wf = true) :
    (s.hostWrite fn a bs).mem.wf = true := by
  rw [Mem.wf_iff] at h ⊢
  exact ⟨h.1, h.2.1, h.2.2.1, Tab.wf_setMany _ _ _ _ h.2.2.2⟩

theorem State.setEcc_mem_wf (s : State) (w : Nat) (m : Option Bool) (h : s.mem.wf = true) :
    (s.setEcc w m).mem.wf = true := by
  rw [Mem.wf_iff] at h ⊢
  exact ⟨h.1, Tab.wf_set _ _ _ _ h.2.1, h.2.2⟩

theorem State.plant_mem_wf (s : State) (a : Nat) (hits : List EccHit) (h : s.mem.wf = true) :
    (s.plant a hits).mem.wf = true :=
  foldl_mem_wf (fun u _ => State.setEcc_mem_wf u _ _) hits s h

/-- The mark of a granary line set or cleared. -/
theorem Mem.wf_setLine (m : Mem) (l : Nat) (v : Option Bool) (h : m.wf = true) :
    ({ m with line := Tab.set none m.line l v } : Mem).wf = true := by
  rw [Mem.wf_iff] at h ⊢
  exact ⟨h.1, h.2.1, Tab.wf_set _ _ _ _ h.2.2.1, h.2.2.2⟩

theorem State.setLineMark_mem_wf (s : State) (n : StackId) (line : BitVec 30) (m : Option Bool) (h : s.mem.wf = true) :
    (s.setLineMark n line m).mem.wf = true :=
  Mem.wf_setLine _ _ _ h

/-- A change of the registered waits. -/
@[simp] theorem Mem.wf_waits (m : Mem) (w : List CellWait) : ({ m with waits := w } : Mem).wf = m.wf := rfl

theorem State.unzero_mem_wf (s : State) (i row : Nat) (h : s.mem.wf = true) :
    (s.unzero i row).mem.wf = true := by
  unfold State.unzero
  split
  · refine foldl_mem_wf (fun u _ => State.setEcc_mem_wf u _ _) _ _ ?_
    rw [State.mem_setSpk]
    exact State.write_mem_wf s _ _ h
  · exact h

theorem State.bankWrite_mem_wf (s : State) (i off : Nat) (bs : List Byte) (h : s.mem.wf = true) :
    (s.bankWrite i off bs).mem.wf = true := by
  unfold State.bankWrite
  refine foldl_mem_wf (fun u _ => State.setEcc_mem_wf u _ _) _ _ (State.write_mem_wf _ _ _ ?_)
  exact foldl_mem_wf (fun u _ => State.unzero_mem_wf u _ _) _ _ h

theorem State.checkStore_mem (s : State) (p off n : Nat) : (s.checkStore p off n).1.mem = s.mem := by
  simp only [State.checkStore]
  split <;> rfl

theorem State.storeWrite_mem_wf (s : State) (p off : Nat) (bs : List Byte) (h : s.mem.wf = true) :
    ((s.storeWrite p off bs).1).mem.wf = true := by
  have hc : ∀ (l : List Nat) (q : State × Bool), q.1.mem.wf = true → (l.foldl (fun (q : State × Bool) w =>
      let t := q.1.checkStore p (w * 16) 16; (t.1, q.2 || t.2)) q).1.mem.wf = true :=
    foldl_fst_mem_wf (fun q w hq => by rw [State.checkStore_mem]; exact hq)
  have hr := hc (partWords off bs.length) (s, false) h
  unfold State.storeWrite
  revert hr
  generalize (partWords off bs.length).foldl _ (s, false) = r
  intro hr
  show (if r.2 = true then r else _).1.mem.wf = true
  split
  · exact hr
  · exact foldl_mem_wf (fun u _ => State.setEcc_mem_wf u _ _) _ _ (State.write_mem_wf _ _ _ hr)

theorem State.checkRow_mem (s : State) (i row : Nat) : (s.checkRow i row).1.mem = s.mem := rfl

theorem State.checkRows_mem (s : State) (i off n : Nat) : (s.checkRows i off n).1.mem = s.mem := by
  have : ∀ (l : List Nat) (p : State × Bool),
      (l.foldl (fun p r => let q := p.1.checkRow i r; (q.1, p.2 || q.2)) p).1.mem = p.1.mem := by
    intro l
    induction l with
    | nil => intro p; rfl
    | cons r l ih => intro p; rw [List.foldl_cons, ih]; exact State.checkRow_mem _ _ _
  exact this _ _

theorem State.lineWrite_mem_wf (s : State) (n : StackId) (line : BitVec 30) (bs : List Byte) (h : s.mem.wf = true) :
    (s.lineWrite n line bs).mem.wf = true :=
  State.write_mem_wf s _ _ h

theorem Tab.wf_wipe {α : Type} [DecidableEq α] (d : α) (t : Tab α) (lo n : Nat) (h : Tab.wf d t = true) :
    Tab.wf d (Tab.wipe t lo n) = true :=
  Tab.wf_filter _ _ _ h

theorem State.wipe_mem_wf (s : State) (a n : Nat) (h : s.mem.wf = true) :
    (s.wipe a n).mem.wf = true := by
  rw [Mem.wf_iff] at h ⊢
  exact ⟨Tab.wf_wipe _ _ _ _ h.1, Tab.wf_wipe _ _ _ _ h.2.1, h.2.2⟩

theorem State.clearSpk_mem (s : State) (i : Nat) : (s.clearSpk i).mem = (s.wipe (bankBase i) 65536).mem := by
  unfold State.clearSpk
  generalize s.wipe (bankBase i) 65536 = u
  rfl

theorem State.clearSpk_mem_wf (s : State) (i : Nat) (h : s.mem.wf = true) : (s.clearSpk i).mem.wf = true := by
  rw [State.clearSpk_mem]
  exact State.wipe_mem_wf s _ _ h

theorem State.clearPan_mem_wf (s : State) (p : Nat) (h : s.mem.wf = true) :
    (s.clearPan p).mem.wf = true := by
  have h2 := State.wipe_mem_wf s (storeBase p) 524288 h
  unfold State.clearPan
  revert h2
  generalize s.wipe (storeBase p) 524288 = u
  generalize List.range 64 = l
  exact fun h2 => foldl_mem_wf (fun u k hu => State.clearSpk_mem_wf u (p * 64 + k) hu) l u h2

theorem State.bindPan_mem (s : State) (p : Nat) (o : BitVec 12 × BitVec 8) :
    (s.bindPan p o).mem =
      if (s.pan p).bound = some o then s.mem else if (s.pan p).toClear then (s.clearPan p).mem else s.mem := by
  unfold State.bindPan
  generalize s.clearPan p = u
  generalize List.range 64 = l
  by_cases h : (s.pan p).bound = some o
  · rw [if_pos h, if_pos h]
  · rw [if_neg h, if_neg h]
    refine (foldl_mem (g := fun s k => s.bindSpk (p * 64 + k) o) (fun _ _ => rfl) l _).trans ?_
    rw [State.mem_setPan]
    cases (s.pan p).toClear <;> rfl

theorem State.bindPan_mem_wf (s : State) (p : Nat) (o : BitVec 12 × BitVec 8) (h : s.mem.wf = true) :
    (s.bindPan p o).mem.wf = true := by
  have h2 := State.clearPan_mem_wf s p h
  rw [State.bindPan_mem]
  split
  · exact h
  · split
    · exact h2
    · exact h

theorem State.pfForget_mem (s : State) (a n : Nat) : (s.pfForget a n).mem = s.mem := by
  unfold State.pfForget
  generalize List.range 24 = l
  split
  · rfl
  · exact foldl_mem (fun u k => State.mem_setStack u k _) l s

theorem State.paPut_mem_wf (s : State) (a : Nat) (bs : List Byte) (h : s.mem.wf = true) :
    (s.paPut a bs).mem.wf = true := by
  rw [State.paPut, State.pfForget_mem]
  exact State.write_mem_wf s a bs h

theorem State.zeroFrames_mem_wf (s : State) (f n : Nat) (h : s.mem.wf = true) :
    (s.zeroFrames f n).mem.wf = true := by
  have h' := State.wipe_mem_wf s (f * 65536) (n * 65536) h
  rw [← State.pfForget_mem _ (f * 65536) (n * 65536)] at h'
  unfold State.zeroFrames
  revert h'
  generalize (s.wipe (f * 65536) (n * 65536)).pfForget (f * 65536) (n * 65536) = u
  intro h'
  rw [Mem.wf_iff] at h' ⊢
  exact ⟨h'.1, h'.2.1, Tab.wf_wipe _ _ _ _ h'.2.2.1, h'.2.2.2⟩

theorem State.zeroStack_mem_wf (s : State) (n : Nat) (h : s.mem.wf = true) :
    (s.zeroStack n).mem.wf = true := by
  rw [Mem.wf_iff] at h ⊢
  exact ⟨Tab.wf_filter _ _ _ h.1, h.2.1, Tab.wf_filter _ _ _ h.2.2.1, h.2.2.2⟩

theorem State.plantLine_mem_wf (s : State) (hm : HomeId) (r : HomeRec) (h : s.mem.wf = true) :
    (s.plantLine hm r).mem.wf = true := by
  simp only [State.plantLine]
  split
  · exact h
  · exact Mem.wf_setLine _ _ _ h
  · exact State.setEcc_mem_wf s _ _ h

/-- A stop of the package keeps host memory and nothing else of memory. -/
theorem State.cold_mem_wf (s : State) (h : s.mem.wf = true) : s.cold.mem.wf = true := by
  rw [Mem.wf_iff] at h ⊢
  exact ⟨rfl, rfl, rfl, h.2.2.2⟩

/-! ### Operations that leave memory as it is -/

@[simp] theorem State.mem_tick (s : State) : s.tick.mem = s.mem := rfl
@[simp] theorem State.mem_draw (s : State) : s.draw.2.mem = s.mem := rfl
@[simp] theorem State.mem_drawBytes (s : State) (n : Nat) : (s.drawBytes n).2.mem = s.mem := rfl
@[simp] theorem State.mem_postEdge (s : State) (e : Edge) : (s.postEdge e).mem = s.mem := rfl
@[simp] theorem State.mem_dropEdge (s : State) (e : Edge) : (s.dropEdge e).mem = s.mem := rfl
@[simp] theorem State.mem_log (s : State) (code cls : Nat) (ctx : Option (BitVec 12)) (src aux : Ec) (detail : Nat) :
    (s.log code cls ctx src aux detail).mem = s.mem := rfl

@[simp] theorem State.mem_record (s : State) (i : Nat) (f : Fin 16) (k : FKind) (code : Nat) (pc : BitVec 20)
    (detail : W64) : (s.record i f k code pc detail).mem = s.mem := by
  simp only [State.record]
  split <;> rfl

@[simp] theorem State.mem_raise (s : State) (i : Nat) (f : Fin 16) (k : FKind) (code : Nat) (pc : BitVec 20)
    (detail : W64) : (s.raise i f k code pc detail).mem = s.mem := by
  have h := State.mem_record s i f k code pc detail
  simp only [State.raise]
  split
  · exact h
  · split <;> exact h

@[simp] theorem State.mem_raiseOpen (s : State) (i : Nat) (f : Fin 16) (k : FKind) (code : Nat) (pc : BitVec 20) :
    (s.raiseOpen i f k code pc).mem = s.mem :=
  State.mem_raise s.draw.2 i f k code pc s.draw.1

@[simp] theorem State.mem_putSlot (s : State) (i n : Nat) (x : Slot) : (s.putSlot i n x).mem = s.mem := rfl
@[simp] theorem State.mem_setSlot (s : State) (i n : Nat) (x : Slot) : (s.setSlot i n x).mem = s.mem := rfl

end Sys2Proof.Machine
end

