-- ==== Sys2Proof/WellFormed.lean ====
section
/-! DEFINITION. Which commands can be sent: the bounds that the operands' types do not carry. -/

namespace Sys2Proof

/-- A packet carries at most 2,048 bytes (R314). -/
def Packet.wf (p : Packet) : Bool := decide (p.payload.length ≤ 2048)

/-- Errors lie within the `n` 128-bit words that a read covers (R42, R611). -/
def hitsWf (n : Nat) (hits : List EccHit) : Bool := hits.all (fun h => decide (h.word < n))

/-- A line of 64 bytes has eight words that can be corrected (R239). -/
def LineEcc.wf (e : LineEcc) : Bool := decide (e.ce ≤ 8)

/-- A granary request writes one line of 64 bytes (R221). -/
def GrnReq.wf (r : GrnReq) : Bool := !r.write || decide (r.bytes.length = 64)

/-- The ranges of a start request's fields: a window of at most 64 rows, of which LW_RES are resident (R192), and a PC at a
whole instruction (R119). A window that runs past the bank is the sequencer's to refuse. -/
def StartReq.wf (r : StartReq) : Bool :=
  decide (r.lwRows.toNat ≤ 64) && decide (r.lwRes.toNat ≤ r.lwRows.toNat) && decide (r.pc.toNat % 4 = 0)

/-- The start requests of a step are in range. -/
def StepDesc.wf (d : StepDesc) : Bool := d.starts.all (fun r => r.wf)

/-- A finding of rows names some. -/
def Finding.wf : Finding → Bool
  | .grnRows _ rows => !rows.isEmpty
  | .bankRows _ rows bad => !(rows.isEmpty && bad.isEmpty)
  | .storeRows _ rows bad => !(rows.isEmpty && bad.isEmpty)
  | _ => true

/-- A steward message forwards commands of 64 bytes (R405, R425). -/
def StwMsg.wf : StwMsg → Bool
  | .forward _ _ _ _ bytes => decide (bytes.length = 64)
  | _ => true

/-- An access through BAR4 reads or writes some bytes. -/
def sizeWf (n : Nat) : Bool := decide (0 < n)

/-- A command that can be sent. Operands of other commands are bounded by their types. -/
def Instr.wf : Instr → Bool
  | .ibufFill _ hits => hitsWf 4 hits
  | .bankAccessGrant _ hits | .latRowArrive _ _ hits => hitsWf 8 hits
  | .latOpHead _ hits => hitsWf 3 hits
  | .broadcastBeat _ hits => hitsWf 9 hits
  | .reply p | .getReq p | .putReq p | .addReq p | .swapReq p | .orReq p | .casReq p | .syncSigReq p | .syncWaitReq p
  | .readReq p | .writeReq p | .packetRoute _ _ p | .packetAgeDrop _ p | .sheafTransmit _ _ _ p | .transportReceive _ _ p
  | .ack _ p | .nak _ p | .resyncPacket _ p | .redUp _ p | .redDown _ p | .redAbort _ p | .prepareStaging _ p
  | .prepare _ p | .lock _ p | .vote _ p | .commit _ p | .applied _ p | .abort _ p | .release _ p | .releaseAck _ p
  | .wound _ p | .bndQuery _ p | .bndDecision _ p | .woundReply _ p => p.wf
  | .floretStart _ pc _ _ lwRows lwRes =>
    decide (lwRows.toNat ≤ 64) && decide (lwRes.toNat ≤ lwRows.toNat) && decide (pc.toNat % 4 = 0)
  | .stewardMsg p m => p.wf && m.wf
  | .runAheadWrite _ off _ bytes => decide (off.toNat + bytes.length ≤ 65536)
  | .granaryRequest _ r => r.wf
  | .granaryReadReturn _ _ e => e.wf
  | .launchGraph _ _ g _ => g.all (fun d => d.wf)
  | .copy _ _ remote _ => decide (remote.length ≤ 2048)
  | .bistComplete finds analog => finds.all (fun x => x.wf) && decide (analog < 256)
  | .bootPhaseComplete _ finds | .tillerWave _ _ finds | .domainReentryComplete _ _ finds => finds.all (fun x => x.wf)
  | .bar4Access _ size none => sizeWf size
  | .bar4Access _ _ (some bytes) => sizeWf bytes.length
  | .bar4Timeout _ size _ => sizeWf size
  | .bootData _ block bytes => decide (block < 16384) && decide (bytes.length = 1024)
  | .fwBlock _ block => decide (block < 16384)
  | .unitShadow _ bytes => decide (bytes.length = 64)
  | .powerSample watts | .pBaseUpdate watts | .thermalForecastRefit watts => decide (watts < 65536)
  | .requestUpdate image => decide (image.length ≤ 16777216)
  | .challenge _ _ nonce | .getMeasurements _ _ _ nonce => decide (nonce.length = 32)
  | _ => true

end Sys2Proof
end

