-- ==== Sys2Proof/Tests/Slice0.lean ====
section
/-! SUPPORT. Tests: states and operands that meet the hypotheses of the statements (the witnesses), worked examples of the
spec, and commands that `Instr.wf` refuses. -/

namespace Sys2Proof.Tests
open Machine
set_option Elab.async false

theorem test_reset_mem : State.reset.mem.wf = true := by decide

/-! ### Small machines -/

/-- A floret that may issue, with 0x100 in s1, 7 in s2 and p0 set. -/
def flo : Floret := (({ status := .runnable, preds := 1 } : Floret).wr 1 0x100).wr 2 7

/-- Floret 0 and its spikelet, with the first line of instructions fetched. -/
def st (fl : Floret) (sp : Spikelet := {}) : State := (State.reset.setFloret 0 fl).setSpk 0 { sp with ibuf := [0] }

/-- The state that a command leads to. -/
def after (o : Out) : Option State :=
  match o with
  | .next t => some t
  | _ => none

/-- An identity heard on a straw: this straw's echo. -/
def roll : RollFrame :=
  { holdsPlan := false, echoValid := true, up := false, rack := 0, x := 0, y := 0, z := 0, kind := 1, serial := 0, straw := 0,
    plan := 0, echoSerial := 0, echoStraw := 0 }

theorem ready_st : Ready (st flo) 0 0 [3, 1, 2] := by unfold Ready Fetched Fetches; decide

theorem fetched_st : Fetched (st flo) 0 [3, 1, 2] := ready_st.1

/-! ### Witnesses: states and operands that meet the hypotheses of the statements -/

theorem witness_StepRunsFrontCommand :
    ({ State.reset with pending := [.parkExpire 0] } : State).pending = .parkExpire 0 :: [] ∧ State.reset.pending = [] := by decide

theorem witness_MemoryStaysCanonical : State.reset.mem.wf = true ∧ (after (step State.reset)).isSome = true := by decide

theorem witness_OtpGenerationsFit : State.reset.sec.otp.cfg.length ≤ 4 ∧ State.reset.sec.otp.rep.length ≤ 4 := by decide

theorem witness_DecodeEncode :
    floretOf (.latMm 5 0 3 0 3 4) = some 5 ∧ encodeFloret (.latMm 5 0 3 0 3 4) = some 0xA0003203 ∧
    decodeFloretWord 5 0xA0003203 = some (.latMm 5 0 3 0 3 4) := by decide

/-- A register other than s0, a true guard, a false guard (p1 is clear), a reserved field, and each form of `sh.i`. -/
theorem witness_IntegerInstructions :
    (3 : BitVec 5) ≠ 0 ∧ Ready (st flo) 0 0 [3, 1, 2] ∧ (Fetched (st flo) 0 [3, 1, 2] ∧ ((st flo).floret 0).guard 9 = false) ∧
    (7 : BitVec 12).toNat / 64 = 0 ∧ (0x407 : BitVec 12).toNat / 64 = 0x10 ∧ (0x83F : BitVec 12).toNat / 64 = 0x20 ∧
    ((0x40 : BitVec 12).toNat / 64 ≠ 0 ∧ (0x40 : BitVec 12).toNat / 64 ≠ 0x10 ∧ (0x40 : BitVec 12).toNat / 64 ≠ 0x20) := by
  refine ⟨by decide, ready_st, ⟨fetched_st, by decide⟩, ?_⟩
  decide

theorem witness_MovKResults : Ready (st flo) 0 0 [3] ∧ (2 : BitVec 2) ≠ 3 ∧ Fetched (st flo) 0 [3] := by
  unfold Ready Fetched Fetches; decide

theorem witness_PredicateResults :
    Ready (st flo) 0 0 [1, 2] ∧ (7 : BitVec 5).toNat < 8 ∧ Ready (st flo) 0 0 [] ∧ Ready (st flo) 0 0 [3] ∧ Ready (st flo) 0 0 [1] ∧
    Fetched (st flo) 0 [1, 2] ∧ 8 ≤ (8 : BitVec 5).toNat := by unfold Ready Fetched Fetches; decide

/-- Targets of `jr`: the last aligned one in the store, one past it, and a misaligned one. -/
theorem witness_BranchTargets :
    Ready (st flo) 0 0 [3] ∧ Fetched (st flo) 0 [3, 1] ∧ ((st flo).floret 0).guard 9 = false ∧ Ready (st flo) 0 0 [3, 1] ∧
    ((0x7FFFC : W64).toNat < 2 ^ 19 ∧ (0x7FFFC : W64).toNat % 4 = 0) ∧ 2 ^ 19 ≤ (0x80000 : W64).toNat ∧
    ((0x7FFFE : W64).toNat < 2 ^ 19 ∧ (0x7FFFE : W64).toNat % 4 ≠ 0) := by unfold Ready Fetched Fetches; decide

/-- A floret that is not RUNNABLE, one past the store, one whose line is missing; an IDLE one, one of each wait. -/
theorem witness_FloretsIssueAndEnd :
    floretOf (.add 0 0 3 1 2) = some 0 ∧ (State.reset.floret 0).status ≠ .runnable ∧
    (((st { flo with pc := 0x80000 }).floret 0).status = .runnable ∧ 0x80000 ≤ ((st { flo with pc := 0x80000 }).floret 0).pc.toNat) ∧
    (((st { flo with pc := 64 }).floret 0).pc.toNat < 0x80000 ∧
      ((st { flo with pc := 64 }).floret 0).pc.toNat / 64 ∉ ((st { flo with pc := 64 }).spk 0).ibuf) ∧
    (384 : BitVec 9).toNat + (128 - 1 : BitVec 7).toNat ≤ 512 ∧ (State.reset.floret 0).status = .idle ∧
    (∀ w ∈ [BlockWhy.ibuf 0, .slot, .latQueue, .bank], ((st { flo with status := .blocked w }).floret 0).status = .blocked w) ∧
    (0 ∈ ((st flo).spk 0).ibuf ∧ ((st flo).spk 0).mayTake 0 = true ∧ ((st flo).spk 0).latQ.length < 4 ∧
      ∀ r ∈ ((st flo).spk 0).bankQ, r.floret ≠ 0) ∧
    (((st flo).spk 0).slot 5 = none ∧ ((st flo).spk 0).outstanding 0 ≤ 0) ∧
    (((st { flo with status := .halting }).floret 0).status = .halting ∧ ∀ e ∈ ((st flo).spk 0).spill, e.dirty = false) := by
  decide

/-- The last aligned word of the bank, a misaligned address, the first address past the bank; a load and a store at the
head of the bank's queue, and a row of the landing set. -/
theorem witness_BankAccesses :
    Ready (st flo) 0 0 [3, 1] ∧
    ((65528 : Nat) < 65536 ∧ 65528 % 8 = 0 ∧ flo.spilled 65528 = none) ∧ (65529 : Nat) % 2 ≠ 0 ∧ (65536 % 8 = 0 ∧ 65536 ≤ 65536) ∧
    (let r : BankReq := { floret := 0, pc := 0, off := 16376, op := .load 3 8, order := 0 }
     let s := st flo { bankQ := [r] }
     (s.spk 0).bankQ = r :: [] ∧ (s.spk 0).drainFirst r = false ∧ s.shadowHit 0 r.off 8 = false ∧
     ∀ row ∈ rowsOf r.off 8, ∀ w < 8, s.eccAt ((bankBase 0 + row * 128) / 16 + w) = none) ∧
    (let r : BankReq := { floret := 0, pc := 0, off := 16376, op := .store 3 8, order := 0 }
     let s := st flo { bankQ := [r] }
     (s.spk 0).drainFirst r = false ∧ r.off + 8 ≤ 65536 ∧ s.shadowHit 0 r.off 8 = false) ∧
    (let s := st flo { shadow := BitVec.ofNat 512 (2 ^ 127) }
     s.shadowHit 0 16376 8 = true) := by
  refine ⟨?_, by decide, by decide, by decide, by decide +kernel, by decide +kernel, by decide +kernel⟩
  unfold Ready Fetched Fetches; decide

/-- The last word of the store, a misaligned address, the first address past the store; a missing line that is clean,
one that is uncorrectable, and a missed row whose leaf the TLB holds. -/
theorem witness_PanicleStoreAndFills :
    Ready (st flo) 0 0 [3, 1] ∧
    (524280 < 524288 ∧ 524280 % 8 = 0 ∧ (st flo).storeHeld 0 524280 8 = false ∧
      ∀ w ∈ wordsOf 524280 8, (st flo).eccAt (storeBase 0 / 16 + w) = none) ∧
    (524281 % 4 ≠ 0) ∧ (524288 % 8 = 0 ∧ 524288 ≤ 524288) ∧
    (let s := st { flo with status := .blocked (.ibuf 8191) }
     (s.floret 0).status = .blocked (.ibuf 8191) ∧ s.storeHeld 0 (8191 * 64) 64 = false ∧
     ∀ w ∈ wordsOf (8191 * 64) 64, s.eccAt (storeBase 0 / 16 + w) = none) ∧
    (let s := (st { flo with status := .blocked (.ibuf 8191) }).setEcc (storeBase 0 / 16 + 32767) (some true)
     (∃ w ∈ wordsOf (8191 * 64) 64, s.eccAt (storeBase 0 / 16 + w) = some true) ∧ (s.spk 0).frec.valid = false) ∧
    (let m : SpillMiss := { row := 0, dst := 3, off := 0, bytes := 8, store := none }
     let s0 := st { flo with status := .blocked .spill, miss := some m }
     let va := s0.spillVa 0 0 0
     let e : TlbEntry := { ctx := 0, gen := 0, size := 16, vpn := va / 2 ^ 16, pte := BitVec.ofNat 64 (2 ^ 63 + 2 ^ 61), leafAt := 0 }
     let s := s0.setPan 0 { s0.pan 0 with tlb := [e] }
     (s.floret 0).status = .blocked .spill ∧ (s.floret 0).miss = some m ∧ (s.spk 0).spill = [] ∧
     (s.pan 0).tlb = e :: [] ∧ e.ctx = (s.spk 0).owner.1 ∧ e.gen = (s.spk 0).owner.2 ∧ e.vpn = s.spillVa 0 0 0 / 2 ^ e.size ∧
     e.pte.getLsbD 61 = true ∧ s.lineUe (pteAddr e.pte + s.spillVa 0 0 0 % 2 ^ e.size) 128 = false) := by
  refine ⟨?_, by decide, by decide, by decide, by decide +kernel, by decide +kernel, by decide +kernel⟩
  unfold Ready Fetched Fetches; decide

/-- An aligned local cell, a virtual one, and misaligned and malformed addresses; every slot of the floret free, none free
(4 in use); a leaf that the TLB holds. -/
theorem witness_RemoteOperations :
    (Ready (st flo) 0 0 [3, 1] ∧ (0x100 : W64).toNat % 8 = 0 ∧ ((st flo).gaddr 0x100).isSome = true ∧
      ((st flo).spk 0).mayTake 0 = true ∧ ((st flo).spk 0).freeSlot = some 0) ∧
    (0x101 : W64).toNat % 8 ≠ 0 ∧ ((st flo).gaddr 0xC000000000000000).isNone = true ∧
    (let x : Slot := { floret := 0, kind := .get }
     ((st flo { slots := [(0, some x), (1, some x), (2, some x), (3, some x)] }).spk 0).mayTake 0 = false) ∧
    (ctxAddr 0x100 = .virtual ∧ ctxAddr 0x8002FFFFFFF = .bank 12287 65535 ∧ ctxAddr 0x90000000000 = .store 0 0 ∧
      ctxAddr 0x90040000000 = .other) ∧ (((st flo).gaddr 0x100).map GAddr.own) = some true ∧
    (((st flo).gaddr 0x8004000000000100).map GAddr.own) = some false ∧
    (let e : TlbEntry := { ctx := 0, gen := 0, size := 16, vpn := 0, pte := BitVec.ofNat 64 (2 ^ 61 + 2 ^ 60 + 2 ^ 57), leafAt := 0 }
     e.pte.getLsbD 61 = true ∧ e.pte.getLsbD 60 = true ∧ e.pte.getLsbD 57 = true ∧ e.vpn = 0x100 / 2 ^ e.size) ∧
    Ready (st flo) 0 0 [] ∧ (3 : BitVec 5).toNat < 4 ∧
    (∀ p ∈ [(SlotKind.signal, SlotStage.held), (.get, .sent), (.cas, .resetting), (.wait, .sent)],
      let x : Slot := { floret := 0, kind := p.1, stage := p.2 }
      ((st flo { slots := [(63, some x)] }).spk 0).slot 63 = some x ∧ ((st flo { slots := [(63, some x)] }).spk 0).drains = []) := by
  unfold Ready Fetched Fetches; decide +kernel

/-- A count at each end of its range and past it; a barrier never set, one with an arrival missing, one whose last arrival
comes; a park of one microsecond and of none. -/
theorem witness_BarriersAndSystem :
    (7 : BitVec 5).toNat < 8 ∧ Ready (st flo) 0 0 [1] ∧ Ready (st flo) 0 0 [] ∧ Ready (st flo) 0 0 [3] ∧
    ((1 : W64).toNat ≤ 1024 ∧ (1024 : W64).toNat ≤ 1024 ∧ 1024 < (1025 : W64).toNat ∧ (0 : W64).toNat < 1) ∧
    (Tab.get ({} : Barrier) ((st flo).pan 0).barriers 7).count = 0 ∧
    (let bar : Barrier := { count := 2 }
     bar.arrivals + 1 < bar.count ∧ 0 < bar.count ∧ bar.count ≤ ({ bar with arrivals := 1 } : Barrier).arrivals + 1) ∧
    flo.bundle = none ∧ ({ flo with bundle := some 3 } : Floret).bundle = some 3 := by
  unfold Ready Fetched Fetches; decide +kernel

/-- Bundle slots free and all taken, an open bundle; a put of 256 bytes that ends at the bank's end; a full log. -/
theorem witness_BundlesOfFlorets :
    (Ready (st flo) 0 0 [3, 1, 2] ∧ Tab.get none ((st flo).pan 0).slots 0 = none) ∧
    (let o : OpenBundle := { floret := 5, seq := 1 }
     let s := (st flo).setPan 0 { slots := [(0, some o), (1, some o), (2, some o), (3, some o)] }
     ∀ j < 4, Tab.get none (s.pan 0).slots j ≠ none) ∧
    (let o : OpenBundle := { floret := 0, seq := 1 }
     let s := (st { flo with bundle := some 3 }).setPan 0 { slots := [(3, some o)] }
     s.openBundle 0 = some (3, o) ∧ s.bndFull o 0x100 = false ∧ (s.gaddr 0x100).isSome = true ∧
     s.badTarget (s.spk 0).owner.1 0x90000000000 = false ∧ s.shadowHit 0 0x3F00 256 = false ∧
     ((s.spk 0).mayTake 0 = true ∧ (s.spk 0).freeSlot = some 0) ∧ (s.panBnd 0).coord.countP (fun r => r.sent) < 16 ∧
     (s.spk 0).drains = [] ∧ o.acts = []) ∧
    ((256 : W64).toNat ≤ 256 ∧ 0xFF00 + 256 ≤ 65536) ∧ (st flo).openBundle 0 = none ∧
    (let r : CoordRec := { id := { ec := 0, seq := 1 }, floret := 0, ctx := 0, gen := 0, targets := [], sent := true }
     16 ≤ (List.replicate 16 r).countP (fun r => r.sent)) := by
  unfold Ready Fetched Fetches; decide +kernel

/-- Free and full queues, valid and invalid rows, tiles in use and not; the drains' three destinations; posts that pass
their checks. -/
theorem witness_LatticeAndPosts :
    (Ready (st flo) 0 0 [3, 1, 2] ∧ ((st flo).spk 0).latQ.length < 4) ∧
    (let o : LatOp := { floret := 0, pc := 0, fmt := 0, sa := 0, sb := 0 }
     4 ≤ ({ latQ := [o, o, o, o] } : Spikelet).latQ.length ∧ ({ latQ := [o] } : Spikelet).busy 0 = true) ∧
    ((255 : BitVec 12).toNat < 256 ∧ (3 : BitVec 12).toNat < 4) ∧
    (({} : Spikelet).busy 3 || ({} : Spikelet).draining 0 3) = false ∧
    (({ invalid := BitVec.ofNat 128 (2 ^ 127) } : Spikelet).invalid.getLsbD (3 * 32 + 31) = true ∧
      ({} : Spikelet).invalid.getLsbD (3 * 32 + 31) = false) ∧
    (let sd : W64 := BitVec.ofNat 64 (32 * 2 ^ 7)
     ∃ m c, drainFmt (sd.extractLsb' 13 5) = some m ∧ CvtCtl.ofByte (sd.extractLsb' 18 8) = some c ∧
       fld sd 63 28 = 0 ∧ fld sd 12 7 = 32 ∧ fld sd 27 26 = 0 ∧ m.isMx = false ∧ 65536 - 32 * 4 * m.bytes + 32 * 4 * m.bytes ≤ 65536) ∧
    (fld (BitVec.ofNat 64 (2 ^ 26)) 27 26 = 1 ∧ fld (BitVec.ofNat 64 (2 ^ 27)) 27 26 = 2) ∧
    (let c : W64 := BitVec.ofNat 64 0
     (∀ m ∈ bitsSet (1 : W64), (st flo).floor.spkDead (0 * 64 + m) = false) ∧ ((st flo).pan 0).bidUsed (bcBid c) = false ∧
     ((st flo).pan 0).red (c.setWidth 8) = none) ∧
    (∀ j, ((st flo).spk j).drains = []) ∧
    (524256 < 524288 ∧ 524256 % 32 = 0 ∧ (st flo).storeHeld 0 524256 32 = false ∧
      ∀ w ∈ wordsOf 524256 32, (st flo).eccAt (storeBase 0 / 16 + w) = none) := by
  refine ⟨by unfold Ready Fetched Fetches; decide +kernel, by decide +kernel, by decide +kernel, by decide +kernel, by decide +kernel,
    ⟨.fp32, { hr := 0, sat := false, rnd := 0 }, by decide +kernel⟩, by decide +kernel, by decide +kernel, ?_, by decide +kernel⟩
  intro j
  rw [st, State.spk_setSpk]
  split <;> rfl

/-- A lattice operation of one index: FP8 weights and activations, overwrite. -/
def op : LatOp :=
  { floret := 0, pc := 0, fmt := 3, sa := BitVec.ofNat 64 (2 ^ 52 + 3 * 2 ^ 40 + 2 ^ 27), sb := 0 }

/-- The same operation with its weight row there. -/
def opArmed : LatOp :=
  { op with headed := true, armed := true, weights := { come := 1, rows := [List.replicate 128 0] } }

/-- A broadcast of one index to member 0, identifier 0. -/
def bc : Bcast := { mask := 1, ctl := BitVec.ofNat 64 (2 ^ 8), poster := 0, slot := 0 }

theorem witness_Conversions :
    Ready (st flo) 0 0 [3, 1, 2] ∧ CvtCtl.ofByte 0x06 = some { hr := 0, sat := true, rnd := 2 } ∧ cvtTarget 1 = some .bf16 ∧
    CvtCtl.ofByte 0x23 = none ∧ cvtTarget 31 = none ∧ (∃ m, Fmt.ofCode 3 = some m ∧ m ≠ .fp32) ∧ Fmt.ofCode 31 = none ∧
    (Ready (st flo) 0 0 [3, 1] ∧ Ready (st flo) 0 0 [1]) ∧
    ((65408 : W64).toNat < 65536 ∧ (65408 : W64).toNat % 128 = 0 ∧ (65472 : W64).toNat % 32 = 0 ∧ (65472 : W64).toNat + 4 * 16 ≤ 65536) := by
  unfold Ready Fetched Fetches
  refine ⟨by decide +kernel, by decide +kernel, by decide +kernel, by decide +kernel, by decide +kernel, ⟨.e4m3, by decide +kernel⟩,
    by decide +kernel, by decide +kernel, by decide +kernel⟩

/-- An empty record and a full one; a row and a word that await their write-back. -/
theorem witness_FaultsAndCorrections :
    ((st flo).spk 0).frec.valid = false ∧ ((st flo { frec := { valid := true } }).spk 0).frec.valid = true ∧
    ((st flo).floret 0).status ≠ .idle ∧ (0 : Fin 512) ∈ ((st flo { fixRows := [0] }).spk 0).fixRows ∧
    (let s := (st flo).setPan 0 { fixWords := [32767] }
     (32767 : Fin 32768) ∈ (s.pan 0).fixWords) := by decide +kernel

/-- An operation to be checked, one that fails its check, one that waits for its row, one with a row of the landing set,
one that is done, an armed one. -/
theorem witness_LatticeOperationsProgress :
    (let sp : Spikelet := { latQ := [op] }
     sp.latQ[0]? = some op ∧ sp.toHead = some 0 ∧ op.wfmt = some .e4m3 ∧ op.check sp = none ∧ (op.rsf && Fmt.isMx .e4m3) = false) ∧
    (let bad : LatOp := { op with sa := 0 }
     ({ latQ := [bad] } : Spikelet).toHead = some 0 ∧ bad.check { latQ := [bad] } = some 0x0B) ∧
    (let sp : Spikelet := { latQ := [{ op with headed := true }] }
     sp.rowFor .weights = some 0 ∧ sp.shadow.getLsbD (op.first .weights + (op.stream .weights).come) = false ∧
     ({ sp with shadow := 1 } : Spikelet).shadow.getLsbD 0 = true) ∧
    (op.done = false ∧ ({ op with done := true } : LatOp).done = true) ∧
    (opArmed.armed = true ∧ opArmed.done = false) := by decide +kernel

/-- A post with room and without, a broadcast whose member is armed, whose member is not, and a beat. -/
theorem witness_BroadcastsAndDrains :
    (let pn : Panicle := { posts := [bc] }
     pn.posts = bc :: [] ∧ pn.waitList.length < 8 ∧ 8 ≤ ({ pn with waitList := List.replicate 8 bc } : Panicle).waitList.length) ∧
    (let s := (st flo { latQ := [opArmed] }).setPan 0 { waitList := [bc] }
     (s.pan 0).running = none ∧ (s.spk 0).armedFor (bcBid bc.ctl) = some 0 ∧ (s.spk 0).latQ[0]? = some opArmed ∧
     opArmed.disagrees bc.ctl = false) ∧
    ((st flo).spk 0).armedFor (bcBid bc.ctl) = none ∧
    (let s := (st flo { latQ := [opArmed] }).setPan 0 { running := some bc }
     (s.pan 0).running = some bc ∧ bitsSet bc.mask = [0] ∧ opArmed.wfmt = some .e4m3 ∧ opArmed.afmt = some .e4m3 ∧
     opArmed.sparse = false ∧ bcSparse bc.ctl = false ∧ bcElem bc.ctl = Fmt.bytes .e4m3 ∧ opArmed.ready .e4m3 = true ∧
     s.storeHeld 0 0 4 = false ∧ bcMx bc.ctl = false ∧ opArmed.ovw = true ∧ (∀ x ∈ wordsOf 0 4, s.eccAt (storeBase 0 / 16 + x) = none)) ∧
    (let s := ((st flo { latQ := [opArmed] }).setPan 0 { running := some bc }).setEcc (storeBase 0 / 16) (some true)
     ∃ x ∈ wordsOf 0 4, s.eccAt (storeBase 0 / 16 + x) = some true) ∧
    (let d : Drain := { floret := 0, pc := 0, tile := 3, sd := 0, sa := 0, dst := .bank 65408, data := List.replicate 128 0 }
     let s := st flo { drains := [d] }
     (s.spk 0).drains.find? (fun x => x.tile = 3) = some d ∧ (s.spk 0).drainWaits d = false ∧ 65408 + d.data.length ≤ 65536 ∧
     d.pieces = [] ∧ (s.spk 0).drainSlots d = false ∧ d.held = false) ∧
    (let d : Drain := { floret := 0, pc := 0, tile := 3, sd := 0, sa := 0, dst := .tree 5, held := true }
     ({ drains := [d] } : Spikelet).drains.find? (fun x => x.held && decide (x.dst = .tree 5)) = some d) ∧
    (let r : PanRed := { poster := 0, pc := 0, mask := 0, ctl := 0 }
     let s := (st flo).setPan 0 { reds := [(0, r)] }
     (s.pan 0).red 0 = some r ∧ (∀ m ∈ bitsSet r.mask, ∃ t ∈ r.subs, t.member.val = m) ∧ r.started = false ∧ redDst r.ctl = 0 ∧
     redDst (BitVec.ofNat 64 (2 ^ 14)) = 1 ∧ redDst (BitVec.ofNat 64 (2 ^ 15)) = 2) := by decide +kernel

/-! #### Memory, bundles and steps -/

/-- Requesters waiting at a bank, at a pseudo-channel, none waiting; a grant that may be split and one that stalls. -/
theorem witness_ArbitersDecide :
    (0 < 4 ∧ ∀ r ∈ [0, 2, 3], r < 4) ∧
    (let s := State.reset
     s.waitingAt (.bank 0) = [] ∧ Tab.get 0 (s.arb (.hbm 0 63)).reqs 6 = 0 ∧
     (s.stack 0).throttled = false ∧ s.pwr.grnThrottle = false ∧ s.waitingAt (.hbm 0 63) = []) ∧
    (let s := State.reset.setArb (.bank 0) { reqs := [(2, 1)] }
     winnerOf (arbSize (.bank 0)) (s.prioOf (.bank 0)) (s.arb (.bank 0)).start (s.waitingAt (.bank 0)) = some 2) ∧
    (let s := State.reset.setArb (.hbm 0 63) { reqs := [(0, 1)] }
     s.waitingAt (.hbm 0 63) ≠ [] ∧ winnerOf 6 (s.prioOf (.hbm 0 63)) (s.arb (.hbm 0 63)).start (s.waitingAt (.hbm 0 63)) = some 0) ∧
    (let s := State.reset.setArb (.hbm 0 63) { reqs := [(6, 1)] }
     0 < Tab.get 0 (s.arb (.hbm 0 63)).reqs 6) ∧
    (let s := State.reset.setStack 0 { throttled := true, gapOwed := BitVec.ofNat 64 (2 ^ 63), refresh := [(63, 1)] }
     (s.stack 0).gapOwed.getLsbD 63 = true ∧ 0 < Tab.get 0 (s.stack 0).refresh 63) ∧
    (let h : Grant := { who := 2, bytes := 128, whole := false }
     let s := State.reset.setArb (.bank 0) { holder := some h }
     (s.arb (.bank 0)).holder = some h ∧ 64 < h.bytes ∧ (1 + 63) / 64 * 64 < h.bytes) ∧
    (∃ e, arbEmergency (.hbm 0 0) = some e) := by
  refine ⟨by decide +kernel, by decide +kernel, by decide +kernel, by decide +kernel, by decide +kernel, by decide +kernel,
    by decide +kernel, ⟨6, by decide +kernel⟩⟩

/-- A bank with three waiting requests of florets 15, 0 and 15, where the lattice's posted request wins or waits not. -/
def banked (lat : Nat) : State :=
  let r (f : Fin 16) (n : Nat) : BankReq := { floret := f, pc := 0, off := 65528, op := .load 1 8, order := n }
  (State.reset.setSpk 5 { bankQ := [r 15 0, r 0 1, r 15 2] }).setArb (.bank 5) { reqs := if lat = 0 then [] else [(0, lat)], known := [0, 2] }

/-- Requesters of each instance that wait; the florets' class loses to the lattice, and is granted. -/
theorem witness_TurnHints :
    (let s := banked 1
     winnerOf 3 (s.prioOf (.bank 5)) (s.arb (.bank 5)).start (s.waitingAt (.bank 5)) = some 0 ∧ (s.spk 5).bankQ.length = 3) ∧
    (let s := banked 0
     Tab.get 0 (s.arb (.bank 5)).reqs 3 = 0 ∧
     winnerOf 3 (s.prioOf (.bank 5)) (s.arb (.bank 5)).start (s.waitingAt (.bank 5)) = some 2 ∧ (s.spk 5).bankQ.length = 3) ∧
    (let o : GrnOpen := { id := 0, req := { line := BitVec.ofNat 30 (2 ^ 30 - 1), cls := 5, ctx := 0, gen := 0, write := false, mask := 0, bytes := [] } }
     let s := State.reset.setStack 23 { openReqs := [o] }
     5 ∈ s.waitingAt (.hbm 23 (linePc o.req.line))) ∧
    (let q : Packet := { kind := 1, op := 0x80, src := 0x10 }
     let s := { State.reset with fab := { State.reset.fab with sent := [q] } }
     s.injects 0 0 q = true ∧ (s.injQueue 0 0).head? = some q) ∧
    (let s0 := State.reset.setStraw 31 { state := .up, heard := some roll }
     let s := { s0 with fab := { s0.fab with routed := [{ die := 7, at_ := 225, out := true, exit := .toSheaf 10 7 0, pkt := { vc := 7 } }] } }
     s.sheafOf 31 = some 10 ∧ s.shfWaits 10 7 7 = { vc := 7 } :: [] ∧ s.shfNext 10 7 { vc := 7 } = some 31 ∧
     (s.shfQueue 31 7).head? = some { vc := 7 }) := by decide +kernel

/-- Floret 15's later request has two ahead of it where its class lost, one where its first was granted; it is BLOCKED (R48). -/
theorem test_turn_hints :
    ((after (exec (.arbiterDecision (.bank 5) 0 3) ((banked 1).setFloret 95 { status := .runnable }))).map
      (fun t => ((t.floret 95).hint, (t.floret 95).status)) = some (BitVec.ofNat 64 (2 ^ 63 + 2 * 256 + 2), .blocked .bank)) ∧
    (after (exec (.arbiterDecision (.bank 5) 0 3) (banked 0))).map (fun t => ((t.floret 95).hint, (t.floret 80).hint)) =
      some (BitVec.ofNat 64 (2 ^ 63 + 256 + 1), BitVec.ofNat 64 (2 ^ 63)) := by decide +kernel

/-- A reply of a home that is being injected, and a floret's request whose slot waits for its answer. -/
def injecting (q : Packet) (who : Nat) : State :=
  let s := State.reset.setArb (.inject 0) { holder := some { who := who, bytes := 64, whole := false }, given := [q] }
  { s.setSpk 0 { slots := [(63, some { floret := 15, kind := .get, dst := 3, stage := .sent })] } with
    fab := { s.fab with sent := [q] } }

/-- A grant for injection held with no packet there, with a reply, with a request of floret 15. -/
theorem witness_InjectionStalls :
    (((injecting { kind := 2 } 1).arb (.inject 0)).holder.isSome ∧ (injecting { kind := 2 } 1).injPkt 0 1 = none) ∧
    (let q : Packet := { kind := 1, op := 0x80, src := 0x10 }
     (injecting q 0).injPkt 0 0 = some q) ∧
    (let q : Packet := { kind := 0, op := 0x1F, src := 15, rtag := 63 }
     let s := injecting q 1
     s.injPkt 0 1 = some q ∧ ecFn q.src < 16 ∧ ecSpkIx q.src = 0 ∧ fld q.rtag 7 0 = 63 ∧
     ((s.spk 0).slot 63).map (·.stage) = some .sent ∧ q.rtag.getLsbD 8 = (s.spk 0).parity.getLsbD 63) := by decide +kernel

/-- A request of the steward for the last word of a store: it passes the checks and is clean. -/
def req (op : Nat) : Packet :=
  { dst := BitVec.ofNat 48 0x40, src := BitVec.ofNat 48 0x7F, op := BitVec.ofNat 8 op, addr := BitVec.ofNat 44 0x9000007FFF8, opa := 8, vc := 6 }

/-- A request at each kind of home; each operation passes, a wait below and at its threshold, one that fails a check. -/
theorem witness_RequestsArePerformed :
    Leads (req 1) (.store 0 524280) 524288 ∧
    (∀ op ∈ [0x01, 0x02, 0x03, 0x04, 0x05, 0x06, 0x08, 0x09, 0x10],
      State.reset.homeCheck (req op) (.store 0 524280) 524288 = 0 ∧
      State.reset.holder (.store 0 524280) (pktLen (req op)) = none) ∧
    (∀ w ∈ wordsOf 524280 8, State.reset.eccAt (storeBase 0 / 16 + w) = none) ∧
    (BitVec.ofNat 64 (ofLE (State.reset.homeBytes (.store 0 524280) 8)) < (req 9).opa ∧ (0 : W64) ≤ 0) ∧
    State.reset.homeCheck { req 1 with addr := BitVec.ofNat 44 0x9000007FFFC } (.store 0 524284) 524288 ≠ 0 ∧
    Leads { req 1 with dst := 0x10 } (.bank 0 65528) 65536 ∧
    Leads { req 1 with dst := 0x50, addr := 0 } (.grn 0) granaryEnd := by
  refine ⟨Or.inr (Or.inl ?_), by decide +kernel, by decide +kernel, by decide +kernel, by decide +kernel, Or.inl ?_, Or.inr (Or.inr (Or.inl ?_))⟩
  all_goals decide +kernel

/-- A reply to a slot that waits for it, one that matches nothing; a completion that its master waits for. -/
theorem witness_RepliesAndStewardMessages :
    (let x : Slot := { floret := 15, kind := .get, dst := 3 }
     let s := State.reset.setSpk 0 { slots := [(63, some x)] }
     let pkt : Packet := { dst := 15, rtag := 63 }
     ecFn pkt.dst < 16 ∧ (s.spk (ecSpkIx pkt.dst)).slot (pkt.rtag.toNat % 256) = some x ∧ x.floret.val = ecFn pkt.dst ∧ x.stage = .sent ∧
     pkt.rtag.getLsbD 8 = (s.spk 0).parity.getLsbD 63 ∧ pkt.gen = (s.ctx pkt.ctx.toNat).gen ∧ (s.spk 0).drains = [] ∧ pkt.status = 0 ∧
     { pkt with gen := 255 }.gen ≠ (s.ctx pkt.ctx.toNat).gen ∧ (State.reset.spk (ecSpkIx pkt.dst)).slot 63 = none) ∧
    (ecFn ({ dst := BitVec.ofNat 48 0xE00060 } : Packet).dst = 0x60 ∧ ecTil ({ dst := BitVec.ofNat 48 0xE00060 } : Packet).dst = 7) ∧
    (let c : HCmd := { seq := 1, bytes := [], cfg := 0, away := [63] }
     let s := State.reset.addCmd 5 c
     s.cmd 5 1 = some c ∧ c.via = none ∧ (63 : Fin 64) ∈ c.away) := by decide +kernel

/-- Page tables of three levels at 0x1000, 0x2000 and 0x3000 of context 1, with a page at 0x50000. -/
def paged : State :=
  (((State.reset.setCtx 1 { st := .live, l1 := 0x1000, farPool := [7], farMaps := [{ first := 0, count := 1, host := 0x70000 }] }).write 0x1000
    (toLE 8 (2 ^ 63 + 0x2000))).write 0x2000 (toLE 8 (2 ^ 63 + 0x3000))).write 0x3000 (toLE 8 (2 ^ 63 + 2 ^ 62 + 2 ^ 61 + 0x50000))

/-- A leaf at each level, an entry that is not valid, an uncorrectable one, no tables; a slot that waits for its walk, an
invalidation that one panicle owes, a far page. -/
theorem witness_PagesAreTranslated :
    (State.reset.ctx 1).st = .free ∧
    ((paged.ctx 1).st ≠ .free ∧ paged.lineUe 0x1000 8 = false ∧ (BitVec.ofNat 64 (ofLE (paged.read 0x1000 8)) : W64).getLsbD 63 = true ∧
      pteAddr (BitVec.ofNat 64 (ofLE (paged.read 0x1000 8))) = 0x2000 ∧ 0x2000 % 4096 = 0 ∧ 0x3000 % 256 = 0 ∧ 0x50000 % 2 ^ 16 = 0 ∧
      paged.walk 1 0 = .leaf { size := 16, pte := BitVec.ofNat 64 (2 ^ 63 + 2 ^ 62 + 2 ^ 61 + 0x50000), at_ := 0x3000 } ∧
      paged.walk 1 0x40000000 = .refuse 3) ∧
    ({ paged with mem := { paged.mem with line := [(0x40, some true)] } } : State).lineUe 0x1000 8 = true ∧
    (let y : Slot := { floret := 0, kind := .get, stage := .translating }
     let x : Xl := { ctx := 1, gen := 0, va := 0, write := false, who := .slot 0 63 }
     let s := (State.reset.setSpk 0 { slots := [(63, some y)] }).setPan 0 { walks := [x] }
     (s.pan 0).walks[0]? = some x ∧ (s.pan 0).misses = [] ∧ (s.spk 0).slot 63 = some y) ∧
    (let v : Inval := { ctx := 1, va := 0, len := 65536, waits := [0], frames := [], pages := 1, queue := 5, seq := 1 }
     let s0 := State.reset.setPan 0 { inval := [(1, 0, 65536)] }
     let s := { s0 with host := { s0.host with invals := [v] } }
     (s.pan 0).inval = [(1, 0, 65536)] ∧ s.accessIn 0 1 0 65536 = false ∧ s.host.invals = [v] ∧ v.waits = [0] ∧
     (∃ q ∈ ({ v with waits := [0, 1535] } : Inval).waits, q ≠ 0)) ∧
    (let s := paged.write 0x3000 (toLE 8 (2 ^ 63 + 2 ^ 62 + 2 ^ 61 + 2 ^ 59))
     let e := ofLE (s.read 0x3000 8)
     (s.ctx 1).farPool[0]? = some 7 ∧ s.l3At 1 0 = some 0x3000 ∧ (s.ctx 1).farHost (e / 2 ^ 16 % 2 ^ 28) = some 0x70000 ∧
     (s.ctx 1).st = .live ∧ e / 2 ^ 59 % 2 = 1 ∧ (s.ctx 1).farHeld = [] ∧ 0x3000 + 8 ≤ 7 * 65536) := by decide +kernel

/-- A descriptor of 2,048 bytes from one store to another, posted by a floret; a fence, a failed start; rows of a landing
set and not. -/
theorem witness_MoverDescriptors :
    (let d : MovFields := { src := 0x90000000000, dst := 0x90000080000, len := 2048, fence := false, sig := false, spec := false, resv := false, sync := 0 }
     let m : MovDesc := { id := 0, src := .floret 0 0 0, ctx := 0, gen := 0, d := d }
     let s0 := State.reset.setPan 0 { movs := [m], bound := some (0, 0) }
     let s := s0.setPan 1 { bound := some (0, 0) }
     (({ movPosts := [m] } : Panicle).movPosts = m :: [] ∧ s.movUsed 0 < 256) ∧
     s.mov 0 0 = some m ∧ m.stage = .waiting ∧ s.fenced 0 m = false ∧ s.movBad m = false ∧ (s.gaddr d.src).map GAddr.own = some true ∧
     (s.gaddr d.dst).map GAddr.own = some true ∧ ctxAddr 0x90000000000 = .store 0 0 ∧ ctxAddr 0x90000080000 = .store 1 0 ∧
     s.homeCheck (s.movPkt 0 m 0x10 2048 []) (.store 0 0) 524288 = 0 ∧
     s.homeCheck (s.movPkt 0 m 0x11 0 (s.storeRead 0 0 2048)) (.store 1 0) 524288 = 0 ∧
     s.storeHeld 0 0 2048 = false ∧ s.storeHeld 1 0 2048 = false ∧ ({ m with stage := .started } : MovDesc).stage = .started ∧
     s.movBad { m with d := { d with len := 0 } } = true ∧
     (let f : MovDesc := { m with id := 1, d := { d with fence := true } }
      (s0.setPan 0 { movs := [m, f] }).fenced 0 f = true)) ∧
    (∀ w ∈ wordsOf 0 2048, State.reset.eccAt (storeBase 0 / 16 + w) = none ∧ State.reset.eccAt (storeBase 1 / 16 + w) = none) ∧
    (let s := State.reset.setSpk 0 { landing := 9, shadow := 1 }
     ((9 : BitVec 8) = (s.spk 0).landing ∧ ∀ r ∈ rowsOf 0 128, (s.spk 0).shadow.getLsbD r = true) ∧
     ¬ ∀ r ∈ rowsOf 0 129, (s.spk 0).shadow.getLsbD r = true) := by decide +kernel

/-- A step of panicle 5 with a landing row, and its launch: quiet and faulted, waiting, to commit, done, cancelled. -/
theorem witness_StepsCommit :
    (let d : StepDesc := { panicles := [5], spikelets := [320], members := [], starts := [], landing := [(320, [511])], runAhead := [], cells := [] }
     let l : Launch := { queue := 5, seq := 1, ctx := 1, gen := 0, graph := [d], stage := .runAhead }
     let s := State.reset.setSeqr 0 { launches := [l] }
     s.launches = [l] ∧ (s.seqr 0).launches = [l] ∧ leadTiller l.graph = 0 ∧ l.outcome = none ∧ l.running = false ∧
     s.budgetPaused l = false ∧ ({ s with pwr := { s.pwr with emergency := true } } : State).budgetPaused l = true ∧
     l.graph[l.step]? = some d ∧ l.graph.length = l.step + 1 ∧ l.stage = .runAhead ∧ s.ahead l = [] ∧ s.deadUnit d = none ∧ d.starts = [] ∧
     (let r : Launch := { l with step := 1, running := true, waiting := [5] }
      let u := State.reset.setSeqr 0 { launches := [r] }
      tillerOfPan 5 = 0 ∧ u.launchOn 5 = some r ∧ 5 ∈ r.waiting ∧ u.panFault 5 = none ∧ r.running = true ∧ r.waiting ≠ [] ∧
      (u.setSpk 320 { frec := { valid := true, code := 8 } }).panFault 5 = some (8, u.spkEc 320 0) ∧
      r.graph.length ≤ r.step)) := by decide +kernel

theorem witness_GranaryHashIsABijection :
    granaryEnd - 1 < granaryEnd ∧ 23 < 24 ∧ 2 ^ 36 - 1 < 2 ^ 36 ∧ (hashPa 0x300059C0).1 < 24 := by decide +kernel

/-- A request at a controller that resets, at a full one, for a buffered line, and one that is opened; a clean line and an
uncorrectable one. -/
theorem witness_GranaryRequests :
    (let r : GrnReq := { cls := 0, line := BitVec.ofNat 30 (2 ^ 30 - 1), ctx := 0, gen := 0, write := false, mask := 0, bytes := List.replicate 64 0 }
     r.bytes.length = 64 ∧ (State.reset.stack 23).resetting = true ∧
     (let k : Stack := { resetting := false, pfBuf := [BitVec.ofNat 30 (2 ^ 30 - 1)] }
      k.resetting = false ∧ k.full r = false ∧ r.cls = 0 ∧ r.line ∈ k.pfBuf ∧ ({ r with cls := 5 } : GrnReq).cls ≠ 0) ∧
     (let o : GrnOpen := { id := 7, req := r, granted := true }
      let k : Stack := { resetting := false, openReqs := List.replicate 512 o }
      k.full r = true ∧ k.openReqs.find? (fun x => x.id = 7) = some o ∧ k.turn o = true ∧ k.turn { o with id := 8 } = false ∧
      k.hasLine r.line = true ∧ ({ resetting := false } : Stack).hasLine r.line = false ∧ wholeLine r = false ∧ k.credit = [] ∧ k.errValid = false ∧ k.ueValid = false) ∧
     State.reset.lineMark 0 0 ≠ some true) := by decide +kernel

/-! #### Stacks and the fabric -/

/-- Seven refreshes pending; temperatures at each limit; a scrubber that is on and off; a bank with a repair row left
and one without; a stream that a line lies in. -/
theorem witness_StacksAndPrefetchers :
    (let k : Stack := { refresh := [(63, 7)] }
     7 ≤ Tab.get 0 k.refresh 63) ∧
    ((84 : BitVec 8).toNat < 85 ∧ 85 ≤ (85 : BitVec 8).toNat ∧ 92 ≤ (92 : BitVec 8).toNat ∧ 95 ≤ (95 : BitVec 8).toNat ∧
      100 ≤ (100 : BitVec 8).toNat ∧ 105 ≤ (105 : BitVec 8).toNat ∧ (109 : BitVec 8).toNat < 110 ∧ 110 ≤ (110 : BitVec 8).toNat) ∧
    (({} : Stack).scrubEn = true ∧ State.reset.lineMark 0 ({} : Stack).scrubPos ≠ some true ∧ ({ scrubEn := false } : Stack).scrubEn = false) ∧
    (({} : Stack).rowsTaken (bankKey 0) < 2 ∧ 2 ≤ ({ soft := [rowKey 0, rowKey 0] } : Stack).rowsTaken (bankKey 0)) ∧
    (List.replicate 16 ((0 : BitVec 29), 1)).length ≤ 16 ∧
    (let x : TillerId × BitVec 29 × Nat := (0, BitVec.ofNat 29 (lineAddr 23 0 / 4096), 1)
     let k : Stack := { pfEn := true, streams := [x] }
     k.pfEn = true ∧ k.paused.getLsbD (linePc 0).val = false ∧ State.reset.lineHeld 23 (lineAddr 23 0 / 64) = false ∧ x ∈ k.streams ∧
     x.2.1.toNat ≤ lineAddr 23 0 / 4096 ∧ lineAddr 23 0 / 4096 < x.2.1.toNat + x.2.2 ∧ State.reset.lineMark 23 0 ≠ some true ∧
     ({} : Stack).pfEn = true ∧ ({ k with pfEn := false } : Stack).pfEn = false) := by decide +kernel

/-- A link that is up with eight failures, one that is down, one off the die; a bridge direction with plane A active and
plane B on standby, one that holds, one that is down. -/
theorem witness_LinksReceive :
    (let s := State.reset.setLink 0 5 { fails := 8 }
     (s.link 0 5).down = false ∧ 8 ≤ (s.link 0 5).fails ∧ ((State.reset.setLink 0 5 { down := true }).link 0 5).down = true) ∧
    meshOff 0 5 = false ∧ meshOff 0 0 = true ∧
    (let d : BDir := { a := { state := .active }, b := { state := .standby }, down := false }
     d.down = false ∧ d.hold = false ∧ (0 : BitVec 12) = d.expected ∧ (d.plane d.drive).state = .active ∧ (d.plane (!d.drive)).state = .standby ∧
     (({ d with b := { state := .faulted } } : BDir).plane true).state ≠ .standby ∧ ({} : BDir).down = true ∧
     (0xFFF : BitVec 12) ≠ d.expected) := by
  decide +kernel

theorem witness_BridgeLinksAndPlanes :
    (let d : BDir := { a := { state := .active }, b := { state := .standby }, down := false }
     ({ d with hold := true } : BDir).hold = true ∧ d.down = false ∧ d.hold = false ∧
     (let e : BDir := { d with nakSeq := some 9, nakRun := 7 }
      8 ≤ (if e.nakSeq = some 9 then e.nakRun + 1 else 1) ∧ (if e.nakSeq = some 8 then e.nakRun + 1 else 1) < 8) ∧
     (if d.drive then true else false) = false ∧ (if d.drive then false else true) = true ∧
     ((d.plane d.drive).state = .active ∧ (d.plane (!d.drive)).state = .standby ∧ State.reset.healthy (d.plane (!d.drive)) = true)) ∧
    (let x : BPlane := { state := .faulted, sparing := [(287, 7)], spares := [(7, { used := true, lane := 287, returning := true })] }
     ({} : BDir).autoRetrain = true ∧ x.state = .faulted ∧ x.sparing.find? (fun q => q.1 = 287) = some (287, 7) ∧
     (x.spare 7).used = true ∧ (x.spare 7).returning = true ∧ x.stuck (x.spare 7).lane.toNat = false ∧
     ({ state := .held } : BPlane).state = .held ∧ ({} : BPlane).state = .retrain ∧
     8 < (List.replicate 9 (0 : Fin 288)).length ∧ (List.replicate 8 (0 : Fin 288)).length ≤ 8) := by decide +kernel

/-- A packet that the router holds, for its own die and for another, malformed, without an entry; a retired, a sealed and
a draining bank; an epoch to flip. -/
theorem witness_RoutersAndTables :
    (let pkt : Packet := { dst := BitVec.ofNat 48 (2 ^ 21 + 0x41) }
     let s0 := { State.reset with fab := { State.reset.fab with sent := [pkt] } }
     s0.hasPkt pkt = true ∧ State.reset.hasPkt pkt = false ∧ ecMalformed pkt.dst = false ∧ ecPkg pkt.dst = s0.fab.coord ∧ ecFn pkt.dst ≠ 0x7F ∧
     ((s0.die 1).entry pkt.epoch.toNat 0 (ecPanIx pkt.dst)).getLsbD 31 = false ∧ pkt.esc = false ∧ pkt.vc ≠ 7 ∧ ecTil pkt.dst = 1 ∧
     ecMalformed (BitVec.ofNat 48 (192 * 2 ^ 13)) = true) ∧
    (let e : W32 := BitVec.ofNat 32 (2 ^ 31 + 15 * 2 ^ 24)
     let e2 : W32 := BitVec.ofNat 32 (2 ^ 31 + 2 ^ 23 + 6 * 2 ^ 19)
     fld e 27 24 = 15 ∧ fld e2 27 24 < 12 ∧ fld e2 22 19 < 12 ∧ e2.getLsbD 23 = true) ∧
    (bridgeDirFrom 0 0 = some 0 ∧ bridgeDirFrom 0 6 = some 12 ∧ (State.reset.dir 0).down = true ∧
      ((State.reset.setDir 12 { down := false }).dir 12).down = false) ∧
    (let cmd : W32 := 0x1000FFF
     fld cmd 23 22 = 0 ∧ fld cmd 11 0 = 4095 ∧ (({} : DieRoute).bank 0 = .retired) ∧ (({ bank0 := .sealed } : DieRoute).bank 0 = .sealed) ∧
     tableSize 0 ≤ 4095 ∧ 1535 < tableSize 0) ∧
    (let s := (List.range 9).foldl (fun s k => s.setDie k { bank0 := .active, bank1 := .sealed }) State.reset
     (8 : DieId).val = 8 ∧ (1 : BitVec 1) ≠ s.fab.inj ∧
     ∀ k, k < 9 → (s.die k).bank (1 : BitVec 1).toNat = .sealed ∧ (s.die k).bank0 ≠ .draining ∧ (s.die k).bank1 ≠ .draining) := by
  decide +kernel

/-- An entry that expects packet 5: packets 5, 4 and 7; a packet with NEW after 2 ms; no entry; an endpoint without room;
a resend list of one. -/
theorem witness_TransportDelivers :
    (let key := peerKey (0x41 : Ec)
     let q : Packet := { src := 0x41, tseq := 0 }
     let x : Peer := { ep := 0, peer := key, expected := some 5, unacked := [q], ackOwed := true, lastRecv := some 0 }
     let s := { State.reset with fab := { State.reset.fab with peers := [x] }, refcnt := BitVec.ofNat 64 2000000 }
     s.peer 0 key = some x ∧ x.expected = some 5 ∧ s.since 0 ms2 = true ∧ tseqBefore 4 5 = true ∧ (7 : BitVec 16) ≠ 5 ∧ tseqBefore 7 5 = false ∧
     x.lastNak = none ∧ x.unacked = q :: [] ∧ x.retries < 3 ∧ x.ackOwed = true ∧
     s.evictable { x with unacked := [], ackOwed := false } = true ∧ s.evictable x = false ∧ s.fab.stalled = [] ∧
     State.reset.peer 0 key = none ∧ (State.reset.peersOf 0).length < 4096) := by
  decide +kernel

/-! #### Straws, trees and bundles -/

/-- A plan of zeros but for straw 0, whose peer is package 0 of the directory, whose serial is 0. -/
def plan0 : List Byte := (List.range 1616).map (fun i => if i = 40 then 1 else if i = 1088 + 3 then 1 else 0)

/-- An UP straw of a sheaf and of none; frames in SEQ and out of it; NAKs of one frame; each state that an event needs. -/
theorem witness_StrawsReceiveAndTrain :
    (let s := State.reset.setStraw 31 { state := .up }
     (s.straw 31).state = .up ∧ (State.reset.straw 31).state ≠ .up ∧ (5 : BitVec 14) ≠ (s.straw 31).rxNext ∧ (0 : BitVec 14) = (s.straw 31).rxNext ∧
     s.sheafOf 31 = some 10 ∧ (s.setSheaf 10 {}).sheafOf 31 = none ∧
     (let q : BitVec 10 × List Byte := (0, [])
      q.1 = Tab.get 0 (s.sheaf 10).rxNext (31 / 4 * 8 + 0) ∧ Tab.get [] (s.sheaf 10).reorder (31 / 4 * 8 + 0) = [] ∧
      ({ partly := some q } : Straw).partly = some q) ∧
     sseqBefore 1023 0 = true) ∧
    (let x : Straw := { state := .up, nakSeq := some 7, nakRun := 8 }
     9 ≤ (if x.nakSeq = some 7 then x.nakRun + 1 else 1) ∧ (if x.nakSeq = some 6 then x.nakRun + 1 else 1) < 9) ∧
    ((0xFE : BitVec 8) ≠ 0xFF ∧ ({ state := .training } : Straw).state = .training ∧ ({ state := .rollCall } : Straw).state = .rollCall ∧
      ({ state := .down } : Straw).auto = true ∧ ({ state := .held } : Straw).state = .held) ∧
    State.reset.expectsPeer 0 = false := by decide +kernel

/-- A trained straw; a second frame of the same identity under a plan that gives it its peer; packets with and without a
live member; a straw in two sheaves; a second OWNER; four torus straws that are gone. -/
theorem witness_RollCallAndRings :
    (let x : Straw := { state := .rollCall, heard := some roll, same := 1 }
     let s0 := State.reset.setStraw 0 x
     let s := { s0 with fab := { s0.fab with plan := some plan0 } }
     x.trained = true ∧ ({} : Straw).trained = false ∧ 1 ≤ x.same ∧ roll.echoSerial = s.sec.otp.serial ∧
     planPeer plan0 0 = some 0 ∧ planKnows plan0 roll.serial = true ∧ roll.straw.toNat = planStraw plan0 0 ∧ planPeer plan0 1 = none ∧
     s.expectsPeer 0 = true) ∧
    (let pkt : Packet := { pkgs := 14 }
     let s0 := State.reset.setStraw 31 { state := .up, heard := some roll }
     let s := { s0 with fab := { s0.fab with sent := [pkt] } }
     s.hasPkt pkt = true ∧ State.reset.hasPkt pkt = false ∧ pkt.pkgs ≠ 15 ∧ (s.liveOn 10 7).filter (fun w => (0xFFFFFFFF : W32).getLsbD w) = [31] ∧
     State.reset.liveOn 10 7 = []) ∧
    ((State.reset.sheaf 10).members &&& 0xC0000000 ≠ 0 ∧ popc (0x1FFFF : W32) = 17 ∧ popc (0xFFFF : W32) = 16) ∧
    ((State.reset.live 10).length < popc (State.reset.sheaf 10).members ∧ (State.reset.sheaf 10).degraded = false) ∧
    ((0x80000000 : W32).getLsbD 31 = true ∧ (({ share := [(15, 0x80000000)] } : Straw).shareAt 15).getLsbD 31 = true) ∧
    (State.reset.torusTo 0 2 = none ∧ State.reset.torusTo 2 3 = some [24, 25, 26, 27] ∧
      (let s := State.reset.setStraw 24 { state := .down, missingSeen := true }
       (∀ w ∈ [24, 25, 26, 27], (s.straw w).state ≠ .up) ∧ (s.straw 24).missingSeen = true ∧ (s.ring 2).absent.getLsbD 3 = false)) := by
  refine ⟨by decide +kernel, by decide +kernel, by decide +kernel, by decide +kernel, by decide +kernel, by decide +kernel⟩

/-- A node of a tree of two children: words 0 and 1 of Table 10-2. -/
def node : RedNode := { words := [BitVec.ofNat 32 (2 ^ 31 + 2 ^ 30 + 2 ^ 28), BitVec.ofNat 32 (9 * 2 ^ 24)] }

/-- A packet up of that tree from child 1. -/
def upPkt : Packet :=
  { word := redWord 16 0 1 { tree := 9, tag := 0, chunk := 0 } false false 0, payload := List.replicate 16 0, op := 0x30, kind := 3 }

/-- A packet without an entry, on a closed key, of a child past the fan-in, first of its key and last; keys that gather
and that await a result. -/
theorem witness_ReductionNodes :
    (({} : Combiner).find upPkt = none ∧ ({ nodes := [node] } : Combiner).find upPkt = some 0 ∧
      ({ nodes := [node], closed := [pktKey upPkt] } : Combiner).closed.contains (pktKey upPkt) = true) ∧
    (node.root = true ∧ node.fanin = 2 ∧ pktCidx upPkt < node.fanin ∧ pktRfn upPkt = node.rfn ∧ node.rfn ≠ 1 ∧
      node.used < node.win * node.fanin ∧
      ∀ d, d < node.fanin → (State.reset.setStraw 0 { state := .up }).edgeDown (node.cvia d) = false) ∧
    (let x : NodeKey := { key := pktKey upPkt, parts := [(0, some (List.replicate 16 0))] }
     let e : RedNode := { node with keys := [x] }
     e.key (pktKey upPkt) = some x ∧ x.st = .gather ∧ (Tab.set none x.parts 1 (some upPkt.payload)).length = e.fanin ∧
     ({ nodes := [e] } : Combiner).ofKey (pktKey upPkt) = some 0 ∧ ({} : Combiner).ofKey (pktKey upPkt) = none ∧
     ({ x with st := .awaitDown } : NodeKey).st = .awaitDown) ∧
    (let e : RedNode := { words := [BitVec.ofNat 32 (2 ^ 31 + 2 ^ 28), 0, 0, 0, 0, 0, 0, 0, 0, 0, 0, 0] }
     e.root = false ∧ e.fanin = 2 ∧ State.reset.edgeDown (entryPvia e.words) = true ∧ State.reset.edgeDown (e.cvia 1) = true ∧
     (State.reset.setStraw 0 { state := .up }).edgeDown (entryPvia e.words) = false ∧
     ({ e with keys := [{ key := pktKey upPkt, parts := [(0, none), (1, none)] }] } : RedNode).used = e.win * e.fanin) ∧
    (pktDown upPkt = false ∧ upPkt.gen = (State.reset.ctx upPkt.ctx.toNat).gen ∧ (1 : BitVec 8) ≠ (State.reset.ctx 0).gen) := by
  decide +kernel

/-- A leaf of tree 9 with its sync cell at the store's last word. -/
def leaf9 : RedLeaf := { words := [BitVec.ofNat 32 (2 ^ 31), BitVec.ofNat 32 (9 * 2 ^ 24), 0, 0, BitVec.ofNat 32 524280] }

/-- A post with a leaf and without, out of order, with a full window; a chunk that awaits its result. -/
theorem witness_LeavesPostAndComplete :
    (let q : RedPost := { poster := 0, pc := 0, tree := 9, step := 0, chunk := 0, roff := 0, h := 32, masked := true, payload := [] }
     let u : LeafUnit := { posts := [q], leaves := [leaf9] }
     State.reset.movUsed 0 < 256 ∧ ({ u with leaves := [] } : LeafUnit).find 9 = none ∧ u.find 9 = some 0 ∧ u.leaves[0]? = some leaf9 ∧
     State.reset.storeHeld 0 q.roff (q.h * 16) = false ∧ leaf9.badPost q = false ∧ leaf9.out.length < leaf9.win ∧
     ({ leaf9 with last := some (0, 0) } : RedLeaf).badPost q = true ∧
     leaf9.win ≤ ({ leaf9 with out := [{ key := pktKey upPkt, roff := 0 }] } : RedLeaf).out.length) ∧
    (let o : LeafChunk := { key := pktKey upPkt, roff := 0 }
     let e : RedLeaf := { leaf9 with out := [o] }
     let u : LeafUnit := { leaves := [e] }
     u.leaves.findIdx? (fun e => e.v && decide (e.tree = (pktKey upPkt).tree) && decide (e.slice = upPkt.slice) && decide (e.ctx = upPkt.ctx)) = some 0 ∧
     e.out.find? (fun x => x.key = pktKey upPkt) = some o ∧ e.sync % 8 = 0 ∧ e.res = false ∧ o.roff + 16 ≤ e.sync ∧
     u.leaves.findIdx? (fun e => e.out.any (fun o => o.key = pktKey upPkt)) = some 0 ∧
     ({ words := [BitVec.ofNat 32 (2 ^ 31 + 2 ^ 30)] } : RedLeaf).res = true) ∧
    (∀ w ∈ wordsOf 524280 8, State.reset.eccAt (storeBase 0 / 16 + w) = none) ∧ State.reset.leafHeld 0 upPkt = false := by
  decide +kernel

/-- A PREPARE of one action at the store of panicle 0 and the record it makes. -/
def prep : Packet := { op := 0x20, data := true, word := bndDataWord 16 { floret := 0, spk := 0, seq := 1, tidx := 0 } true 0, payload := toLE 8 (2 ^ 62 + 0x9000007FFF8) ++ toLE 8 1, dst := 0x41 }

/-- A record of one locked line. -/
def rec1 : HomeRec :=
  { id := { ec := 0, seq := 1 }, ctx := 0, gen := 0, slice := 0, coord := 0, req := prep, lines := [(storeBase 0 / 64, true)] }

/-- Staging with a slot free and full; a resetting home, a check that fails, a table with room; records that are locking,
prepared and committed; a decision for and against; another generation. -/
theorem witness_HomesTakePart :
    (let k : StrawSlots := { parts := [{ slice := 0, red := 0, bnd := 1 }] }
     (k.staged.countP (fun x => x.slice = 0) < 1) ∧ 1 ≤ ({ k with staged := [{ slice := 0, pkt := prep }] } : StrawSlots).staged.countP (fun x => x.slice = 0)) ∧
    (let s := State.reset.setPan 0 { bound := some (0, 0) }
     s.homeDown (.store 0) = false ∧ s.homeDown (.stack 0) = true ∧ (s.setDom 8 { st := .reset }).homeDown (.store 0) = true ∧
     s.homeRec (.store 0) (bndIdOf (bndCoord prep) (bndRef prep)) = none ∧ bndPart prep = 0 ∧ bndLast prep = true ∧
     (parseActs 256 prep.payload).any (badAct (.store 0)) = false ∧ s.bndCheck (.store 0) prep = 0 ∧ State.reset.bndCheck (.store 0) prep ≠ 0 ∧
     lockEntries (s.recs (.store 0)) + 1 ≤ homeCap (.store 0)) ∧
    (let s := State.reset.setRecs (.store 0) [rec1]
     s.homeRec (.store 0) rec1.id = some rec1 ∧ rec1.waiters = [] ∧ rec1.agent = false ∧ rec1.st = .locking ∧ rec1.lines ≠ [] ∧
     (∀ l ∈ rec1.lines, l.2 = true) ∧ (∀ l ∈ rec1.lines.map (fun l => l.1), storeBase 0 ≤ l * 64) ∧
     (∀ w ∈ wordsOf 0 64, s.eccAt (storeBase 0 / 16 + w) = none) ∧
     ({ rec1 with st := .prepared } : HomeRec).st = .prepared ∧ ({ rec1 with st := .committed } : HomeRec).st = .committed) ∧
    (let c : Packet := { word := bndCtlWord { floret := 0, spk := 0, seq := 1, tidx := 0 } 0 0 }
     bndIdOf (bndCoord c) (bndRef c) = rec1.id ∧ bndIdOf c.src (bndRef c) = rec1.id ∧ bndHgen c = State.reset.homeGen (.store 0) ∧
     bndCode c = 0 ∧ bndCode { c with word := bndCtlWord { floret := 0, spk := 0, seq := 1, tidx := 0 } 5 0 } = 5 ∧
     bndHgen { c with word := bndCtlWord { floret := 0, spk := 0, seq := 1, tidx := 0 } 0 1 } ≠ State.reset.homeGen (.store 0)) := by
  decide +kernel

/-! #### The host's queues and commands -/

/-- A started command 1 with an opcode and parameters. -/
def hcmd (op : Nat) (ps : List Nat) (cfg : W32 := 0) : HCmd :=
  { seq := 1, bytes := toLE 16 op ++ ps.flatMap (fun p => toLE 8 p), cfg := cfg, started := true }

/-- Queue 5 with one command. -/
def withCmd (c : HCmd) : State := State.reset.setQueue 5 { st := .running, cmds := [c] }

/-- No record, an undecided one and a committed one of a target; votes for and against; a controller's vote at an agent. -/
theorem witness_CoordinatorsDecide :
    (let t : BndTarget := { dst := 0x40, parts := [] }
     let r : CoordRec := { id := { ec := 0, seq := 1 }, floret := 0, ctx := 0, gen := 0, targets := [t], sent := true, owed := some (0, 3) }
     let pkt : Packet := { word := bndCtlWord { floret := 0, spk := 0, seq := 1, tidx := 0 } 0 0 }
     let s := State.reset.setPanBnd 0 { coord := [r] }
     let id := bndIdOf (s.coordEc 0) (bndRef pkt)
     s.coordRec 0 id = some r ∧ State.reset.coordRec 0 id = none ∧ r.committed = false ∧ (∀ x ∈ (s.panBnd 0).coord, x.sent = true) ∧
     (s.spk 0).drains = [] ∧ fromStack pkt = false ∧ bndCode pkt = 0 ∧ r.targets[(bndRef pkt).tidx]? = some t ∧ r.owed.isSome = true ∧
     bndCode { pkt with word := bndCtlWord { floret := 0, spk := 0, seq := 1, tidx := 0 } 10 0 } = 10 ∧
     (putAt r.targets 0 { t with voted := true }).all (fun x => x.voted) = true ∧
     (putAt [t, t] 0 { t with voted := true }).all (fun x => x.voted) = false ∧
     ({ r with committed := true, owed := none } : CoordRec).committed = true ∧ t.torn = false) ∧
    (let pkt : Packet := { src := 0x50, word := bndCtlWord { floret := 0, spk := 0, seq := 1, tidx := 0 } 0 0 }
     let a : HomeRec := { id := { ec := 0, seq := 1 }, ctx := 0, gen := 0, slice := 0, coord := 0, req := {}, agent := true, ctrls := [{ stack := 0 }] }
     let s := State.reset.setRecs (.agent 0) [a]
     fromStack pkt = true ∧ s.homeRec (.agent 0) (bndIdOf (pkt.opa.setWidth 48) (bndRef pkt)) = some a ∧ a.waiters = [] ∧ a.st = .locking ∧
     stackOfEc pkt.src = 0 ∧ a.torn = false ∧ ({ a with st := .prepared } : HomeRec).st = .prepared) := by decide +kernel

/-- A queue whose turns are used up while another waits that has one left. -/
theorem witness_QueuesAndStewards_turns :
    (let c := { hcmd 0x13 [] with started := false }
     let s0 := (withCmd c).setQueue 6 { st := .running, cmds := [c] }
     let s := { s0 with host := { s0.host with turns := [(5, 1)] } }
     let left := fun (e : QueueId × HCmd) => Tab.get 0 s.host.turns e.1.val < 2 ^ fld e.2.cfg 25 24
     s.cmd 5 1 = some c ∧ ¬ left (5, c) ∧ (6, c) ∈ s.allCmds ∧ s.wantsTurn 6 c = true ∧ left (6, c)) := by decide +kernel

/-- A tail and a count at the ring's end and past it; a package that is up and one that is not; each queue state; commands
that a steward refuses and starts. -/
theorem witness_QueuesAndStewards :
    (let x : Queue := { st := .running, tail := 1 }
     let s := { State.reset.setQueue 5 x with boot := { State.reset.boot with phase := 8 } }
     x.live = true ∧ 2 ^ x.n < ((65 : W32) - x.head).toNat ∧ ¬ 2 ^ x.n < ((64 : W32) - x.head).toNat ∧ (1 : W32) ≠ x.cqCount ∧
     ((1 : W32) - x.cqCount).toNat < 2 ^ 31 ∧ s.boot.phase = 8 ∧ s.boot.recovery = false ∧ x.head ≠ x.tail ∧
     (x.head - x.cqHead).toNat < 2 ^ x.n ∧ s.inflight < 4096 ∧ State.reset.boot.phase ≠ 8) ∧
    (let c := hcmd 2 [0, 0, 8, 3]
     (withCmd c).cmd 5 1 = some c ∧ c.discard = false ∧ c.via = none ∧ c.opcode = 2 ∧ (withCmd c).cmd 5 2 = none ∧ c.started = true) ∧
    (let x : Queue := { irqOwed := 1, irq := BitVec.ofNat 32 (2 ^ 15) }
     0 < x.irqOwed ∧ x.irq.getLsbD 15 = true ∧ fld x.irq 23 16 ≤ x.irqOwed ∧ ({} : Queue).irqOwed = 0) ∧
    (State.reset.cfgOk (BitVec.ofNat 32 (2 ^ 30 + 10 * 2 ^ 26)) = true ∧ State.reset.cfgOk (BitVec.ofNat 32 (2 ^ 30 + 11 * 2 ^ 26)) = false ∧
      ({ st := .stopped } : Queue).live = false ∧ ({} : Queue).st = .disabled) ∧
    (State.reset.stew 3).turn = none ∧ (State.reset.stew 3).down = false ∧
    (∀ p ∈ [(0x13, true, false), (4, false, true), (9, false, false)],
      let c := { hcmd p.1 [] with started := false }
      (withCmd c).cmd 5 1 = some c ∧ ((withCmd c).queue 5).mayStart c = true ∧ (opKnown c.opcode = !p.2.1) ∧ c.reserved = false ∧
      (p.1 = 0x13 ∨ c.permitted = p.2.2) ∧ (withCmd c).ctxHere c = false ∧ c.dv = false) ∧
    (let c := { hcmd 4 [] (BitVec.ofNat 32 (2 ^ 30)) with started := false }
     c.permitted = true ∧ (withCmd c).ctxHere c = true ∧ c.via = none ∧ (withCmd c).isMaster = true ∧ c.all = false ∧ c.dv = false) := by
  decide +kernel

/-- Each opcode running with the least and the greatest parameters that it takes, and with bad ones. -/
theorem witness_CommandsMoveAndSignal :
    (let c := hcmd 2 [0, 0x1000, 0x1000, 3]
     (withCmd c).running 5 1 2 = some c ∧ 0 < c.p 2 ∧ c.p 2 ≤ 2 ^ 40 ∧ c.p 3 % 4 = 3 ∧ (withCmd c).hostGone c = false ∧ c.step = 0 ∧
     c.p 0 + c.p 2 ≤ c.p 1 ∧ (hcmd 2 [0, 0, 0, 3]).p 2 = 0 ∧ 2 ^ 40 < (hcmd 2 [0, 0, 2 ^ 40 + 1, 3]).p 2 ∧
     (withCmd c).hostGone { c with discard := true } = true) ∧
    (let c := hcmd 3 [0x90000000000, 2048, 7]
     let s0 := (withCmd c).setPan 0 { bound := some (0, 0) }
     let bs := (List.range (c.p 1 / 8)).flatMap (fun _ => toLE 8 (c.p 2))
     s0.running 5 1 3 = some c ∧ c.p 0 % 8 = 0 ∧ c.p 1 % 8 = 0 ∧ c.p 1 = 2048 ∧ c.p 0 % 65536 + c.p 1 ≤ 65536 ∧
     (s0.gaddr (BitVec.ofNat 64 (c.p 0))).map GAddr.own = some true ∧ ctxAddr 0x90000000000 = .store 0 0 ∧
     s0.homeCheck (s0.cmdPkt c 0x11 0 bs) (.store 0 0) 524288 = 0 ∧ s0.holder (.store 0 0) 2048 = none ∧
     (hcmd 3 [4, 8, 7]).p 0 % 8 ≠ 0) ∧
    (let c := hcmd 5 [0x9000007FFF8, 1]
     let s0 := (withCmd c).setPan 0 { bound := some (0, 0) }
     s0.running 5 1 5 = some c ∧ c.p 0 % 8 = 0 ∧ s0.homeCheck (s0.cmdPkt c 0x08 1 []) (.store 0 524280) 524288 = 0 ∧
     s0.holder (.store 0 524280) 8 = none ∧ (hcmd 5 [4, 1]).p 0 % 8 ≠ 0 ∧ ctxAddr 0x9000007FFF8 = .store 0 524280) ∧
    (let c := hcmd 6 [0x9000007FFF8, 1, 1]
     let s0 := (withCmd c).setPan 0 { bound := some (0, 0) }
     s0.running 5 1 6 = some c ∧ s0.homeCheck (s0.cmdPkt c 0x09 1 []) (.store 0 524280) 524288 = 0 ∧
     s0.word (storeBase 0 + 524280) < BitVec.ofNat 64 (c.p 1) ∧ BitVec.ofNat 64 ((hcmd 6 [0, 0]).p 1) ≤ s0.word (storeBase 0 + 524280) ∧
     c.p 2 % 2 ^ 32 ≠ 0 ∧ (hcmd 6 [0, 1, 0]).p 2 % 2 ^ 32 = 0 ∧ ({ c with step := 1 } : HCmd).step ≠ 0 ∧ s0.host.stwReqs = []) ∧
    (∀ w ∈ wordsOf 0 2048, State.reset.eccAt (storeBase 0 / 16 + w) = none) ∧
    (let c := hcmd 4 [0]
     (withCmd c).running 5 1 4 = some c ∧ (withCmd c).fenceSet 5 c = [] ∧
     (let s := State.reset.setQueue 5 { cmds := [{ hcmd 2 [] with seq := 0 }, c] }
      s.running 5 1 4 = some c ∧ (s.fenceSet 5 c).filter (fun e => s.outstanding e) = [(5, 0)])) ∧
    (let c := { hcmd (1 + 20000 * 2 ^ 16) [0, 0, 0] with step := 0 }
     (withCmd c).running 5 1 1 = some c ∧ c.budget = 20000 ∧ c.p 0 % 64 = 0 ∧ (hcmd (1 + 20001 * 2 ^ 16) []).budget = 20001 ∧
     (hcmd 1 [8]).p 0 % 64 ≠ 0) := by decide +kernel

theorem not_in_short (b : Nat) : ∀ (n : Nat) (l : List Nat), l.length < n → ∃ f, b ≤ f ∧ f < b + n ∧ f ∉ l
  | 0, _, h => absurd h (Nat.not_lt_zero _)
  | n + 1, l, h => by
    by_cases hm : b + n ∈ l
    · have hl : (l.filter (fun x => decide (x ≠ b + n))).length < l.length :=
        List.length_filter_lt_length_iff_exists.mpr ⟨b + n, hm, by simp⟩
      obtain ⟨f, h1, h2, h3⟩ := not_in_short b n (l.filter (fun x => decide (x ≠ b + n))) (by omega)
      refine ⟨f, h1, by omega, fun hf => h3 ?_⟩
      simp only [List.mem_filter, decide_eq_true_eq]
      exact ⟨hf, by omega⟩
    · exact ⟨b + n, by omega, by omega, hm⟩

/-- Of the first 4,610 frames one is free right after reset: the dump region takes 4,096 in a row and the staged firmware
256. -/
theorem frame_free : ∃ f, f < 4610 ∧ State.reset.frameFree f = true := by
  have free : ∀ f, f < 4610 → (f < Config.dumpAddr / 65536 ∨ Config.dumpAddr / 65536 + 4096 ≤ f) →
      f ∉ Config.stagedFrames.take 256 → State.reset.frameFree f = true := by
    intro f h1 h2 h3
    have e : granaryEnd / 65536 = 25165824 := by decide +kernel
    simp only [State.frameFree, e, State.reset]
    have : f < 25165824 := by omega
    simp [this, h3]
    omega
  have hl : (Config.stagedFrames.take 256).length < 257 := by
    have := List.length_take_le 256 Config.stagedFrames
    omega
  obtain ⟨f, h1, h2, h3⟩ := not_in_short 0 257 _ hl
  obtain ⟨g, h4, h5, h6⟩ := not_in_short 4353 257 _ hl
  by_cases hf : f < Config.dumpAddr / 65536 ∨ Config.dumpAddr / 65536 + 4096 ≤ f
  · exact ⟨f, by omega, free f (by omega) hf h3⟩
  · exact ⟨g, by omega, free g (by omega) (by omega) h6⟩

/-- MAP of one page with good and bad sizes and ranges, nothing mapped and a page mapped; UNMAP of a page. -/
theorem witness_MapAndUnmap :
    (let m := hcmd 7 [0, 65536, 4, 0, 0] (BitVec.ofNat 32 (2 ^ 12))
     let s := paged.setQueue 5 { cmds := [m] }
     s.running 5 1 7 = some m ∧ m.step = 0 ∧ s.mapTurn m = true ∧ m.ctx = 1 ∧ m.p 2 % 4 = 0 ∧ m.rangeOk = true ∧ m.p 0 % 65536 = 0 ∧
     m.p 1 % 65536 = 0 ∧ (s.pagesIn 1 (stepsOf (m.p 1)) 0 65536).map (fun e => e.1) = [0] ∧ m.far = false ∧ m.p 4 = 0 ∧
     (hcmd 7 [0, 65536, 3]).p 2 % 4 = 3 ∧ (hcmd 7 [0, 0, 0]).rangeOk = false ∧ (hcmd 7 [0x7FFFFFFF000, 65536, 0]).rangeOk = false ∧
     (hcmd 7 [0x7FFFFFF0000, 65536, 0]).rangeOk = true ∧ s.mapAll m 16 [] [] [] = none) ∧
    (let m := hcmd 7 [0x10000, 65536, 4, 0, 0] (BitVec.ofNat 32 (2 ^ 12))
     let s := paged.setQueue 5 { cmds := [m] }
     s.pagesIn 1 (stepsOf 65536) 0x10000 0x20000 = [] ∧ (s.word 0x1000).toNat = 2 ^ 63 + 0x2000 ∧ (s.word 0x2000).toNat = 2 ^ 63 + 0x3000 ∧
     0x3000 + 8 * fieldOf 0x10000 20 16 + 8 ≤ 1 * 65536 ∧ ({ pages := [{ first := 1, count := 1 }] } : Ctx).within = true) ∧
    (let m := hcmd 8 [0, 65536] (BitVec.ofNat 32 (2 ^ 12))
     let s := paged.setQueue 5 { cmds := [m] }
     s.running 5 1 8 = some m ∧ (∃ l, s.pagesIn 1 (stepsOf 65536) 0 65536 = [(0, l)] ∧ 2 ^ l.size ≤ m.p 1 ∧ l.pte.getLsbD 59 = false) ∧
     (s.ctx 1).farHeld = [] ∧ s.pagesIn 1 (stepsOf 65536) 0x10000 0x20000 = []) := by
  refine ⟨by decide +kernel, by decide +kernel, by decide +kernel,
    ⟨{ size := 16, pte := BitVec.ofNat 64 (2 ^ 63 + 2 ^ 62 + 2 ^ 61 + 0x50000), at_ := 0x3000 }, by decide +kernel⟩, by decide +kernel, by decide +kernel⟩

/-- CTX_CREATE of a free, a live and a dying entry, with a quota of 0 and of one frame; CTX_DESTROY by the PF and by the
owner; a drain with and without its command; the last frame of a scrub. -/
theorem witness_ContextsLiveAndDie :
    (let m := hcmd 9 [0, 0x10000, 1, 65536]
     (withCmd m).running 5 1 9 = some m ∧ m.p 1 % 65536 = 0 ∧ m.p 1 < 0x80000000000 ∧ 0x80000000000 ≤ (hcmd 9 [0, 0x80000000000]).p 1 ∧
     fieldOf (m.p 2) 11 0 = 1 ∧ fieldOf (m.p 2) 12 12 = 0 ∧ fieldOf ((hcmd 9 [0, 0, 0x1000]).p 2) 12 12 = 1 ∧
     ((withCmd m).ctx 1).st = .free ∧ (paged.ctx 1).st = .live ∧ ((State.reset.setCtx 1 { st := .destroying }).ctx 1).st = .destroying ∧
     65536 ≤ m.p 3 ∧ (hcmd 9 [0, 0, 0, 0]).p 3 = 0) ∧
    (let m := hcmd 0x0A [1]
     let s := paged.setQueue 5 { cmds := [m] }
     s.running 5 1 0x0A = some m ∧ m.step = 0 ∧ m.p 0 % 4096 = 1 ∧ (s.ctx 1).st = .live ∧ m.fn = 0 ∧ s.bnd.pans = [] ∧ s.bnd.ctrls = [] ∧
     (hcmd 0x0A [1] 63).fn = 63 ∧ (hcmd 0x0A [1] 63).fn ≠ (s.ctx 1).fn) ∧
    (let s := State.reset.setCtx 4095 { st := .destroying }
     (s.ctx 4095).st = .destroying ∧ (s.ctx 4095).owner = none ∧ ((State.reset.setCtx 4095 { st := .destroying, owner := some (5, 1) }).ctx 4095).owner = some (5, 1) ∧
     s.running 5 1 0x12 = none ∧ (State.reset.ctx 4095).st ≠ .destroying) ∧
    fld (State.reset.queue 4095).cfg 5 0 = 0 := by decide +kernel

/-- A table that holds one value at every key of a list. -/
theorem get_const {α : Type} (d v : α) : ∀ (l : List Nat) (k : Nat), k ∈ l → Tab.get d (l.map (fun k => (k, v))) k = v
  | [], _, h => by simp at h
  | a :: l, k, h => by
    by_cases e : a = k
    · simp [Tab.get, e]
    · have := get_const d v l k (by simp at h; rcases h with h | h; exact absurd h.symm e; exact h)
      simp [Tab.get, e, this]

/-- Reset with some contexts live. -/
def liveCtxs (l : List Nat) : State :=
  { State.reset with host := { State.reset.host with ctxs := l.map (fun k => (k, ({ st := .live } : Ctx))) } }

theorem liveCtxs_st (l : List Nat) (k : Nat) (h : k ∈ l) : ((liveCtxs l).ctx k).st ≠ .free := by
  have e : (liveCtxs l).ctx k = { st := .live } := get_const _ _ _ _ h
  rw [e]
  decide

/-- Every entry taken: the case without a free one. -/
theorem witness_ContextsLiveAndDie_full (k : Nat) (hk : k < 4096) : ((liveCtxs (List.range 4096)).ctx k).st ≠ .free :=
  liveCtxs_st _ _ (List.mem_range.mpr hk)

/-- A slice of one package and of 64, too many, 64 slots and more; a tree's leaf, its node, another tree's record. -/
theorem witness_SlicesAndTrees :
    (let m := hcmd 0x0B [1, 0, 64, 32 + 32 * 2 ^ 8]
     (withCmd m).running 5 1 0x0B = some m ∧ fieldOf (m.p 0) 16 16 = 0 ∧ m.p 2 ≤ 64 ∧ fieldOf (m.p 3) 6 0 + fieldOf (m.p 3) 14 8 = 64 ∧
     (withCmd m).hostGone m = false ∧ (∀ a ∈ bitsSet (BitVec.ofNat 3 (fieldOf (m.p 3) 26 24)), (withCmd m).granted 1 a = true) ∧
     fieldOf ((hcmd 0x0B [65537]).p 0) 16 16 = 1 ∧ 64 < (hcmd 0x0B [1, 0, 65]).p 2 ∧
     64 < fieldOf ((hcmd 0x0B [1, 0, 1, 33 + 32 * 2 ^ 8]).p 3) 6 0 + fieldOf ((hcmd 0x0B [1, 0, 1, 33 + 32 * 2 ^ 8]).p 3) 14 8 ∧
     (withCmd m).granted 1 2 = false) ∧
    (let m := hcmd 0x0C [9]
     let r : TreeRec := { host := 0x41, straw := none, leaf := true, words := leaf9.words }
     let n : TreeRec := { host := 0x7E, straw := none, leaf := false, words := node.words }
     let s := withCmd m
     s.running 5 1 0x0C = some m ∧ fieldOf (m.p 0) 8 8 = 0 ∧ fieldOf ((hcmd 0x0C [0x109]).p 0) 8 8 = 1 ∧ (s.treesOf m.ctx).contains 9 = false ∧
     (({ words := r.words } : RedNode).tree = 9 ∧ ({ words := r.words } : RedNode).ctx = m.ctx) ∧ s.treeBusy 9 = false ∧
     ecPkg r.host = s.fab.coord ∧ s.recDead r = false ∧ (s.leaf (ecPanIx r.host)).leaves.length < 8 ∧ (List.replicate 8 leaf9).length = 8 ∧
     fld (entryWord n.words 0) 29 28 ≠ 0 ∧ s.combFits [n] (recComb n) = true ∧
     (let t := s.setLeaf 0 { leaves := [leaf9] }
      t.treeBusy 9 = true) ∧
     ({ words := [0, BitVec.ofNat 32 (8 * 2 ^ 24)] } : RedNode).tree ≠ 9) := by decide +kernel

/-! #### Images, admin commands -/

/-- A golden table with the entries that every part runs (R459). -/
def golden : List Byte :=
  [(1, 0), (1, 1), (1, 2), (2, 0), (2, 1), (2, 2), (3, 0), (3, 1), (3, 2), (4, 0), (4, 1), (4, 2), (5, 2)].flatMap (fun (p : Nat × Nat) =>
    toLE 32 (p.1 + p.2 * 256))

/-- SHAKE256 of nothing, of 57 zeros and of `golden`, computed outside the model (FIPS 202). -/
def shakeNone : List Byte :=
  [0x46, 0xB9, 0xDD, 0x2B, 0x0B, 0xA8, 0x8D, 0x13, 0x23, 0x3B, 0x3F, 0xEB, 0x74, 0x3E, 0xEB, 0x24,
   0x3F, 0xCD, 0x52, 0xEA, 0x62, 0xB8, 0x1B, 0x82, 0xB5, 0x0C, 0x27, 0x64, 0x6E, 0xD5, 0x76, 0x2F,
   0xD7, 0x5D, 0xC4, 0xDD, 0xD8, 0xC0, 0xF2, 0x00, 0xCB, 0x05, 0x01, 0x9D, 0x67, 0xB5, 0x92, 0xF6,
   0xFC, 0x82, 0x1C, 0x49, 0x47, 0x9A, 0xB4, 0x86, 0x40, 0x29, 0x2E, 0xAC, 0xB3, 0xB7, 0xC4, 0xBE]

def shakeKey : List Byte :=
  [0x2C, 0xF0, 0x7C, 0xA8, 0xD9, 0xAB, 0x1A, 0x4B, 0xB0, 0x90, 0x2E, 0x25, 0xA9, 0xB9, 0x07, 0x59,
   0xDD, 0x54, 0xD8, 0x81, 0xF5, 0x4D, 0x52, 0xA7, 0x6A, 0x17, 0xE7, 0x9B, 0xF0, 0x36, 0x1C, 0x32,
   0x56, 0x50, 0xF1, 0x27, 0x46, 0xE4, 0x33, 0x7F, 0xFB, 0x59, 0x40, 0xE7, 0x66, 0x5A, 0xD7, 0xBF,
   0x83, 0xF4, 0x4A, 0xF9, 0x8D, 0x96, 0x4B, 0x3E, 0x60, 0xDE, 0x4E, 0x35, 0xEE, 0xA6, 0x58, 0xD6]

def shakeGolden : List Byte :=
  [0x83, 0xB5, 0x16, 0xE3, 0x08, 0xC3, 0xD4, 0xEF, 0x62, 0xF9, 0x9F, 0xC3, 0x4D, 0x69, 0x22, 0x0A,
   0x3D, 0xF0, 0xB8, 0x6C, 0xF9, 0xD1, 0x29, 0x4F, 0xFA, 0x8C, 0x21, 0x74, 0x8F, 0xE0, 0x0C, 0xBC,
   0x0B, 0x91, 0x60, 0x17, 0xCF, 0x4F, 0x5C, 0x44, 0xFC, 0x93, 0x1F, 0x46, 0x28, 0xA3, 0x88, 0x2D,
   0xFE, 0xD3, 0x40, 0x56, 0x97, 0xBA, 0xF5, 0x4F, 0xA6, 0xBB, 0xDB, 0x89, 0x71, 0x03, 0xC2, 0x75]

theorem test_shake_none : shake256 [] 64 = shakeNone := by decide +kernel

theorem test_shake_key : shake256 (List.replicate 57 0) 64 = shakeKey := by decide +kernel

theorem test_shake_golden : shake256 golden 64 = shakeGolden := by decide +kernel

/-- A component of a manifest. -/
def comp (type off len : Nat) (digest : List Byte) : List Byte := toLE 4 type ++ toLE 4 off ++ toLE 8 len ++ digest

/-- An image for SKU 3 in life cycle 0: a manifest, two empty components and a golden table. -/
def image : List Byte :=
  toLE 4 0x464D5848 ++ toLE 2 1 ++ [3, 1] ++ toLE 4 7 ++ toLE 4 8 ++ List.replicate 120 0 ++
  comp 1 0 0 shakeNone ++ comp 2 0 0 shakeNone ++ comp 3 604 416 shakeGolden ++ List.replicate 228 0 ++ golden

/-- The image as a table. -/
def imageTab : Tab Byte := Tab.setMany 0 [] 0 image

/-- A part whose root key hash is that of the image's key. -/
def keyed : State :=
  { State.reset with sec := { State.reset.sec with otp := { State.reset.sec.otp with root := shakeKey } } }

theorem image_at (off n : Nat) (h : off + n ≤ 1020) : imgBytes imageTab off n = (image.drop off).take n := by
  have e := Tab.getMany_setMany_part (0 : Byte) image [] 0 n off (by rw [show image.length = 1020 by decide +kernel]; exact h)
  rw [Nat.zero_add] at e
  exact e

/-- The fields of the manifest. -/
theorem image_fields :
    imgLE imageTab 0 4 = 0x464D5848 ∧ imgLE imageTab 4 2 = 1 ∧ imgLE imageTab 6 1 = 3 ∧ imgLE imageTab 7 1 = 1 ∧
    (imgLE imageTab 12 4).testBit 3 = true ∧ imgBytes imageTab 16 57 = List.replicate 57 0 ∧
    imgBytes imageTab 604 416 = golden := by
  unfold imgLE
  rw [image_at _ _ (by omega), image_at _ _ (by omega), image_at _ _ (by omega), image_at _ _ (by omega), image_at _ _ (by omega),
    image_at _ _ (by omega), image_at _ _ (by omega)]
  decide +kernel

theorem image_types : ∀ k, k < 3 → imgLE imageTab (136 + 80 * k) 1 = k + 1 := by
  intro k hk
  unfold imgLE
  rw [image_at _ _ (by omega)]
  revert k
  decide +kernel

theorem image_rows (k : Nat) (hk : k < 3) :
    imgLE imageTab (136 + 80 * k + 4) 4 = ofLE ((image.drop (136 + 80 * k + 4)).take 4) ∧
    imgLE imageTab (136 + 80 * k + 8) 4 = ofLE ((image.drop (136 + 80 * k + 8)).take 4) ∧
    imgBytes imageTab (136 + 80 * k + 16) 64 = (image.drop (136 + 80 * k + 16)).take 64 := by
  unfold imgLE
  rw [image_at _ _ (by omega), image_at _ _ (by omega), image_at _ _ (by omega)]
  exact ⟨rfl, rfl, rfl⟩

theorem find_type (f : Nat → Nat) (h : ∀ k, k < 3 → f k = k + 1) (j : Nat) (hj : j < 3) :
    (List.range 3).find? (fun k => decide (f k = j + 1)) = some j := by
  have r : List.range 3 = [0, 1, 2] := rfl
  rw [r]
  have : j = 0 ∨ j = 1 ∨ j = 2 := by omega
  rcases this with rfl | rfl | rfl <;> simp [h]

theorem image_comps (j : Nat) (hj : j < 3) : imgComp imageTab (j + 1) =
    some (ofLE ((image.drop (136 + 80 * j + 4)).take 4), ofLE ((image.drop (136 + 80 * j + 8)).take 4), (image.drop (136 + 80 * j + 16)).take 64) := by
  obtain ⟨h1, h2, h3⟩ := image_rows j hj
  unfold imgComp
  rw [find_type (fun k => imgLE imageTab (136 + 80 * k) 1) image_types j hj, Option.map, h1, h2, h3]

theorem image_comp : imgComp imageTab 1 = some (0, 0, shakeNone) ∧ imgComp imageTab 2 = some (0, 0, shakeNone) ∧
    imgComp imageTab 3 = some (604, 416, shakeGolden) :=
  ⟨(image_comps 0 (by omega)).trans (by decide +kernel), (image_comps 1 (by omega)).trans (by decide +kernel),
    (image_comps 2 (by omega)).trans (by decide +kernel)⟩

theorem image_form : imgFormOk imageTab = true := by
  obtain ⟨f1, f2, f3, -⟩ := image_fields
  obtain ⟨c1, c2, c3⟩ := image_comp
  unfold imgFormOk
  rw [f1, f2, f3]
  simp only [List.all, c1, c2, c3]
  decide

theorem image_key : shake256 (imgBytes imageTab 16 57) 64 = keyed.sec.otp.root := by
  rw [image_fields.2.2.2.2.2.1, test_shake_key]
  rfl

theorem digest_ok {im : Tab Byte} {type off len : Nat} {d : List Byte} (h : imgComp im type = some (off, len, d))
    (e : shake256 (imgBytes im off len) 64 = d) : imgDigestOk im type = true := by
  unfold imgDigestOk
  rw [h]
  exact decide_eq_true e

theorem image_digests : imgDigestOk imageTab 1 = true ∧ imgDigestOk imageTab 2 = true ∧ imgDigestOk imageTab 3 = true := by
  obtain ⟨c1, c2, c3⟩ := image_comp
  have d0 : imgBytes imageTab 0 0 = [] := image_at 0 0 (by omega)
  exact ⟨digest_ok c1 (by rw [d0]; exact test_shake_none), digest_ok c2 (by rw [d0]; exact test_shake_none),
    digest_ok c3 (by rw [image_fields.2.2.2.2.2.2]; exact test_shake_golden)⟩

theorem comp_bytes {im : Tab Byte} {type off len : Nat} {d : List Byte} (h : imgComp im type = some (off, len, d)) :
    imgCompBytes im type = imgBytes im off len := by
  unfold imgCompBytes
  rw [h]

theorem image_goldenOk : keyed.goldenOk imageTab = true := by
  have e : imgCompBytes imageTab 3 = golden := (comp_bytes image_comp.2.2).trans image_fields.2.2.2.2.2.2
  unfold State.goldenOk
  rw [e]
  decide +kernel

/-- The image passes every check, given that its signature verifies (a free value of `Config`). -/
theorem image_passes (h : Config.ed448 (imgBytes imageTab 16 57) (imgBytes imageTab 0 376) (imgBytes imageTab 376 114) = true) :
    keyed.imageCheck imageTab = 0 ∧ keyed.restOk imageTab = true := by
  obtain ⟨d1, d2, d3⟩ := image_digests
  obtain ⟨-, -, -, f4, f5, -, -⟩ := image_fields
  have own : ownerFused keyed.ownerNow = false := by decide
  have c : keyed.sec.cfg = {} := rfl
  refine ⟨?_, by simp only [State.restOk, d2, d3, image_goldenOk, Bool.and_self]⟩
  unfold State.imageCheck
  rw [c, f4]
  simp only [image_form, decide_eq_false (not_not_intro image_key), h, own, d1]
  simp [f5]

theorem imageCheck_sec (s t : State) (h : s.sec = t.sec) (im : Tab Byte) : s.imageCheck im = t.imageCheck im := by
  unfold State.imageCheck State.ownerNow
  rw [h]

theorem image_read (s : State) (a n : Nat) (hs : s.sec = keyed.sec) (hm : s.mem.host = imageTab) (ha : a = 0) (hn : n = 1020)
    (h : Config.ed448 (imgBytes imageTab 16 57) (imgBytes imageTab 0 376) (imgBytes imageTab 376 114) = true) :
    s.imageCheck (Tab.setMany 0 [] 0 (s.hostRead 0 a n)) = 0 := by
  subst ha hn
  have l : s.hostRead 0 0 1020 = image := by
    have g := Tab.getMany_setMany (0 : Byte) image [] 0
    rw [show image.length = 1020 by decide +kernel] at g
    unfold State.hostRead
    rw [hm]
    exact g
  rw [l]
  exact (imageCheck_sec s keyed hs imageTab).trans (image_passes h).1

/-- Queue 5 with a LOAD_FW of an image as a GOOD one; the running slot is GOOD. -/
def loadable (im : Tab Byte) : State :=
  { keyed with mem := { keyed.mem with host := im }, boot := { keyed.boot with slotA := { state := 0x33333333 } }, host := (withCmd (hcmd 0x0D [0, 1020, 1])).host }

theorem loadable_host (im : Tab Byte) : (loadable im).mem.host = im := rfl

theorem loadable_sec (im : Tab Byte) : (loadable im).sec = keyed.sec := rfl

/-- LOAD_FW of the image from host memory: slot B worn out and fresh, the running slot GOOD and empty; a bad image, a bad
slot number, a length past 16 MiB. -/
theorem witness_AdminCommandsRun_loadFw
    (h : Config.ed448 (imgBytes imageTab 16 57) (imgBytes imageTab 0 376) (imgBytes imageTab 376 114) = true) :
    (let m := hcmd 0x0D [0, 1020, 1]
     let s := loadable imageTab
     s.running 5 1 0x0D = some m ∧ m.p 2 ≤ 1 ∧ m.p 1 ≤ 16777216 ∧ s.hostGone m = false ∧
     s.imageCheck (Tab.setMany 0 [] 0 (s.hostRead m.fn (m.p 0) (m.p 1))) = 0 ∧ (s.boot.flash s.boot.slot).code = 2 ∧ keyed.boot.slotA.code ≠ 2 ∧
     (s.boot.flash (!s.boot.slot)).erases.toNat < 90000 ∧ 90000 ≤ ({ erases := 90000 } : FlashSlot).erases.toNat) ∧
    (let m := hcmd 0x0D [0, 16777216, 0]
     (withCmd m).running 5 1 0x0D = some m ∧ m.p 1 ≤ 16777216 ∧ ¬ (hcmd 0x0D [0, 16777217, 0]).p 1 ≤ 16777216 ∧ ¬ (hcmd 0x0D [0, 0, 2]).p 2 ≤ 1 ∧
     (withCmd m).hostGone { m with discard := true } = true ∧ (withCmd m).imageCheck [] ≠ 0) := by
  refine ⟨⟨by decide +kernel, by decide +kernel, by decide +kernel, by decide +kernel, ?_, by decide +kernel, by decide +kernel,
    by decide +kernel, by decide +kernel⟩, by decide +kernel⟩
  exact image_read (loadable imageTab) _ _ (loadable_sec _) (loadable_host _) (by decide +kernel) (by decide +kernel) h

/-- The other admin commands: a schedule below the ceilings, a QUERY that fits and one that does not, a DUMP with and
without its trigger, resets of each selector, a test of each kind and of what it may not run on. -/
theorem witness_AdminCommandsRun :
    (let m := hcmd 0x0F [500]
     (withCmd m).running 5 1 0x0F = some m) ∧
    (let m := hcmd 0x10 [2, 0, 640]
     (withCmd m).running 5 1 0x10 = some m ∧ m.p 0 % 256 = 2 ∧ (withCmd m).forecastBytes.length ≤ m.p 2 ∧ (withCmd m).hostGone m = false ∧
     (hcmd 0x10 [2, 0, 0]).p 2 < (withCmd m).forecastBytes.length ∧ (hcmd 0x10 [5]).p 0 % 256 ∈ [3, 4, 5] ∧ (hcmd 0x10 [6]).p 0 % 256 = 6 ∧
     (hcmd 0x10 [1]).p 0 % 256 = 1) ∧
    (let m := hcmd 0x11 [0, 0x1000, 64]
     (withCmd m).running 5 1 0x11 = some m ∧ m.p 0 % 2 = 0 ∧ (withCmd m).hostGone m = false ∧ (hcmd 0x11 [1]).p 0 % 2 = 1 ∧
     (withCmd m).glean.waiting.contains (5, 1) = false ∧ (withCmd m).glean.running = false) ∧
    (let m := hcmd 0x12 [0x37]
     let s := withCmd m
     s.running 5 1 0x12 = some m ∧ m.step = 0 ∧ domSel (m.p 0) = some (.dom 39) ∧ (s.dom 39).st = .run ∧ domSel 0x38 = none ∧ domSel 0 = some .whole ∧
     domSel 2 = some .hostFn ∧ domSel 1 = some (.dom 1) ∧ domSel (0x40 + 65536 * 4095) = some (.context 4095) ∧ (s.ctx 4095).st = .free ∧
     (paged.ctx 1).st = .live ∧ paged.bnd.pans = [] ∧ paged.bnd.ctrls = []) ∧
    (let m := hcmd 0x0E [0x17, 7]
     let s := withCmd m
     s.running 5 1 0x0E = some m ∧ m.step = 0 ∧ domSel (m.p 0) = some (.dom 15) ∧ m.p 1 < 16 ∧ s.sec.cfg.lc ≠ 4 ∧ s.fullOk = true ∧
     (s.dom 15).st = .run ∧ s.bist.running = false ∧ s.drained 15 = true ∧ domSel ((hcmd 0x0E [0]).p 0) ≠ some (.dom 15) ∧
     16 ≤ (hcmd 0x0E [0x17, 16]).p 1 ∧ 8 ≤ (hcmd 0x0E [0x17, 8]).p 1 ∧
     ({ s with sec := { s.sec with cfg := { s.sec.cfg with lc := 2 } } } : State).fullOk = false ∧
     (s.setPan 1535 { bound := some (0, 0) }).drained 15 = false) := by decide +kernel

/-! #### Self-test, domains, dumps, wait cycles -/

/-- A domain in some condition. -/
def withDom (d : Nat) (x : Dom) (s : State := State.reset) : State := s.setDom d x

/-- No test, one whose domain is still in its dump, one in re-entry with and without findings under COMPAT_H3; the
tiller of zone 0; domains long back in RUN, exactly a second back, and less. -/
theorem witness_SelfTestsAndResets :
    (State.reset.tested = none ∧ (withDom 39 { st := .glean, test := some 7 }).tested = some 39 ∧ DomState.glean ≠ .reentry) ∧
    (let x : Dom := { st := .reentry, test := some 7, owner := some (5, 1) }
     let s := withDom 15 x { State.reset with boot := { State.reset.boot with waves := [(7, 12)], running := [7] }, bist := { base := (98304, 0, 0) } }
     s.tested = some 15 ∧ s.dom 15 = x ∧ s.boot.news = [] ∧ s.bist.base = (s.floor.usable, s.floor.deadPans, s.softRows) ∧ s.tillerReady 7 = true ∧
     ({ s with boot := { s.boot with compat := true } } : State).boot.compat = true ∧ [Finding.hub] ≠ []) ∧
    (let x : Dom := { st := .reentry, test := some 7, owner := some (5, 1) }
     ((withDom (8 + zoneTiller 95) x).dom (8 + zoneTiller 95)) = x ∧ zoneTiller 0 = 0 ∧ x.st ≠ .glean ∧ (State.reset.dom 8).test = none) ∧
    (let s : State := { State.reset with refcnt := 1000000000 }
     (s.dom 8).st = .run ∧ s.since 0 1000000000 = true ∧ s.since 1 1000000000 = false ∧ (withDom 8 { backAt := some 1, fails := 1 } s).dom 8 =
       { st := .run, backAt := some 1, fails := 1 } ∧ (s.dom 0).st = .run ∧ (withDom 8 { st := .reset }).dom 8 = { st := .reset }) ∧
    ((State.reset.stack 23).errValid = false ∧ ((State.reset.setStack 23 { errValid := true }).stack 23).errValid = true) ∧
    (State.reset.stew 3).down = false ∧ (State.reset.stew 3).turn = none ∧
    (let s : State := { State.reset with host := { State.reset.host with stewards := [(2, { down := true, downAt := some 0 })] } }
     (s.stew 2).downAt = some 0 ∧ (s.stew 2).down = true ∧ s.since 0 1000000000 = false ∧ (s.stew 3).turn = none) ∧
    (let s : State := { State.reset with host := { State.reset.host with stewards := [(3, { turn := some (5, 1) })] } }
     (s.stew 3).turn = some (5, 1)) ∧
    State.reset.flt.wdogEn = true ∧ ((st { flo with status := .blocked .slot }).floret 0).status = .blocked .slot ∧
    ((st flo).spk (spkOfFloret 0)).frec.valid = false ∧ ((st flo).floret 0).status = .runnable := by decide +kernel

/-- Every state of a domain, with and without a command that waits; recovery, its hold and COMPAT_H3's hold. -/
theorem witness_DomainsResetAndReturn :
    (∀ d : Fin 40, (State.reset.dom d.val).st = .run) ∧
    (∀ x ∈ ([.glean, .reset, .reentry] : List DomState), ((withDom 39 { st := x, fails := 1, owner := some (5, 1) }).dom 39).st = x) ∧
    ((withDom 0 { st := .glean }).dom 0).st = .glean ∧ ((withDom 1 { st := .glean }).dom 1).st = .glean ∧ State.reset.glean.running = false ∧
    State.reset.boot.held = false ∧ ((withDom 2 { st := .reentry }).dom 2).test = none ∧ State.reset.canReenter 2 = true ∧
    (withDom 8 { st := .reentry } { State.reset with boot := { State.reset.boot with waves := [(0, 12)], running := [0] } }).canReenter 8 = true ∧
    (State.reset.dom 0).st = .run ∧ State.reset.boot.recovery = false ∧ State.reset.boot.hold = false ∧
    ({ State.reset with boot := { State.reset.boot with recovery := true } } : State).boot.recovery = true := by decide +kernel

/-- A third full package recovery within an hour, and one that is not. -/
theorem witness_DomainsResetAndReturn_third :
    (let s : State := { State.reset with boot := { State.reset.boot with recoveries := [3600000000000, 1, 0] } }
     (∃ a b c l, s.boot.recoveries = a :: b :: c :: l ∧ (a - c).toNat ≤ 3600000000000) ∧ s.thirdRecovery = true) ∧
    (¬ ∃ a b c l, State.reset.boot.recoveries = a :: b :: c :: l ∧ (a - c).toNat ≤ 3600000000000) ∧ State.reset.thirdRecovery = false :=
  ⟨⟨⟨_, _, _, _, rfl, by decide⟩, by decide⟩, (fun ⟨a, b, c, l, h, _⟩ => nomatch (h : [] = a :: b :: c :: l)), by decide⟩

/-- No dump, one under way, a unit that has not answered, one with a shadow. -/
theorem witness_DumpsAreTaken :
    State.reset.glean.running = false ∧
    (let g : Gleaner := { running := true, recs := [{ item := 1, status := 1, time := 0, unit := 0x40, bytes := [] }],
                          shadows := [{ unit := 0x41, time := 7, bytes := [1] }] }
     let s := { State.reset with glean := g }
     s.glean.skips 0x40 = true ∧ s.glean.skips 0x41 = false ∧ g.shadows.find? (fun y => y.unit = 0x41) = some { unit := 0x41, time := 7, bytes := [1] } ∧
     g.waiting = [] ∧ (32 + (g.recs.flatMap (fun r => r.bytesOf)).length ≤ granaryEnd)) := by decide +kernel

/-- The region of a dump lies inside the granary for some address of it. -/
theorem witness_DumpsAreTaken_region (h : Config.dumpAddr = 0) :
    Config.dumpAddr + ({ running := true } : Gleaner).length ≤ granaryEnd := by
  rw [h]
  decide +kernel

/-- A package that stands alone and one that its plan gives another master; room and none; an edge that is posted, held,
in a cycle; its ends waiting. -/
theorem witness_WaitCyclesAreFound :
    (let e : Edge := { src := .queue 0 5, dst := .cell 0 1 0x90000000000, owner := 1 }
     let f : Edge := { src := .cell 0 1 0x90000000000, dst := .queue 0 5, owner := 1 }
     let c := hcmd 6 [0x90000000000, 1, 0]
     let det : Detector := { edges := [(0, f), (1, e)], next := 2, holds := [{ closing := 1, cycle := [0, 1] }] }
     let s := { (withCmd c) with det := det }
     det.edges.length < 8192 ∧ State.reset.isMaster = true ∧ s.det.posts.contains e = false ∧ s.det.edges.find? (fun x => x.2 = e) = some (1, e) ∧
     State.reset.det.edges.find? (fun x => x.2 = e) = none ∧ s.vertexWaits e.src = true ∧ s.vertexWaits e.dst = true ∧ det.knot.valid = false ∧
     ({ det with posts := [e] } : Detector).posts.contains e = true ∧
     ({ State.reset with fab := { State.reset.fab with plan := some (List.replicate 1616 1) } } : State).isMaster = false) ∧
    ¬ (List.replicate 8192 ((0 : Nat), (⟨.queue 0 5, .queue 0 6, 1⟩ : Edge))).length < 8192 := by
  refine ⟨by decide +kernel, ?_⟩
  rw [List.length_replicate]
  omega

/-! #### Pins, bring-up, firmware -/

/-- A package that is coming up. -/
def booting (phase : BitVec 4) (b : Boot := {}) : State :=
  { State.reset with boot := { b with inReset := false, phase := phase } }

/-- The package in reset and out of it, before and after its straps are sampled. -/
theorem witness_ResetPinsAndStraps :
    State.reset.boot.inReset = true ∧ (booting 1).boot.inReset = false ∧ (booting 1).boot.sampled = false ∧
    (booting 1 { sampled := true }).boot.sampled = true ∧ Tab.wf {} State.reset.grn.ctrls = true ∧
    ((lastValid State.reset.sec.otp.cfg).getD (0, {})).2.lc ≠ 4 := by decide +kernel

/-- The image in slot A, GOOD and TENTATIVE, and received whole: what VERIFY needs. -/
theorem witness_BringUpPhases_verify
    (h : Config.ed448 (imgBytes imageTab 16 57) (imgBytes imageTab 0 376) (imgBytes imageTab 376 114) = true) :
    (∀ st : W32, st = 0x33333333 ∨ st = 0x77777777 →
      let b : Boot := { inReset := false, phase := 2, slotA := { state := st, tries := 7, image := imageTab } }
      b.spoilSpent.candidate = some false ∧ (b.spoilSpent.flash false).image = imageTab) ∧
    ∀ s : State, s.sec = keyed.sec → s.imageCheck imageTab = 0 ∧ s.restOk imageTab = true := by
  have gen : ∀ im : Tab Byte, ∀ st : W32, st = 0x33333333 ∨ st = 0x77777777 →
      let b : Boot := { inReset := false, phase := 2, slotA := { state := st, tries := 7, image := im } }
      b.spoilSpent.candidate = some false ∧ (b.spoilSpent.flash false).image = im := by
    intro im st hst
    have e : popc 7#32 = 3 := by decide
    rcases hst with rfl | rfl <;> simp [Boot.spoilSpent, Boot.flash, FlashSlot.code, FlashSlot.boots, Boot.candidate, e]
  refine ⟨gen imageTab, fun s hs => ⟨(imageCheck_sec s keyed hs imageTab).trans (image_passes h).1, ?_⟩⟩
  have c : s.restOk imageTab = keyed.restOk imageTab := by
    unfold State.restOk State.goldenOk
    rw [hs]
  exact c.trans (image_passes h).2

/-- A host push that has brought what the ROM checks first, one byte less, and one whose image is whole. -/
theorem witness_BringUpPhases_push :
    let b : Boot := { inReset := false, phase := 2, source := 1, had := 604, image := imageTab }
    b.source = 1 ∧ 604 ≤ b.had ∧ (∀ off len d, imgComp b.image 1 = some (off, len, d) → off + len ≤ b.had) ∧ b.leadHere = true ∧
    b.whole = false ∧ ({ b with had := 603 } : Boot).leadHere = false := by
  have gen : ∀ (im : Tab Byte) (x : List Byte), imgComp im 1 = some (0, 0, x) →
      let b : Boot := { inReset := false, phase := 2, source := 1, had := 604, image := im }
      b.source = 1 ∧ 604 ≤ b.had ∧ (∀ off len d, imgComp b.image 1 = some (off, len, d) → off + len ≤ b.had) ∧ b.leadHere = true ∧
      b.whole = false ∧ ({ b with had := 603 } : Boot).leadHere = false := by
    intro im x e
    refine ⟨rfl, Nat.le_refl 604, fun off len d h => ?_, by simp [Boot.leadHere, e], rfl, by simp [Boot.leadHere]⟩
    cases e.symm.trans h
    exact Nat.zero_le 604
  exact gen imageTab _ image_comp.1

/-- Each phase with its work done and not done; the first and last wave of a tiller, at bring-up and in re-entry; the
first and last HBM group. -/
theorem witness_BringUpPhases :
    (∀ ph : BitVec 4, (booting ph).boot.inReset = false ∧ (booting ph).boot.hold = false ∧ (booting ph).boot.held = false ∧
      ((booting ph).dom 0).st = .run ∧ (booting ph).boot.phase = ph) ∧
    ([Finding.hub].contains .hub = true ∧ (booting 1 { source := 2 }).boot.source = 2 ∧ State.reset.boot.source = 0) ∧
    ((booting 2).boot.spoilSpent.candidate = none ∧ (booting 2).imageCheck [] ≠ 0 ∧ (booting 2 { source := 1, whole := true }).boot.whole = true ∧
      (({ slotA := { state := 0x33333333 } } : Boot).spoilSpent.candidate = some false)) ∧
    ((∀ v, v < 8 → (booting 4 { waves := (List.range 8).map (fun t => (t, 12)) }).waved v = true) ∧ (booting 4).waved 0 = false) ∧
    ((booting 5 { groups := 3 }).boot.groups = 3 ∧ (booting 5).boot.groups = (0 : Fin 3).val ∧ (booting 5 { groups := 2 }).boot.groups = (23 : Fin 24).val % 3) ∧
    ({ (booting 6) with floor := { (booting 6).floor with deadTil := 0xFF } } : State).lacking = [] ∧ (booting 6).lacking ≠ [] ∧
    ((booting 7 { tentative := true }).boot.tentative = true ∧ (booting 7).boot.source = 0) ∧
    (let s := booting 4 { waves := [(0, 12), (1, 12), (2, 12), (3, 11), (4, 12), (5, 12), (6, 12)] }
     (∀ u, u < 8 → u % 4 < (3 : Fin 8).val % 4 → s.waved u = true) ∧ Tab.get 0 s.boot.waves 3 = (11 : Fin 12).val ∧
     Tab.get 0 s.boot.waves 7 = (0 : Fin 12).val) ∧
    ((withDom 15 { st := .reentry }).dom 15).st = .reentry ∧ State.reset.floor.deadStack.getLsbD 23 = false ∧
    ({ deadStack := BitVec.ofNat 24 (2 ^ 23) } : Floor).deadStack.getLsbD 23 = true := by decide +kernel

/-- A loader that takes a block, one that has it, a round with blocks complete and lacking, the last round; OTP writes of
both kinds; push chunks of both ends and too long; a fabric boot with a straw to ask and none. -/
theorem witness_FirmwareAndBootSources :
    (let s0 := booting 6 { blocks := [(0, [0]), (1543, [])], rounds := 2 }
     let s := { s0 with sec := { s0.sec with image := [(136, 2), (144, 1)] } }
     s.fwBlocks = 1 ∧ s.loading 1543 = true ∧ ¬ (Tab.get [] s.boot.blocks 1543).contains 0 ∧ (Tab.get [] s.boot.blocks 0).contains 0 = true ∧
     s.boot.rounds.toNat = 2 ∧ 0 ∈ s.lacking ∧ 1543 ∈ s.lacking ∧ s.fwBlocks ≤ (Tab.get [] s.boot.blocks 0).length ∧
     ¬ s.fwBlocks ≤ (Tab.get [] s.boot.blocks 1543).length ∧ (booting 6 { rounds := 3 }).boot.rounds.toNat = 3) ∧
    ((booting 4).boot.phase ≠ 6 ∧ ∀ d, d < 8 → ((booting 4).dom (8 + d)).st ≠ .reentry) ∧
    State.reset.sec.otp.writing = none ∧
    (let v : W32 := BitVec.ofNat 32 (65536 + 255 * 2 ^ 17 + 2 ^ 29)
     fld v 16 0 = 65536 ∧ v.getLsbD 29 = true ∧ (booting 3 { source := 1 }).boot.source = 1 ∧ 0 < fld (1 : W32) 16 0 ∧ (1 : W32).getLsbD 29 = false ∧
     fld (0 : W32) 16 0 = 0 ∧ 65536 < fld (65537 : W32) 16 0 ∧ 3 ≤ (booting 3).boot.phase.toNat) ∧
    ((booting 2 { source := 1 }).boot.whole = false ∧ (booting 2).boot.phase.toNat ≤ 2 ∧ (booting 8).boot.phase ≠ 0xF) ∧
    (let s := booting 2 { source := 2, straw := some 31, got := [5] }
     s.fabricBoot = true ∧ s.boot.straw = some 31 ∧ (List.replicate 1024 (0 : Byte)).length = 1024 ∧ s.boot.got.contains 16383 = false ∧
     s.boot.got.contains 5 = true ∧ State.reset.fabricBoot = false ∧ (booting 2 { source := 2 }).boot.straw = none) ∧
    (let s := State.reset.setStraw 31 { heard := some { roll with holdsPlan := true } }
     (s.straw 31).heard = some { roll with holdsPlan := true } ∧ (∀ j, j < 31 → (s.straw j).heard = none) ∧ ([] : List StrawId).contains 31 = false) := by
  decide +kernel

/-! #### Registers, power, management, security -/

/-- A misaligned offset, a reset domain, a dead unit, an offset past a VF's queues; plain registers, both halves of a pair
and of a read-only pair, the least and greatest queue registers; held and copied halves. -/
theorem witness_RegisterAccesses :
    ((3 : Nat) % 4 ≠ 0 ∧ (State.reset.regAddr .pf 0x110000).bind (fun a => (withDom 2 { st := .reset }).regFail a) = some 2 ∧
      ({ State.reset with floor := { State.reset.floor with deadPan := [(0, true)] } } : State).regFail 0x1000800 = some 3 ∧
      State.reset.acc.valid = false ∧ State.reset.regAddr (.vf 0) 0 = none) ∧
    (∀ a ∈ [0x000, 0x100, 0x104, 0x114, 0x300000, 0x100000, 0x110000, 0x110004, 0x110000 + 4095 * 0x40],
      State.reset.regAddr .pf a = some a ∧ State.reset.regFail a = none) ∧
    (pairHi 0 = false ∧ pairLo 0 = false ∧ State.reset.regOpen 0 = false ∧ pairRw 0 = false) ∧
    (pairHi 0x110000 = false ∧ pairLo 0x110000 = true ∧ State.reset.regOpen 0x110000 = false) ∧
    (pairHi 0x110004 = true ∧ pairRw 0x110004 = false ∧ pairRw 0x110000 = true ∧ (0x110000 + 4095 * 0x40 < 2 ^ 26)) ∧
    (let s := State.reset.setLatch { path := .pf, off := 0x110000, held := some 7 }
     (s.latch .pf 0x110000).held = some 7 ∧ ((s.setLatch { path := .pf, off := 0x100, held := some 1 }).latch .pf 0x100).held = some 1) ∧
    (State.reset.regAddr .bells 0xFFF008 = some (bellBase + 0xFFF008) ∧ State.reset.regAddr .bells 0x1000000 = none ∧
      State.reset.regAddr (.vfBells 62) 0 = none ∧ ((State.reset.setQueue 4095 { cfg := 63 }).regAddr (.vfBells 62) 4) = some (bellBase + 4095 * 0x1000 + 4)) ∧
    State.reset.namesLo .pf 0x110000 = true ∧ State.reset.namesLo .pf 0 = false ∧ ((0x110004 : BitVec 26).toNat = 0x110000 + 4) ∧
    (let e : LogEntry := { time := 0, code := 0x0405, lost := false, cls := 0, ctx := none, src := 0, aux := 0, detail := 0 }
     let s := { State.reset with flt := { State.reset.flt with log := [(1023, some e)] } }
     Tab.get none s.flt.log (1023 : Fin 1024).val = some e) := by decide +kernel

/-- Read-only pairs too. -/
theorem witness_RegisterAccesses_ro : ∃ a ∈ [0x18, 0x20, 0x28, 0x200018, 0x310000, 0x300010, 0x100010, 0x14, 0x24, 0x2C, 0x1C, 0x30, 0x34],
    pairLo a = true ∧ pairRw a = false := by decide +kernel

/-- Control space, a hole, each kind of memory at its first byte and up to its last, a shadow row, a dead unit. -/
theorem witness_Bar4Accesses :
    (let s := State.reset
     s.bar4Addr 0xF0000000000 = 0xF0000000000 ∧ s.bar4Addr 0xF0003FFFFFC = 0xF0003FFFFFC ∧ localHome (s.bar4Addr 0xE0000000000) = none ∧
     (0xF0000000002 - 0xF0000000000) % 4 ≠ 0 ∧ localHome 0x90000000000 = some (.store 0 0) ∧ localHome 0x80000000000 = some (.bank 0 0) ∧
     localHome (granaryEnd - 1) = some (.grn (granaryEnd - 1)) ∧ (Home.grn (granaryEnd - 1)).room = 1 ∧
     s.homeResetting (.store 0 0) = false ∧ s.homeSilent (.store 0 0) 8 = false ∧ (∀ w ∈ wordsOf 0 8, s.eccAt (storeBase 0 / 16 + w) = none) ∧
     s.homeResetting (.bank 0 0) = false ∧ s.shadowHit 0 0 8 = false ∧ s.homeSilent (.bank 0 0) 8 = false ∧
     (s.setSpk 0 { shadow := 1 }).shadowHit 0 0 8 = true ∧ s.host.bar4Valid = false ∧
     ({ s with floor := { s.floor with deadPan := [(0, true)] } } : State).homeSilent (.store 0 0) 8 = true) := by decide +kernel

/-- A part with power samples. -/
def powered (p : Power) : State := { State.reset with pwr := p }

/-- Nine samples and fewer; averages above the limit and at it; F_cap high, at the emergency clock, the granary throttled and
not, CAP_UNMET told and not; a rise that stays within the limit and one that does not. -/
theorem witness_PowerIsCapped :
    ((powered { samples := List.replicate 9 5 }).pwr.samples.length = 9 ∧ State.reset.pwr.samples.length + 1 < 10) ∧
    (let s := powered { avgs := [1601] }
     s.limit < s.pwr.avg100 ∧ s.emergencyClk < s.fcap ∧ ¬ (powered { avgs := [1600] }).limit < (powered { avgs := [1600] }).pwr.avg100) ∧
    (let s := powered { avgs := [1601], drop := 787500 }
     s.limit < s.pwr.avg100 ∧ s.fcap ≤ s.emergencyClk ∧ s.pwr.grnThrottle = false ∧ s.pwr.unmet = false) ∧
    (let s := powered { avgs := [100], drop := 50000 }
     s.pwr.drop ≠ 0 ∧ (s.pBase : Int) * s.fcap + ((s.pwr.avg100 : Int) - s.pBase) * ((s.maxClk : Int) - 0) ≤ (s.limit : Int) * s.fcap) ∧
    (let s := powered { avgs := [1600], drop := 50000 }
     ¬ (s.pBase : Int) * s.fcap + ((s.pwr.avg100 : Int) - s.pBase) * ((s.maxClk : Int) - 0) ≤ (s.limit : Int) * s.fcap) ∧
    State.reset.anyRunning = false ∧ (withCmd (hcmd 1 [])).anyRunning = true ∧ State.reset.mgt.silent = false ∧ State.reset.pwr.sched = [] ∧
    (powered { ftAsserted := true }).pwr.ftAsserted = true := by decide +kernel

/-- Samples at both ends of what is plausible and past them, 110 °C; zones at each threshold of F_therm; coolant at each
threshold of the slow and the fast loss. -/
theorem witness_HeatAndForecasts :
    (let x := State.reset.zone 95
     x.suspA = false ∧ x.suspB = false ∧ x.lastA = none ∧ x.lastB = none ∧ (-160 : Int) ≤ (BitVec.ofInt 12 (-160)).toInt ∧ (1200 : BitVec 12).toInt ≤ 1200 ∧
     ¬ (1201 : BitVec 12).toInt ≤ 1200 ∧ 880 ≤ max (880 : BitVec 12).toInt (0 : BitVec 12).toInt ∧ max (879 : BitVec 12).toInt (0 : BitVec 12).toInt < 880 ∧
     x.past = [] ∧ State.reset.mgt.trip = false ∧ x.differ = none) ∧
    (∀ c ∈ [(760, 760), (759, 759), (737, 737), (736, 736)],
      ({ ta := BitVec.ofNat 12 c.1, tb := 0 } : Zone).ctl = some (c.2 : Int)) ∧ ({ suspA := true, suspB := true } : Zone).ctl = none ∧
    ((State.reset.setZone 95 { differ := some 0 }).zone 95).differ = some 0 ∧ (powered { stopped := true }).pwr.stopped = true ∧
    (powered { emergency := true }).zoneEmergency 0 = true ∧
    (booting 8).boot.inReset = false ∧ (booting 8).mgtServes 4 = true ∧ (booting 8).mgt.answered = [] ∧
    (let p : Power := { emergency := true, degraded := true, coolant := { flow := 45, inlet := 40 }, zones := [] }
     p.emergency = true ∧ 42 ≤ p.coolant.flow.toNat ∧ p.degraded = true ∧ 45 ≤ p.coolant.flow.toNat ∧ p.coolant.inlet.toNat ≤ 40 ∧ p.zones = [] ∧
     ({ p with coolant := { flow := 41 } } : Power).coolant.flow.toNat < 42) := by decide +kernel

theorem keccakRound_length (a : List W64) (rc : W64) : (keccakRound a rc).length = 25 := by
  unfold keccakRound
  simp only []
  split
  next h r e =>
    have := congrArg List.length e
    rw [List.length_map, List.length_range] at this
    exact this.symm
  next e =>
    have := congrArg List.length e
    rw [List.length_map, List.length_range] at this
    exact absurd this (by decide)

theorem absorbAll_length : ∀ (n : Nat) (a : List W64) (bs : List Byte), a.length = 25 → (absorbAll n a bs).length = 25
  | 0, _, _, h => h
  | n + 1, a, bs, _ => by
    unfold absorbAll
    refine absorbAll_length n _ _ ?_
    unfold absorb keccakF roundConsts
    simp only [List.cons_append, List.nil_append, List.foldl_cons, List.foldl_nil, keccakRound_length]

theorem toLE_length' : ∀ (n v : Nat), (toLE n v).length = n
  | 0, _ => rfl
  | n + 1, v => by rw [toLE, List.length_cons, toLE_length' n]

theorem shake256_length (bs : List Byte) (n : Nat) (h : n ≤ 200) : (shake256 bs n).length = n := by
  have k : ∀ l : List W64, (l.flatMap (fun w => toLE 8 w.toNat)).length = 8 * l.length := by
    intro l
    induction l with
    | nil => rfl
    | cons w l ih => rw [List.flatMap_cons, List.length_append, ih, List.length_cons, toLE_length']; omega
  simp only [shake256, List.length_take, k]
  rw [absorbAll_length _ _ _ (List.length_replicate ..)]
  omega

/-- A plan that may replace the one in force: its digest is right. -/
theorem witness_CamnikRequestsAreServed_plan :
    ∃ all : List Byte, all.length = 1616 ∧ (booting 8).planOk all = true ∧ (∀ s : State, s.sec.otp.serial = 1 → s.planOk all = false) := by
  generalize hz : List.replicate 1600 (0 : Byte) = z
  have l : z.length = 1600 := by rw [← hz, List.length_replicate]
  have hd : (shake256 z 16).length = 16 := shake256_length z 16 (by omega)
  generalize hs : shake256 z 16 = d at hd
  have s1 : slice (z ++ d) 0 1600 = z := by simp [slice, ← l]
  have s2 : slice (z ++ d) 1600 16 = d := by simp [slice, ← l, ← hd]
  have sub : ∀ o n, o + n ≤ 1600 → slice (z ++ d) o n = slice z o n := by
    intro o n h
    simp only [slice]
    rw [List.drop_append_of_le_length (by omega), List.take_append_of_le_length (by rw [List.length_drop]; omega)]
  have le : ∀ o n, o + n ≤ 1600 → leAt (z ++ d) o n = leAt z o n := by
    intro o n h
    unfold leAt
    rw [sub o n h]
  have own : planCoord (z ++ d) = 0 := by
    unfold planCoord
    rw [le 8 2 (by omega), le 10 1 (by omega), le 11 1 (by omega), ← hz]
    decide +kernel
  have ser : leAt (z ++ d) (32 + 16 * coordIx (planCoord (z ++ d))) 8 = 0 := by
    rw [own, show coordIx 0 = 0 by decide, le _ _ (by omega), ← hz]
    decide +kernel
  have pl : (booting 8).fab.plan = none := rfl
  refine ⟨z ++ d, by rw [List.length_append, l, hd], ?_, ?_⟩
  · rw [own] at ser
    simp only [State.planOk, s1, s2, hs, own, ser, pl]
    simp
    decide
  · intro s h
    simp only [State.planOk, ser, h]
    simp

/-- A package that serves everything, one before its stewards and one in the hold; parts of a plan and of an image; grants. -/
theorem witness_CamnikRequestsAreServed :
    (let s := booting 8
     s.boot.inReset = false ∧ s.mgt.answered = [] ∧ (∀ c ∈ [1, 2, 3, 4, 5, 6, 7, 8, 9, 10, 11, 12], s.mgtServes c = true) ∧ (booting 2).mgtServes 3 = false ∧
     (booting 2 { hold := true }).mgtServes 11 = false ∧ s.mgt.plan = none ∧ s.scopeOpen 1 = false ∧ s.host.wraps.length < 16 ∧
     ({ s with sec := { s.sec with lock := some { scope := 2, at_ := 0, minutes := 1 } } } : State).scopeOpen 1 = true ∧
     s.since 0 1000000000 = false) ∧
    ((toLE 36 0).length = 36 ∧ leAt (toLE 2 0 ++ toLE 2 1616 ++ toLE 1024 0) 2 2 = 1616 ∧ (toLE 2 0 ++ toLE 2 1616 ++ toLE 1024 0).length = 1028 ∧
      (List.replicate 1024 (0 : Byte)).length + 592 = 1616) ∧
    (let s := booting 2 { source := 3, sampled := true }
     s.boot.source = 3 ∧ s.boot.phase.toNat ≤ 2 ∧ s.boot.hold = false ∧ s.boot.whole = false ∧ s.mgtServes 10 = true) ∧
    (let s := booting 8
     (∃ g ∈ ([(2, 3)] : List (BitVec 16 × BitVec 3)), g.1 ≠ 1 ∧ g.2 &&& 1 ≠ 0) ∧ s.host.wraps = []) := by decide +kernel

/-- Ports in reset, before phase TRANSIT and serving; entries to tell of, with the rate used up and not; each mode of
PKG_EVT_N; sensors that read, that are blind and that are not there. -/
theorem witness_PortsAndSidebands :
    (let e : LogEntry := { time := 0, code := 0x0702, lost := false, cls := 1, ctx := none, src := 0, aux := 0, detail := 0 }
     let t : State := { (booting 8) with flt := { (booting 8).flt with count := 1, log := [(0, some e)] } }
     t.nextNotice = some 0 ∧ State.reset.nextNotice = none ∧ (t.recent 1000000000 t.mgt.notices).length < 10 ∧
     ¬ (({ t with mgt := { t.mgt with notices := List.replicate 10 0 } } : State).recent 1000000000 (List.replicate 10 0)).length < 10 ∧
     t.boot.inReset = false ∧ 3 ≤ t.boot.phase.toNat ∧ (booting 2).boot.phase.toNat < 3) ∧
    (let s := booting 8
     s.mgt.evtN = true ∧ s.glean.running = false ∧ s.mgt.dumpAt = none ∧ s.mgt.evtMode ≠ 1 ∧ s.mgt.evtMode ≠ 2 ∧
     ({ s.mgt with evtMode := 2 } : Mgt).evtMode = 2 ∧ s.mgt.trip = false ∧ s.mgt.i3c = none ∧
     s.sensorValue 96 = some (some 0) ∧ s.sensorValue 97 = none ∧ s.sensorValue 202 = some (some 1050) ∧
     (s.setZone 95 { suspA := true, suspB := true }).sensorValue 96 = some none ∧ s.imageCheck (Tab.setMany 0 [] 0 []) ≠ 0 ∧
     (s.boot.flash (!s.boot.slot)).erases.toNat < 90000 ∧ State.reset.boot.inReset = true) := by decide +kernel

/-- REQUEST_UPDATE with an image that passes. -/
theorem witness_PortsAndSidebands_update
    (h : Config.ed448 (imgBytes imageTab 16 57) (imgBytes imageTab 0 376) (imgBytes imageTab 376 114) = true) (s : State)
    (hs : s.sec = keyed.sec) : image.length ≤ 16777216 ∧ s.imageCheck (Tab.setMany 0 [] 0 image) = 0 :=
  ⟨by decide +kernel, (imageCheck_sec s keyed hs _).trans (image_passes h).1⟩

/-- Each step of a connection on each transport, one that is not up; slot 0 and another; blocks 1, 9, 0, 0xFF and 10. -/
theorem witness_SpdmRequestsAreAnswered :
    (∀ p : SpdmPort, p = .mctp ∨ p = .doe ∨ p = .vc6 → (booting 8).spdmServes p = true ∧ (booting 2).spdmServes p = false) ∧
    (withDom 2 { st := .reset } (booting 8)).spdmServes .doe = false ∧
    (∀ k ∈ [0, 1, 2, 3], Tab.get 0 (Tab.set 0 State.reset.sec.conn (portNo .doe) k) (portNo .doe) = k) ∧
    (1 ≤ (1 : BitVec 8).toNat ∧ (9 : BitVec 8).toNat ≤ 9 ∧ 9 < (10 : BitVec 8).toNat) := by
  refine ⟨fun p hp => ?_, by decide +kernel, by decide +kernel, by decide +kernel⟩
  rcases hp with rfl | rfl | rfl <;> exact ⟨by decide +kernel, by decide +kernel⟩

/-- A token of kind 1 or 2 with its SCOPE or TO and its lifetime, for serial 0 and nonce 0. -/
def token (kind x mins : Nat) : List Byte := toLE 2 kind ++ toLE 1 x ++ toLE 1 0 ++ toLE 2 mins ++ toLE 318 0

/-- A part of a life cycle with a nonce out. -/
def nonced (lc : BitVec 3) : State :=
  { (booting 8) with sec := { (booting 8).sec with nonce := some 0, cfg := { (booting 8).sec.cfg with lc := lc } } }

/-- Tokens that are right but for their signature, of the least and greatest scope and lifetime, and tokens that are not. -/
theorem witness_TokensAndDebugLock :
    (token 2 7 1440).length = 324 ∧ (nonced 0).tokenOk (token 2 7 1440) 2 (nonced 0).sec.nonce = true ∧ leAt (token 2 7 1440) 2 1 = 7 ∧
    (nonced 0).fullOk = true ∧ (nonced 2).fullOk = false ∧ leAt (token 2 7 1440) 4 2 = 1440 ∧ ownerFused (slice (token 2 7 1440) 32 64) = false ∧
    (nonced 1).tokenOk (token 1 2 0) 1 (nonced 1).sec.nonce = true ∧ leAt (token 1 2 0) 4 2 = 0 ∧ (nonced 0).sec.otp.writing = none ∧
    (nonced 1).sec.otp.cfg.length < 3 ∧ (nonced 0).tokenOk (token 2 7 1440) 1 (nonced 0).sec.nonce = false ∧ (nonced 0).transition (token 1 2 0) = none ∧
    (nonced 0).spdmServes .mctp = true ∧ ((none : Option OtpWrite).isSome = false ∧ (some (OtpWrite.rep [])).isSome = true) ∧
    State.reset.tapOpen = false ∧
    ({ (nonced 0) with sec := { (nonced 0).sec with lock := some { scope := 1, at_ := 0, minutes := 1 } } } : State).tapOpen = true := by
  decide +kernel

/-- The same tokens with their signature: accepted. -/
theorem witness_TokensAndDebugLock_signed (h : ∀ key m sig, Config.ed448 key m sig = true) :
    (nonced 0).debugSigned (token 2 7 1440) = true ∧
    (nonced 1).transition (token 1 2 0) = some { (nonced 1).sec.cfg with lc := 2, owner := slice (token 1 2 0) 32 64 } := by
  have c : ∀ l tok, (nonced l).camnikSigned tok = true := fun l tok => h _ _ _
  constructor
  · exact c 0 _
  · have e : leAt (token 1 2 0) 2 1 = 2 := by decide +kernel
    have l : (nonced 1).sec.cfg.lc.toNat = 1 := rfl
    have o : ownerFused (slice (token 1 2 0) 32 64) = false := by decide +kernel
    unfold State.transition
    simp only [e, l, c, o]
    rfl

/-! ### Worked examples and tables of the spec -/

/-- Words written out from Tables 4-1 to 4-3: `latMm` of FP8 (major 0x28, format code 3), `bc.post` under p1, `sh.i` to
the right. -/
theorem test_words :
    decodeFloretWord 0 0b10100000000000000011001000000011#32 = some (.latMm 0 0 3 0 3 4) ∧
    decodeFloretWord 0 0b10110010010000000111010000000000#32 = some (.bcPost 0 9 0 7 8) ∧
    decodeFloretWord 0 0b00010100000011000010010000000111#32 = some (.shI 0 0 6 2 0x407) := by decide +kernel

/-- R109, Table 3-9: the LFSR after 1. -/
theorem test_lfsr : lfsrStep 1 = 0x80200003 ∧ lfsrStep 0x80200003 = 0xC0300002 ∧ lfsrStep 0xC0300002 = 0x60180001 ∧
    lfsrStep 0x60180001 = 0xB02C0003 := by decide +kernel

/-- "FP32 to E4M3": 14.5 in each mode, 470.0 with and without SAT, 464.0. -/
theorem test_fp32_to_e4m3 :
    (cvtElem .e4m3 { hr := 0, sat := false, rnd := 0 } 0 0x41680000).bits = 0x56 ∧
    (cvtElem .e4m3 { hr := 0, sat := false, rnd := 1 } 0 0x41680000).bits = 0x56 ∧
    (cvtElem .e4m3 { hr := 0, sat := false, rnd := 2 } 0xC0300002 0x41680000).bits = 0x57 ∧
    (cvtElem .e4m3 { hr := 0, sat := false, rnd := 2 } 1 0x41680000).bits = 0x56 ∧
    cvtElem .e4m3 { hr := 0, sat := true, rnd := 0 } 0 0x43EB0000 = { bits := 0x7E, sat := true, nan := false } ∧
    cvtElem .e4m3 { hr := 0, sat := false, rnd := 0 } 0 0x43EB0000 = { bits := 0x7F, sat := true, nan := false } ∧
    cvtElem .e4m3 { hr := 0, sat := false, rnd := 0 } 0 0x43E80000 = { bits := 0x7E, sat := false, nan := false } := by decide +kernel

/-- Table 3-10: 7.5 and −0.3 in an MXFP4 block with headroom 0 and 1. -/
theorem test_mxfp4_headroom :
    (let r := mxBlock .mx4e2m1 { hr := 0, sat := false, rnd := 0 } [0, 0] [0x40F00000, 0xBE99999A]
     r.1 = 0x7F ∧ r.2.map (fun e => e.bits) = [0x7, 0x9]) ∧
    (let r := mxBlock .mx4e2m1 { hr := 1, sat := false, rnd := 0 } [0, 0] [0x40F00000, 0xBE99999A]
     r.1 = 0x80 ∧ r.2.map (fun e => e.bits) = [0x6, 0x8]) := by decide +kernel

/-- Table 3-6: the order of steps is part of the result. -/
theorem test_accumulation_order :
    (let p := fun (x y : Nat) => FVal.mul (Fmt.decode .e5m2 x) (Fmt.decode .e5m2 y)
     let t1 := accStep true [] 0 (p 0x6C 0x6C)
     let t2 := accStep false t1 0 (p 0x3C 0x3C)
     let t3 := accStep false t2 0 (p 0x3C 0x3C)
     Tab.get 0 t1 0 = 0x4B800000 ∧ Tab.get 0 t2 0 = 0x4B800000 ∧ Tab.get 0 t3 0 = 0x4B800000 ∧
     Tab.get 0 (accStep false t3 0 (p 0xEC 0x6C)) 0 = 0) := by decide +kernel

/-- "Locating one line": stack, stack-local address and pseudo-channel of PA 0x000_3000_59C0, and the next granule's
stack. -/
theorem test_granary_hash : hashPa 0x300059C0 = (13, 0x20009C0) ∧ pcOf 0x20009C0 = 9 ∧ (hashPa 0x30006000).1 = 14 := by decide +kernel

/-- "In-field test of tiller 3": the RESULT and the two repair entries. -/
theorem test_bist_result : bistResult 2 7 61 1 1 0 = 0x0207003D00010100 ∧ repEntry 2 726 = 0x200002D6 ∧
    repEntry 3 (43276 * 512 + 301) = 0x3152192D := by decide +kernel

/-- "Reading one fault address": the detail of the fault record of spikelet 5 of panicle 40 of tiller 1, which both halves of
the pair name. -/
theorem test_fault_record_offset :
    (let s := State.reset.setSpk ((1 * 192 + 40) * 64 + 5) { frec := { (State.reset.spk 0).frec with valid := true, code := 0x40, detail := 0x123456789ABCDEF0 } }
     s.regVal 0x1251058 0 = 0x123456789ABCDEF0 ∧ pairLo 0x1251058 = true ∧ pairHi 0x125105C = true) := by decide +kernel

/-- R109 and "FP32 to E4M3": the third stochastic element after `cvt.seed` with 1 uses 0xC030_0002. -/
theorem test_third_draw : ((lfsrDraw { hr := 0, sat := false, rnd := 2 } 3 1).1)[2]? = some 0xC0300002 := by decide +kernel

/-- R194, R198: floret 5's area starts five times 8 KiB past the spill base, and is private to it while it runs. -/
theorem test_spill_area_private :
    (let s := ((State.reset.setCtx 1 { st := .live, spb := 0x10000 }).setSpk 0 { bound := some (1, 0) }).setFloret 5 { status := .runnable }
     s.spillVa 0 5 63 = 0x1BF80 ∧ s.spillPrivate 1 0x1BF80 128 none = true ∧ s.spillPrivate 1 0x1BF80 128 (some 5) = false ∧
     s.spillPrivate 1 0x1C000 8 none = false ∧ s.spillPrivate 1 0x19FF9 8 none = true ∧ s.spillPrivate 1 0x19FF8 8 none = false) := by
  decide +kernel

/-! ### Commands that cannot be sent -/

/-- A packet of 2,049 bytes. -/
def bigPkt : Packet := { payload := List.replicate 2049 0 }

/-- Every check of `Instr.wf` refuses something. -/
theorem test_ill_formed : ∀ i ∈ ([
    .getReq bigPkt, .packetRoute 0 0 bigPkt, .redUp (.router 0) bigPkt, .sheafTransmit 0 0 0 bigPkt,
    .ibufFill 0 [{ word := 4, ue := false }], .bankAccessGrant 0 [{ word := 8, ue := false }], .latRowArrive 0 .weights [{ word := 8, ue := true }],
    .latOpHead 0 [{ word := 3, ue := false }], .broadcastBeat 0 [{ word := 9, ue := false }],
    .floretStart 0 0 0 0 65 0, .floretStart 0 0 0 0 4 5, .floretStart 0 2 0 0 0 0,
    .stewardMsg {} (.forward 0 0 0 0 [0]), .runAheadWrite 0 0xFFFF 0 [0, 0]] : List Instr), i.wf = false := by decide +kernel

theorem test_ill_formed_more : ∀ i ∈ ([
    .granaryRequest 0 { cls := 0, line := 0, ctx := 0, gen := 0, write := true, mask := 0, bytes := [0] },
    .granaryReadReturn 0 0 { ce := 9 },
    .launchGraph 0 0 [{ panicles := [], spikelets := [], members := [], landing := [], runAhead := [], cells := [], starts := [{ floret := 0, pc := 1, lwBase := 0, lwRows := 0, lwRes := 0 }] }] 0,
    .copy 0 0 (List.replicate 2049 0) 0, .bistComplete [.bankRows 0 [] []] 0, .bistComplete [] 256,
    .bootPhaseComplete .rom [.grnRows 0 []], .tillerWave 0 0 [.storeRows 0 [] []], .domainReentryComplete 8 false [.grnRows 0 []],
    .bar4Access 0 0 none, .bar4Access 0 4 (some []), .bar4Timeout 0 0 true, .bootData 0 16384 (List.replicate 1024 0), .bootData 0 0 [],
    .fwBlock 0 16384, .unitShadow 0 [], .powerSample 65536, .challenge .mctp 0 [], .getMeasurements .mctp 1 true []] : List Instr),
    i.wf = false := by decide +kernel

theorem test_ill_formed_update (l : List Byte) (h : 16777216 < l.length) : (Instr.requestUpdate l).wf = false :=
  decide_eq_false (by omega)

/-! #### Links, routers and straws: the hypotheses of one clause together -/

/-- A flit that passes its check and one that fails it, at a link with a packet on its wire. -/
theorem witness_MeshLinkReplays :
    let k : Packet := { dst := 0x41 }
    let s := { (State.reset.setLink 1 3 { wire := [(k, 0)], fails := 8 }) with fab := { (State.reset.setLink 1 3 { wire := [(k, 0)], fails := 8 }).fab with sent := [k] } }
    (s.link 1 3).down = false ∧ meshOff 1 3 = false ∧ (s.link 1 3).discard = false ∧ (s.link 1 3).wire = (k, 0) :: [] ∧ s.hasPkt k = true ∧
    8 ≤ (s.link 1 3).fails ∧
    (let f : MeshFlit := { data := 0, vc := 0, typ := 4, crc := Config.crc16 0 0 4 }
     f.crc = Config.crc16 f.data f.vc f.typ ∧ (Config.crc16 0 0 4 + 1#16) ≠ Config.crc16 f.data f.vc f.typ) := by
  refine ⟨by decide +kernel, by decide +kernel, by decide +kernel, by decide +kernel, by decide +kernel, by decide +kernel, rfl, ?_⟩
  intro h
  have := congrArg BitVec.toNat h
  simp only [BitVec.toNat_add, BitVec.toNat_ofNat] at this
  have := (Config.crc16 0 0 4).isLt
  omega

/-- A direction with plane A active and plane B on standby: the flit that it expects on both planes, on one alone, another
flit on one, on neither. -/
theorem witness_BridgeReceiverDecides :
    let d : BDir := { a := { state := .active }, b := { state := .standby }, down := false }
    let s := State.reset.setDir 0 d
    let f := mkFrame 7 (bridgeLow 0 0 0 4 0 0 0)
    let g := mkFrame 8 (bridgeLow 0 0 0 4 0 0 0)
    (s.dir 0).down = false ∧ ((s.dir 0).plane (s.dir 0).drive).state = .active ∧ ((s.dir 0).plane (!(s.dir 0).drive)).state = .standby ∧
    frameOk f = true ∧ frameOk g = true ∧ frameOk (f ^^^ 1) = false ∧ seqdType ((frameLow f).extractLsb' 10 3) = true ∧
    (frameLow f).extractLsb' 20 12 = (s.dir 0).expected ∧ frameData f ≠ frameData g ∧
    (frameLow (mkFrame 7 (bridgeLow 1 0 0 4 0 0 0))).extractLsb' 20 12 ≠ (s.dir 0).expected := by decide +kernel

/-- Router 0 of tiller 0 holds a packet of its combiner for panicle 17, and one that names straw 0: each has its port; the
first goes east, unless the next buffer is full. -/
theorem witness_RoutersResolveHeads :
    let e : W32 := BitVec.ofNat 32 (2 ^ 31 + 15 * 2 ^ 24)
    let k : Packet := { dst := BitVec.ofNat 48 (17 * 2 ^ 13 + 0x41), src := 0x7E, kind := 3, vc := 4 }
    let v : Packet := { k with via := some 0 }
    let s0 := State.reset.setDie 0 { tables := [(entryKey 0 0 17, e)] }
    let s := { s0 with fab := { s0.fab with sent := [k, v] } }
    s.hasPkt k = true ∧ s.portOf (nodeOf 0 0) k = some 4 ∧ ecMalformed k.dst = false ∧ ecPkg k.dst = s.fab.coord ∧ ecFn k.dst ≠ 0x7F ∧
    k.via = none ∧ ((s.die 0).entry k.epoch.toNat 0 (ecPanIx k.dst)) = e ∧ e.getLsbD 31 = true ∧ ecTil k.dst = 0 ∧ fld e 27 24 = 15 ∧
    (s.goOn 0 0 (.toPanicle 17) k).isSome = true ∧
    (let u := { s with fab := { s.fab with parked := List.replicate 33 { at_ := 1, port := 3, pkt := k } } }
     (u.goOn 0 0 (.toPanicle 17) k).isNone = true) ∧
    s.portOf (nodeOf 0 0) v = some 4 ∧ v.via = some 0 ∧ (s.resolve 0 0 v).map (·.1) = some (.toStraw 0) := by decide +kernel

/-- A frame with a whole packet in its order on a straw of sheaf 10, of an ordinary packet and of a reduction's for the port
and past it; a frame that fails its check. -/
theorem witness_StrawsReceiveFrames :
    let s := State.reset.setStraw 31 { state := .up, heard := some roll }
    let data := fun (k : Packet) => flitData (pktBytes k) 0
    let frame := fun (k : Packet) => mkFrame (data k) (strawLow 0 0 0 4)
    let crc := fun (k : Packet) => frameCrc (data k) (strawLow 0 0 0 4)
    let k : Packet := { dst := BitVec.ofNat 48 0x41, op := 1, vc := 0 }
    (s.straw 31).trained = true ∧ (s.straw 31).state = .up ∧ frameOk (strawFrame (data k) 0 0 0 4 0 (crc k)) = true ∧
    strawFrame (data k) 0 0 0 4 0 (crc k) = frame k ∧ frameOk (frame k ^^^ 1) = false ∧ seqdType 4 = true ∧ (0 : BitVec 14) = (s.straw 31).rxNext ∧
    s.sheafOf 31 = some 10 ∧ pktOf (toLE 64 (data k).toNat) = k ∧ k.kind ≠ 3 ∧ s.room (strawRouter 31) 5 k = true ∧
    (0 : BitVec 10) = Tab.get 0 (s.sheaf 10).rxNext (31 / 4 * 8 + k.vc.toNat) ∧
    Tab.get [] (s.sheaf 10).reorder (1024 + 31 * 8 + k.vc.toNat) = [] ∧
    (let r : Packet := { k with op := 0x30, kind := 3, word := BitVec.ofNat 64 (2 ^ 17) }
     (pktOf (toLE 64 (data r).toNat)).kind = 3 ∧ (pktOf (toLE 64 (data r).toNat)).word.getLsbD 17 = true) := by decide +kernel

/-- A packet that its straw has granted: of a sub-sheaf, and a reduction's that names the straw. -/
theorem witness_SheavesSharesAndRings_send :
    let p : Packet := { vc := 7 }
    let v : Packet := { vc := 4, kind := 3, via := some 31 }
    let s0 := (State.reset.setStraw 31 { state := .up, heard := some roll }).setArb (.sheaf 31) { given := [p, v] }
    let s := { s0 with fab := { s0.fab with sent := [p, v], routed :=
      [{ die := 7, at_ := 225, out := true, exit := .toSheaf 10 7 0, pkt := p }, { die := 7, at_ := 225, out := true, exit := .toStraw 31, pkt := v }] } }
    s.hasPkt p = true ∧ p.via = none ∧ (s.shfRouted 10 7 7).find? (sameFlow p) = some p ∧ p.pkgs ≠ 15 ∧ 31 ∈ s.liveOn 10 7 ∧
    p ∈ s.givenTo 31 ∧ (s.straw 31).ready p = true ∧
    s.hasPkt v = true ∧ v.via.isSome = true ∧ v ∈ s.shfNamed 31 4 ∧ (s.straw 31).state = .up ∧ v ∈ s.givenTo 31 ∧ (s.straw 31).ready v = true ∧
    (State.reset.straw 31).state ≠ .up := by decide +kernel

/-- A line that the scrub class holds a grant for; a row that is due for repair with a repair row left and without. -/
theorem witness_StackMaintenance :
    (let g : Grant := { who := 4, bytes := 64, whole := true, aim := .scrub }
     let s := State.reset.setArb (.hbm 0 (linePc (State.reset.stack 0).scrubPos)) { holder := some g }
     (s.stack 0).scrubEn = true ∧ (s.stack 0).hasLine (s.stack 0).scrubPos = false ∧
     (s.arb (.hbm 0 (linePc (s.stack 0).scrubPos))).holder.map (·.who) = some 4 ∧ s.lineMark 0 (s.stack 0).scrubPos = none) ∧
    (let k : Stack := { rowBad := [rowKey 0] }
     k.repairDue (rowKey 0) 0 = true ∧ k.rowsTaken (bankKey 0) < 2 ∧
     ({ k with soft := [rowKey 0, rowKey 0] } : Stack).repairDue (rowKey 0) 0 = true ∧
     2 ≤ ({ k with soft := [rowKey 0, rowKey 0] } : Stack).rowsTaken (bankKey 0) ∧ ({} : Stack).repairDue (rowKey 0) 0 = false) := by
  decide +kernel

end Sys2Proof.Tests
end

/-! Results of the integer instructions (R127), of `mov.k` (R128) and of the branches (R129, R130): what a register reads
after a write, the arithmetic of the result values, and one law for each shape of instruction. -/

namespace Sys2Proof.Machine

/-! ### Registers of a floret -/

section Registers

variable (fl : Floret) (d r : BitVec 5) (v : W64)

@[simp] theorem Floret.rd_zero : fl.rd 0 = 0 := rfl

@[simp] theorem Floret.wr_zero : fl.wr 0 v = fl := rfl

@[simp] theorem Floret.rd_wr_same (hd : d ≠ 0) : (fl.wr d v).rd d = v := by
  rw [Floret.rd, Floret.wr, if_neg hd, if_neg hd, Tab.get_set_same]

theorem Floret.rd_wr_other (h : r ≠ d) : (fl.wr d v).rd r = fl.rd r := by
  have hk : d.toNat ≠ r.toNat := fun e => h (BitVec.eq_of_toNat_eq e.symm)
  by_cases hd : d = 0
  · rw [hd, Floret.wr_zero]
  · rw [Floret.rd, Floret.rd, Floret.wr, if_neg hd, Tab.get_set_other _ _ _ _ _ hk]

end Registers

/-! ### Fields of words -/

theorem testBit_fieldMask (hi lo i : Nat) :
    ((2 ^ (hi + 1 - lo) - 1) <<< lo).testBit i = decide (lo ≤ i ∧ i ≤ hi) := by
  rw [Nat.testBit_shiftLeft, Nat.testBit_two_pow_sub_one, ← Bool.decide_and, decide_eq_decide]
  omega

/-- The bits of a word after a write to its field [hi:lo]: the value's in the field, the old ones outside it. -/
theorem getLsbD_setFld {n : Nat} (x : BitVec n) (hi lo v i : Nat) (hn : i < n) :
    (setFld x hi lo v).getLsbD i = if lo ≤ i ∧ i ≤ hi then v.testBit (i - lo) else x.getLsbD i := by
  simp only [setFld, BitVec.getLsbD_or, BitVec.getLsbD_and, BitVec.getLsbD_not, BitVec.getLsbD_ofNat, testBit_fieldMask]
  by_cases h : lo ≤ i ∧ i ≤ hi
  · simp [hn, h, Nat.testBit_shiftLeft]
  · simp [hn, h]

/-- A word that is put together from what lies above a field, the field and what lies below it. -/
theorem testBit_fieldSum (x v w lo i : Nat) (hv : v < 2 ^ w) :
    (x / 2 ^ (lo + w) * 2 ^ (lo + w) + v * 2 ^ lo + x % 2 ^ lo).testBit i =
      if i < lo then x.testBit i else if i < lo + w then v.testBit (i - lo) else x.testBit i := by
  have hsum : x / 2 ^ (lo + w) * 2 ^ (lo + w) + v * 2 ^ lo + x % 2 ^ lo =
      2 ^ lo * (2 ^ w * (x / 2 ^ (lo + w)) + v) + x % 2 ^ lo := by
    rw [Nat.mul_add, ← Nat.mul_assoc, ← Nat.pow_add, Nat.mul_comm (2 ^ (lo + w)), Nat.mul_comm (2 ^ lo) v]
  rw [hsum, Nat.testBit_two_pow_mul_add _ (Nat.mod_lt _ (Nat.two_pow_pos lo))]
  split
  · next h => simp [Nat.testBit_mod_two_pow, h]
  · next h =>
    rw [Nat.testBit_two_pow_mul_add _ hv]
    by_cases hw : i < lo + w
    · simp [hw, show i - lo < w by omega]
    · simp [hw, show ¬ i - lo < w by omega, Nat.testBit_div_two_pow, show i - lo - w + (lo + w) = i by omega]

/-- A write of a whole field as arithmetic: what lies above the field, the value in its place, and what lies below. -/
theorem setFld_eq_ofNat {n : Nat} (x : BitVec n) (v w lo : Nat) (hw : 0 < w) (hv : v < 2 ^ w) :
    setFld x (lo + w - 1) lo v =
      BitVec.ofNat n (x.toNat / 2 ^ (lo + w) * 2 ^ (lo + w) + v * 2 ^ lo + x.toNat % 2 ^ lo) := by
  apply BitVec.eq_of_getLsbD_eq
  intro i hi
  rw [getLsbD_setFld x _ lo v i hi, BitVec.getLsbD_ofNat, testBit_fieldSum _ _ _ _ _ hv, ← BitVec.testBit_toNat]
  simp only [hi, decide_true, Bool.true_and]
  by_cases h : lo ≤ i ∧ i ≤ lo + w - 1
  · simp [h, show ¬ i < lo by omega, show i < lo + w by omega]
  · by_cases hlo : i < lo
    · simp [h, hlo]
    · simp [h, hlo, show ¬ i < lo + w by omega]

/-! ### Values of the integer instructions (Table 4-5) -/

section Values

variable (x y : W64)

theorem ltS_eq_decide : ltS x y = decide (x.toInt < y.toInt) := BitVec.slt_eq_decide

theorem minS_eq : (if ltS y x then y else x) = if x.toInt ≤ y.toInt then x else y := by
  by_cases h : x.toInt ≤ y.toInt
  · simp [ltS_eq_decide, h, Int.not_lt.mpr h]
  · simp [ltS_eq_decide, h, Int.not_le.mp h]

theorem maxS_eq : (if ltS x y then y else x) = if x.toInt ≤ y.toInt then y else x := by
  rcases Int.lt_trichotomy x.toInt y.toInt with h | h | h
  · simp [ltS_eq_decide, h, Int.le_of_lt h]
  · simp [BitVec.eq_of_toInt_eq h]
  · simp [ltS_eq_decide, Int.not_le.mpr h, Int.lt_asymm h]

theorem minU_eq : (if y < x then y else x) = if x.toNat ≤ y.toNat then x else y := by
  by_cases h : x.toNat ≤ y.toNat
  · simp [BitVec.lt_def, h, Nat.not_lt.mpr h]
  · simp [BitVec.lt_def, h, Nat.not_le.mp h]

theorem maxU_eq : (if x < y then y else x) = if x.toNat ≤ y.toNat then y else x := by
  rcases Nat.lt_trichotomy x.toNat y.toNat with h | h | h
  · simp [BitVec.lt_def, h, Nat.le_of_lt h]
  · simp [BitVec.eq_of_toNat_eq h]
  · simp [BitVec.lt_def, Nat.not_le.mpr h, Nat.lt_asymm h]

theorem mul_eq_ofNat : x * y = BitVec.ofNat 64 (x.toNat * y.toNat) := by
  simp [BitVec.ofNat_mul]

/-- Bits [127:64] of a product as `mulh` takes them: the floor of the integer product by 2 ^ 64. -/
theorem high_ofInt (m : Int) : ((BitVec.ofInt 128 m) >>> 64).setWidth 64 = BitVec.ofInt 64 (m / 2 ^ 64) := by
  apply BitVec.eq_of_toNat_eq
  simp only [BitVec.toNat_setWidth, BitVec.toNat_ushiftRight, BitVec.toNat_ofInt, Nat.shiftRight_eq_div_pow]
  omega

theorem mulh_eq :
    ((x.signExtend 128 * y.signExtend 128) >>> 64).setWidth 64 = BitVec.ofInt 64 (x.toInt * y.toInt / 2 ^ 64) := by
  rw [← high_ofInt, BitVec.ofInt_mul]
  rfl

theorem mulhu_eq :
    ((x.setWidth 128 * y.setWidth 128) >>> 64).setWidth 64 = BitVec.ofNat 64 (x.toNat * y.toNat / 2 ^ 64) := by
  have h := high_ofInt ((x.toNat * y.toNat : Nat) : Int)
  rw [BitVec.ofInt_natCast, BitVec.ofNat_mul, BitVec.ofNat_toNat, BitVec.ofNat_toNat] at h
  rw [h]
  exact BitVec.ofInt_natCast 64 (x.toNat * y.toNat / 2 ^ 64)

theorem popUpTo_eq_length (n : Nat) : ∀ k : Nat, popUpTo n k = ((List.range n).filter (fun i => k.testBit i)).length := by
  induction n with
  | zero => exact fun _ => rfl
  | succ n ih =>
    intro k
    rw [popUpTo, ih, List.range_succ_eq_map, List.filter_cons, List.filter_map, Nat.testBit_zero]
    have hshift : ((fun i => k.testBit i) ∘ Nat.succ) = fun i => (k / 2).testBit i :=
      funext fun i => Nat.testBit_succ k i
    rw [hshift]
    rcases Nat.mod_two_eq_zero_or_one k with h | h <;> simp [h, Nat.add_comm]

theorem popc_eq_length : popc x = ((List.range 64).filter (fun i => x.getLsbD i)).length :=
  popUpTo_eq_length 64 x.toNat

/-- `sh.i` by its immediate (R127): the form is in bits [11:6], the amount in bits [5:0]. -/
theorem shiftI_left {imm : BitVec 12} (h : imm.toNat / 64 = 0) : shiftI imm x = x <<< (imm.toNat % 64) := by
  have hform : fld imm 11 10 = 0 := by simp only [fld, fieldOf, Nat.shiftRight_eq_div_pow]; omega
  rw [shiftI, hform]
  rfl

theorem shiftI_right {imm : BitVec 12} (h : imm.toNat / 64 = 0x10) : shiftI imm x = x >>> (imm.toNat % 64) := by
  have hform : fld imm 11 10 = 1 := by simp only [fld, fieldOf, Nat.shiftRight_eq_div_pow]; omega
  rw [shiftI, hform]
  rfl

theorem shiftI_arith {imm : BitVec 12} (h : imm.toNat / 64 = 0x20) :
    shiftI imm x = x.sshiftRight (imm.toNat % 64) := by
  have hform : fld imm 11 10 = 2 := by simp only [fld, fieldOf, Nat.shiftRight_eq_div_pow]; omega
  rw [shiftI, hform]
  rfl

/-- The immediate of `sh.i` is reserved unless its bits [11:6] are 0, 0x10 or 0x20 (R124, R127). -/
theorem shiftI_reserved (imm : BitVec 12) :
    (decide (fld imm 11 10 = 3) || decide (fld imm 9 6 ≠ 0)) =
      decide (imm.toNat / 64 ≠ 0 ∧ imm.toNat / 64 ≠ 0x10 ∧ imm.toNat / 64 ≠ 0x20) := by
  rw [← Bool.decide_or, decide_eq_decide]
  simp only [fld, fieldOf, Nat.shiftRight_eq_div_pow]
  omega

end Values

/-! ### Values of `mov.k` (R128) -/

section MovK

variable (h : BitVec 2) (imm : BitVec 16) (x : W64)

theorem movKVal_zero : movKVal h 0 imm x = BitVec.ofNat 64 (imm.toNat * 2 ^ (16 * h.toNat)) := by
  apply BitVec.eq_of_toNat_eq
  simp [movKVal, Nat.shiftLeft_eq]

theorem movKVal_one :
    movKVal h 1 imm x = BitVec.ofNat 64 (x.toNat / 2 ^ (16 * h.toNat + 16) * 2 ^ (16 * h.toNat + 16) +
      imm.toNat * 2 ^ (16 * h.toNat) + x.toNat % 2 ^ (16 * h.toNat)) :=
  setFld_eq_ofNat x imm.toNat 16 (16 * h.toNat) (by decide) imm.isLt

theorem movKVal_two : movKVal h 2 imm x = BitVec.ofInt 64 (imm.toInt * 2 ^ (16 * h.toNat)) := by
  have hpow : BitVec.twoPow 64 (16 * h.toNat) = BitVec.ofInt 64 (2 ^ (16 * h.toNat)) := by
    apply BitVec.eq_of_toNat_eq
    rw [BitVec.toNat_twoPow, BitVec.toNat_ofInt]
    exact_mod_cast rfl
  calc movKVal h 2 imm x
    _ = imm.signExtend 64 * BitVec.twoPow 64 (16 * h.toNat) := BitVec.shiftLeft_eq_mul_twoPow _ _
    _ = BitVec.ofInt 64 imm.toInt * BitVec.ofInt 64 (2 ^ (16 * h.toNat)) := by rw [hpow]; rfl
    _ = BitVec.ofInt 64 (imm.toInt * 2 ^ (16 * h.toNat)) := (BitVec.ofInt_mul _ _).symm

end MovK

/-! ### Targets of the branches (R129, R130, R166) -/

theorem brTarget_eq (pc : BitVec 20) (off : BitVec 17) :
    pc + 4 * off.signExtend 20 = BitVec.ofInt 20 (pc.toNat + 4 * off.toInt) := by
  rw [BitVec.ofInt_add, BitVec.ofInt_mul, BitVec.ofInt_natCast, BitVec.ofNat_toNat, BitVec.setWidth_eq]
  rfl

/-- Of two failing checks the one with the lower code raises its fault (R166). -/
theorem checked_align_fetch (align fetch : Bool) (detail : Option W64) (r : Unit → Issued) :
    checked [(align, 0x03, detail), (fetch, 0x02, detail)] r =
      if fetch then .fault 0x02 detail else if align then .fault 0x03 detail else r () := by
  cases align <;> cases fetch <;> rfl

/-- What `jr` does past the reserved field (R130): a target past the store is met before a misaligned one, since its code
is the lower (R166). -/
theorem jrChecked_eq (t : W64) (r : Unit → Issued) :
    checked [(decide (fld t 1 0 ≠ 0), 0x03, some t), (decide (fld t 63 19 ≠ 0), 0x02, some t)] r =
      if 2 ^ 19 ≤ t.toNat then .fault 0x02 (some t) else if t.toNat % 4 ≠ 0 then .fault 0x03 (some t) else r () := by
  have halign : fld t 1 0 = t.toNat % 4 := rfl
  have hpast : fld t 63 19 ≠ 0 ↔ 2 ^ 19 ≤ t.toNat := by
    simp only [fld, fieldOf, Nat.shiftRight_eq_div_pow]
    omega
  simp only [checked_align_fetch, decide_eq_true_eq, hpast, halign]

/-! ### The shapes of instructions -/

section Shapes

variable {s : State} {f : FloretId} {g : BitVec 4} {d a b : BitVec 5} {c : Instr} {v : W64} {regs : List (BitVec 5)} {ill : Bool}
  {body : Floret → Issued}

/-- An instruction that names fewer registers can be fetched too. -/
theorem Fetched.mono {rs : List (BitVec 5)} (h : Fetched s f regs) (hsub : rs ⊆ regs) : Fetched s f rs :=
  ⟨h.1, h.2.1, fun r hr => h.2.2 r (hsub hr)⟩

/-- An instruction whose effect at issue is the result `v` in s_d. -/
theorem issue_retires (hc : exec c s = .next (s.issue f regs ill g body)) (h : Ready s f g regs) (hill : ill = false)
    (hv : body (s.floret f.val) = .ok (s.wrReg f d v)) :
    ∃ t, exec c s = .next t ∧ Retires s t f { (s.floret f.val).wr d v with pc := (s.floret f.val).pc + 4 } := by
  subst hill
  refine ⟨_, hc, ?_⟩
  rw [State.issue_ready h, hv]
  exact retires_ok _ _

/-- A false guard leaves only the move of the PC (R122). -/
theorem issue_skips (hc : exec c s = .next (s.issue f regs false g body)) (h : Fetched s f regs)
    (hg : (s.floret f.val).guard g = false) :
    ∃ t, exec c s = .next t ∧ Retires s t f { s.floret f.val with pc := (s.floret f.val).pc + 4 } := by
  refine ⟨_, hc, ?_⟩
  rw [State.issue_fetched h, hg]
  exact retires_skip _

/-- A reserved field raises ILLEGAL (R124). -/
theorem issue_illegal (hc : exec c s = .next (s.issue f regs ill g body)) (h : Fetched s f regs) (hill : ill = true) :
    exec c s = .next (s.syncFault f.val 0x01 (s.floret f.val).pc none) := by
  subst hill
  rw [hc, State.issue_reserved h.1]

/-- Instructions with two source registers, under a true and under a false guard. -/
theorem regOp_results {op : W64 → W64 → W64} (hc : exec c s = .next (s.regOp f g d a b op))
    (hv : op ((s.floret f.val).rd a) ((s.floret f.val).rd b) = v) :
    (Ready s f g [d, a, b] →
      ∃ t, exec c s = .next t ∧ Retires s t f { (s.floret f.val).wr d v with pc := (s.floret f.val).pc + 4 }) ∧
    (Fetched s f [d, a, b] → (s.floret f.val).guard g = false →
      ∃ t, exec c s = .next t ∧ Retires s t f { s.floret f.val with pc := (s.floret f.val).pc + 4 }) := by
  subst hv
  exact ⟨fun h => issue_retires hc h rfl rfl, fun h => issue_skips hc h⟩

/-- Instructions with one source register, with the reserved b field 0 and with a nonzero one. -/
theorem regOp1_results {op : W64 → W64} (hc : exec c s = .next (s.regOp1 f g d a b op))
    (hv : op ((s.floret f.val).rd a) = v) :
    (b = 0 → Ready s f g [d, a] →
      ∃ t, exec c s = .next t ∧ Retires s t f { (s.floret f.val).wr d v with pc := (s.floret f.val).pc + 4 }) ∧
    (b ≠ 0 → Fetched s f [d, a] → exec c s = .next (s.syncFault f.val 0x01 (s.floret f.val).pc none)) := by
  subst hv
  exact ⟨fun hb h => issue_retires hc h (decide_eq_false (Decidable.not_not.mpr hb)) rfl,
    fun hb h => issue_illegal hc h (decide_eq_true hb)⟩

/-- Instructions with an immediate whose form is not reserved. -/
theorem immOp_retires {op : W64 → W64} (hc : exec c s = .next (s.immOp f g d a ill op)) (h : Ready s f g [d, a])
    (hill : ill = false) (hv : op ((s.floret f.val).rd a) = v) :
    ∃ t, exec c s = .next t ∧ Retires s t f { (s.floret f.val).wr d v with pc := (s.floret f.val).pc + 4 } := by
  subst hv
  exact issue_retires hc h hill rfl

/-- `sh.i` with an immediate in one of its three forms. -/
theorem shI_retires {imm : BitVec 12} (h : Ready s f g [d, a])
    (hform : imm.toNat / 64 = 0 ∨ imm.toNat / 64 = 0x10 ∨ imm.toNat / 64 = 0x20)
    (hv : shiftI imm ((s.floret f.val).rd a) = v) :
    ∃ t, exec (.shI f g d a imm) s = .next t ∧
      Retires s t f { (s.floret f.val).wr d v with pc := (s.floret f.val).pc + 4 } :=
  immOp_retires rfl h ((shiftI_reserved imm).trans (decide_eq_false (by omega))) hv

/-- `mov.k` in a mode that is not reserved. -/
theorem movK_retires {h mode : BitVec 2} {imm : BitVec 16} (hr : Ready s f 0 [d]) (hm : mode ≠ 3)
    (hv : movKVal h mode imm ((s.floret f.val).rd d) = v) :
    ∃ t, exec (.movK f h mode d 0 imm) s = .next t ∧
      Retires s t f { (s.floret f.val).wr d v with pc := (s.floret f.val).pc + 4 } := by
  subst hv
  exact issue_retires rfl hr (by rw [decide_eq_false hm]; rfl) rfl

/-- What a ready `jr` with its reserved field 0 does, by its target. -/
theorem exec_jr_ready {t : W64} (h : Ready s f g [d, a]) (ht : (s.floret f.val).rd a = t) :
    exec (.jr f g d a 0) s =
      .next (s.after f.val (s.floret f.val).pc
        (if 2 ^ 19 ≤ t.toNat then .fault 0x02 (some t) else if t.toNat % 4 ≠ 0 then .fault 0x03 (some t)
        else .jump (s.wrReg f d (((s.floret f.val).pc + 4).setWidth 64)) (t.setWidth 20))) := by
  subst ht
  rw [← jrChecked_eq ((s.floret f.val).rd a)
    (fun _ => .jump (s.wrReg f d (((s.floret f.val).pc + 4).setWidth 64)) (((s.floret f.val).rd a).setWidth 20))]
  exact congrArg Host.Outcome.next (State.issue_ready h)

end Shapes

end Sys2Proof.Machine

section

open Sys2Proof Sys2Proof.Machine

/-- Settles O6: each row of Table 4-5 has the shape of its operands, and the value that its operation gives. -/
theorem integerInstructions : Obligations.IntegerInstructions := by
  unfold Obligations.IntegerInstructions
  refine ⟨fun fl d r v => ⟨fl.wr d v |>.rd_zero, fl.wr_zero v, fl.rd_wr_same d v, fl.rd_wr_other d r v⟩, ?_, ?_, ?_⟩
  · intro f g d a b s fl x y
    simp only [List.forall_mem_cons]
    exact ⟨regOp_results rfl rfl, regOp_results rfl rfl, regOp_results rfl rfl, regOp_results rfl rfl,
      regOp_results rfl rfl, regOp_results rfl rfl, regOp_results rfl rfl, regOp_results rfl rfl,
      regOp_results rfl (minS_eq x y), regOp_results rfl (maxS_eq x y), regOp_results rfl (minU_eq x y),
      regOp_results rfl (maxU_eq x y), regOp_results rfl (mul_eq_ofNat x y), regOp_results rfl (mulh_eq x y),
      regOp_results rfl (mulhu_eq x y), List.forall_mem_nil _⟩
  · intro f g d a b s fl x
    simp only [List.forall_mem_cons]
    exact ⟨regOp1_results rfl (by rw [BitVec.setWidth_eq_extractLsb' (by decide)]),
      regOp1_results rfl (by rw [BitVec.setWidth_eq_extractLsb' (by decide)]),
      regOp1_results rfl (by rw [BitVec.setWidth_eq_extractLsb' (by decide)]),
      regOp1_results rfl rfl, regOp1_results rfl (congrArg _ (popc_eq_length x)), List.forall_mem_nil _⟩
  · intro f g d a imm s fl x k retires
    constructor
    · intro h
      exact ⟨immOp_retires rfl h rfl rfl, immOp_retires rfl h rfl rfl, immOp_retires rfl h rfl rfl,
        immOp_retires rfl h rfl rfl, fun hk => shI_retires h (.inl hk) (shiftI_left x hk),
        fun hk => shI_retires h (.inr (.inl hk)) (shiftI_right x hk),
        fun hk => shI_retires h (.inr (.inr hk)) (shiftI_arith x hk)⟩
    · intro h hl hr ha
      exact issue_illegal rfl h ((shiftI_reserved imm).trans (decide_eq_true ⟨hl, hr, ha⟩))

/-- Settles O7: `mov.k` writes the value of its mode, and a reserved mode or bit 16 is met before it. -/
theorem movKResults : Obligations.MovKResults := by
  unfold Obligations.MovKResults
  intro f h mode d z imm s fl at_ old retires
  constructor
  · rintro hr rfl
    refine ⟨?_, ?_, ?_⟩ <;> rintro rfl
    · exact movK_retires hr (by decide) (movKVal_zero h imm (fl.rd d))
    · exact movK_retires hr (by decide) (movKVal_one h imm (fl.rd d))
    · exact movK_retires hr (by decide) (movKVal_two h imm (fl.rd d))
  · intro hf hres
    exact issue_illegal rfl hf (by simpa using hres)

/-- Settles O9: both branches jump with the link written; the checks of `jr` come before its jump. -/
theorem branchTargets : Obligations.BranchTargets := by
  unfold Obligations.BranchTargets
  intro f g d a b off s fl link x
  refine ⟨?_, ?_, ?_⟩
  · intro h
    refine ⟨_, congrArg Host.Outcome.next (State.issue_ready h), ?_⟩
    rw [← brTarget_eq]
    exact retires_jump _ _ _
  · intro h hg
    simp only [List.forall_mem_cons]
    exact ⟨issue_skips rfl (h.mono (by simp)) hg, issue_skips rfl h hg, List.forall_mem_nil _⟩
  · rintro h rfl
    rw [exec_jr_ready h rfl]
    refine ⟨fun hin hal => ⟨_, rfl, ?_⟩, fun hpast => ?_, fun hin hmis => ?_⟩
    · rw [if_neg (Nat.not_le.mpr hin), if_neg (Decidable.not_not.mpr hal), ← BitVec.ofNat_toNat 20]
      exact retires_jump _ _ _
    · rw [if_pos hpast]
      rfl
    · rw [if_neg (Nat.not_le.mpr hin), if_pos hmis]
      rfl

end

/-! The address hash of the granary (R218 to R220): its formulas and its inverse. -/

namespace Sys2Proof.Machine

/-- The rotation of a row of 24 granules: the row's number folded to five bits (R218). -/
def rowTurn (q : Nat) : Nat := (q ^^^ (q / 2 ^ 5) ^^^ (q / 2 ^ 10) ^^^ (q / 2 ^ 15) ^^^ (q / 2 ^ 20)) % 32

theorem rowTurn_lt (q : Nat) : rowTurn q < 32 := Nat.mod_lt _ (by decide)

theorem rowTurn_eq_shifts (q : Nat) :
    ((q ^^^ (q >>> 5)) ^^^ ((q >>> 10) ^^^ ((q >>> 15) ^^^ (q >>> 20)))) % 32 = rowTurn q := by
  simp only [rowTurn, Nat.shiftRight_eq_div_pow, Nat.xor_assoc]

theorem hashPa_eq (pa : Nat) :
    hashPa pa = ((pa / 4096 % 24 + rowTurn (pa / 4096 / 24)) % 24, pa / 4096 / 24 * 4096 + pa % 4096) := by
  simp only [hashPa, rowTurn_eq_shifts]

theorem unhash_eq (n la : Nat) :
    unhash n la = (la / 4096 * 24 + (n + 48 - rowTurn (la / 4096)) % 24) * 4096 + la % 4096 := by
  simp only [unhash, rowTurn_eq_shifts]

/-- `hashPa` leaves the row and the place in its granule, and turns the column of the row forward; `unhash` turns it back. -/
theorem unhash_hashPa (pa : Nat) : unhash (hashPa pa).1 (hashPa pa).2 = pa := by
  have hrow : (pa / 4096 / 24 * 4096 + pa % 4096) / 4096 = pa / 4096 / 24 := by omega
  have hturn := rowTurn_lt (pa / 4096 / 24)
  rw [unhash_eq, hashPa_eq, hrow]
  omega

theorem hashPa_unhash {n : Nat} (la : Nat) (hn : n < 24) : hashPa (unhash n la) = (n, la) := by
  have hturn := rowTurn_lt (la / 4096)
  have hgranule : unhash n la / 4096 = la / 4096 * 24 + (n + 48 - rowTurn (la / 4096)) % 24 := by
    rw [unhash_eq]
    omega
  have hrow : unhash n la / 4096 / 24 = la / 4096 := by omega
  have hplace : unhash n la % 4096 = la % 4096 := by
    rw [unhash_eq]
    omega
  rw [hashPa_eq, hrow, hplace, hgranule]
  exact Prod.ext (by dsimp only; omega) (by dsimp only; omega)

theorem pcOf_eq (la : Nat) : pcOf la = (la / 2 ^ 8 % 64 ^^^ la / 2 ^ 14 % 64) := by
  simp [pcOf, fieldOf, Nat.shiftRight_eq_div_pow]

theorem pcOf_lt (la : Nat) : pcOf la < 64 := by
  rw [pcOf_eq]
  exact Nat.xor_lt_two_pow (n := 6) (Nat.mod_lt _ (by decide)) (Nat.mod_lt _ (by decide))

end Sys2Proof.Machine

section

open Sys2Proof Sys2Proof.Machine

/-- Settles O27: the hash turns each row of 24 granules by the row's own number, and a turn has its inverse. -/
theorem granaryHashIsABijection : Obligations.GranaryHashIsABijection := by
  unfold Obligations.GranaryHashIsABijection
  refine ⟨fun pa hpa => ⟨?_, ?_, unhash_hashPa pa⟩, fun pa _ => hashPa_eq pa, fun n la hn hla => ⟨?_, hashPa_unhash la hn⟩,
    fun la => ⟨pcOf_eq la, pcOf_lt la⟩⟩
  · rw [hashPa_eq]
    exact Nat.mod_lt _ (by decide)
  · rw [hashPa_eq]
    simp only [granaryEnd] at hpa ⊢
    omega
  · rw [unhash_eq, granaryEnd]
    omega

end

/-! The shared arbiter (R225 to R231): the search, who waits, the time that passes before a decision, the
grant, the hints, what a decision leaves at a bank, a pseudo-channel, an injection arbiter and a straw, preemption, and the
stall watchdog. -/

namespace Sys2Proof.Machine

/-! ### The search of an arbiter (R225) -/

/-- The highest priority among waiting requesters, or `m`. -/
theorem foldl_max_prio (prio : Nat → Nat) :
    ∀ (ws : List Nat) (m : Nat), let top := ws.foldl (fun m r => Nat.max m (prio r)) m
      m ≤ top ∧ (∀ r ∈ ws, prio r ≤ top) ∧ (top = m ∨ ∃ r ∈ ws, prio r = top)
  | [], m => by simp
  | r :: ws, m => by
    obtain ⟨hm, hle, htop⟩ := foldl_max_prio prio ws (Nat.max m (prio r))
    refine ⟨Nat.le_trans (Nat.le_max_left ..) hm, ?_, ?_⟩
    · rw [List.forall_mem_cons]
      exact ⟨Nat.le_trans (Nat.le_max_right ..) hm, hle⟩
    · rcases htop with htop | ⟨x, hx, htop⟩
      · rcases Nat.le_total m (prio r) with h | h
        · exact .inr ⟨r, .head _, by rw [List.foldl_cons, htop, Nat.max_eq_max, Nat.max_eq_right h]⟩
        · exact .inl (by rw [List.foldl_cons, htop, Nat.max_eq_max, Nat.max_eq_left h])
      · exact .inr ⟨x, .tail _ hx, htop⟩

/-- The search finds its first: every other of `ws` comes later on the way round. -/
theorem firstFrom_eq_some {n st w : Nat} {ws : List Nat} (h : firstFrom n st ws = some w) :
    w ∈ ws ∧ ∃ k < n, (st + k) % n = w ∧ ∀ j < k, (st + j) % n ∉ ws := by
  obtain ⟨hw, k, hk, heq, hbefore⟩ := List.find?_eq_some_iff_getElem.mp h
  simp only [List.length_map, List.length_range] at hk
  refine ⟨by simpa using hw, k, hk, by simpa using heq, fun j hj => by simpa using hbefore j hj⟩

theorem firstFrom_isSome {n st r : Nat} {ws : List Nat} (hr : r ∈ ws) (hn : r < n) : (firstFrom n st ws).isSome := by
  refine List.find?_isSome.mpr ⟨r, List.mem_map.mpr ⟨(r + n * st - st) % n, ?_, ?_⟩, by simpa using hr⟩
  · exact List.mem_range.mpr (Nat.mod_lt _ (by omega))
  · have hst : st ≤ n * st := Nat.le_mul_of_pos_left st (by omega)
    rw [Nat.add_mod_mod, show st + (r + n * st - st) = r + n * st by omega, Nat.add_mul_mod_self_left, Nat.mod_eq_of_lt hn]

@[simp] theorem winnerOf_nil (n : Nat) (prio : Nat → Nat) (start : Tab Nat) : winnerOf n prio start [] = none := by
  simp [winnerOf, firstFrom]

/-- The winner waits, has the highest priority of those that wait, and is the first of it that the search meets. -/
theorem winnerOf_eq_some {n w : Nat} {prio : Nat → Nat} {start : Tab Nat} {ws : List Nat}
    (h : winnerOf n prio start ws = some w) :
    w ∈ ws ∧ (∀ r ∈ ws, prio r ≤ prio w) ∧ ∃ k < n, (Tab.get 0 start (prio w) + k) % n = w ∧
      ∀ j < k, (Tab.get 0 start (prio w) + j) % n ∈ ws → prio ((Tab.get 0 start (prio w) + j) % n) ≠ prio w := by
  obtain ⟨-, hle, -⟩ := foldl_max_prio prio ws 0
  obtain ⟨hw, k, hk, heq, hbefore⟩ := firstFrom_eq_some h
  obtain ⟨hmem, htop⟩ := List.mem_filter.mp hw
  rw [decide_eq_true_eq] at htop
  rw [← htop] at hle heq hbefore
  refine ⟨hmem, hle, k, hk, heq, fun j hj hin hprio => hbefore j hj ?_⟩
  rw [List.mem_filter, decide_eq_true_eq]
  exact ⟨hin, hprio⟩

/-- Whoever of the winner's priority the search meets no later than the winner is the winner. -/
theorem winnerOf_met_first {n w j : Nat} {prio : Nat → Nat} {start : Tab Nat} {ws : List Nat}
    (h : winnerOf n prio start ws = some w) (hin : (Tab.get 0 start (prio w) + j) % n ∈ ws)
    (hprio : prio ((Tab.get 0 start (prio w) + j) % n) = prio w) (hlater : ∀ i < j, (Tab.get 0 start (prio w) + i) % n ≠ w) :
    (Tab.get 0 start (prio w) + j) % n = w := by
  obtain ⟨-, -, k, -, heq, hbefore⟩ := winnerOf_eq_some h
  rcases Nat.lt_trichotomy j k with hjk | rfl | hkj
  · exact absurd hprio (hbefore j hjk hin)
  · exact heq
  · exact absurd heq (hlater k hkj)

theorem winnerOf_isSome {n : Nat} {prio : Nat → Nat} {start : Tab Nat} {ws : List Nat} (hne : ws ≠ [])
    (hn : ∀ r ∈ ws, r < n) : (winnerOf n prio start ws).isSome := by
  obtain ⟨-, hle, htop⟩ := foldl_max_prio prio ws 0
  obtain ⟨r, hr, hprio⟩ : ∃ r ∈ ws, prio r = ws.foldl (fun m r => Nat.max m (prio r)) 0 := by
    rcases htop with htop | hr
    · obtain ⟨r, hr⟩ := List.exists_mem_of_ne_nil ws hne
      exact ⟨r, hr, by have := hle r hr; omega⟩
    · exact hr
  exact firstFrom_isSome (List.mem_filter.mpr ⟨hr, decide_eq_true hprio⟩) (hn r hr)

/-! ### Who waits (R45, R232, R257, R258, R297) -/

theorem State.mem_waitingAt_of_asks {s : State} {a : ArbId} {r : Nat} (hr : r < arbSize a) (h : 0 < s.asks a r) :
    r ∈ s.waitingAt a :=
  (s.mem_waitingAt a r).mpr ⟨hr, .inr h⟩

theorem Spikelet.floretAsks_pos {sp : Spikelet} {r : BankReq} {rest : List BankReq} (hq : sp.bankQ = r :: rest)
    (hd : sp.drainFirst r = false) : 0 < sp.floretAsks := by
  simp [Spikelet.floretAsks, hq, hd]

theorem Stack.mem_queued {k : Stack} {pc : Fin 64} {cls : Nat} {o : GrnOpen} :
    o ∈ k.queued pc cls ↔ o ∈ k.openReqs ∧ o.req.cls.val = cls ∧ o.granted = false ∧ linePc o.req.line = pc := by
  simp [Stack.queued, and_assoc]

/-- Erasing a list leaves what is not in it. -/
theorem mem_foldl_erase {α : Type} [BEq α] [LawfulBEq α] {q : α} {gone : List α} (h : q ∉ gone) :
    ∀ {l : List α}, q ∈ l → q ∈ gone.foldl List.erase l := by
  induction gone with
  | nil => exact id
  | cons g gone ih =>
    obtain ⟨hg, hgone⟩ := List.ne_and_not_mem_of_not_mem_cons h
    exact fun hl => ih hgone ((List.mem_erase_of_ne hg).mpr hl)

/-- Erasing adds nothing. -/
theorem mem_of_mem_foldl_erase {α : Type} [BEq α] {q : α} (gone : List α) :
    ∀ {l : List α}, q ∈ gone.foldl List.erase l → q ∈ l := by
  induction gone with
  | nil => exact id
  | cons g gone ih => exact fun hl => List.mem_of_mem_erase (ih hl)

theorem State.mem_injReady {s : State} {p : PanId} {r : Nat} {q : Packet} (hsent : q ∈ s.fab.sent)
    (hinj : s.injects p.val r q = true) (hgiven : q ∉ (s.arb (.inject p)).given)
    (hrouted : ∀ x ∈ s.fab.routed, x.pkt ≠ q) (hroom : flitsOn q.vc (s.arb (.inject p)).given + flitsOf q ≤ 33) :
    q ∈ s.injReady p r := by
  refine List.mem_filter.mpr ⟨mem_foldl_erase ?_ (List.mem_filter.mpr ⟨hsent, hinj⟩), decide_eq_true hroom⟩
  rw [List.mem_append, List.mem_map]
  rintro (h | ⟨x, hx, rfl⟩)
  · exact hgiven h
  · exact hrouted x hx rfl

/-- A packet that injection may grant is in the fabric and of its class. -/
theorem State.of_mem_injReady {s : State} {p : PanId} {r : Nat} {q : Packet} (h : q ∈ s.injReady p r) :
    q ∈ s.fab.sent ∧ s.injects p.val r q = true :=
  List.mem_filter.mp (mem_of_mem_foldl_erase _ (List.mem_filter.mp h).1)

theorem State.mem_shfQueue {s : State} {w : StrawId} {n vc : Nat} {q : Packet} {rest : List Packet}
    (hn : s.sheafOf w.val = some n) (hq : s.shfWaits n (w.val / 4) vc = q :: rest)
    (hnext : s.shfNext n (w.val / 4) q = some w.val) : q ∈ s.shfQueue w vc := by
  simp [State.shfQueue, hn, hq, hnext]

/-- A packet that a straw may grant is on its way to it. -/
theorem State.of_mem_shfQueue {s : State} {w : StrawId} {n vc : Nat} {q : Packet} (hn : s.sheafOf w.val = some n)
    (h : q ∈ s.shfQueue w vc) : q ∈ s.shfRouted n (w.val / 4) vc ++ s.shfNamed w.val vc := by
  simp only [State.shfQueue, hn, List.mem_append] at h
  rw [List.mem_append]
  rcases h with h | h
  · exact .inr (mem_of_mem_foldl_erase _ h)
  · refine .inl (mem_of_mem_foldl_erase ((s.liveOn n (w.val / 4)).flatMap s.givenTo) ?_)
    change q ∈ s.shfWaits n (w.val / 4) vc
    split at h
    · exact absurd h (List.not_mem_nil)
    · next p ps hps =>
      rw [hps]
      split at h
      · exact h
      · exact absurd h (List.not_mem_nil)

/-! ### The time that passes before a decision (R229) -/

/-- Nothing of an arbiter has changed but how long its requesters have waited. -/
structure Arb.Aged (b b' : Arb) : Prop where
  kept   : { b' with waited := b.waited, ctr := b.ctr, known := b.known } = b
  grants : ∀ r, (Tab.get {} b'.ctr r).grants = (Tab.get {} b.ctr r).grants

namespace Arb.Aged

variable {b b' b'' : Arb}

theorem refl (b : Arb) : b.Aged b := ⟨rfl, fun _ => rfl⟩

theorem trans (h : b.Aged b') (k : b'.Aged b'') : b.Aged b'' :=
  ⟨by rw [← h.kept, ← k.kept], fun r => (k.grants r).trans (h.grants r)⟩

theorem elapse (b : Arb) (r n : Nat) : b.Aged (b.elapse r n) := by
  refine ⟨rfl, fun x => ?_⟩
  simp only [Arb.elapse, Tab.get_set]
  split
  · next h => rw [h]
  · rfl

theorem reqs (h : b.Aged b') : b'.reqs = b.reqs := (congrArg Arb.reqs h.kept :)
theorem holder (h : b.Aged b') : b'.holder = b.holder := (congrArg Arb.holder h.kept :)
theorem start (h : b.Aged b') : b'.start = b.start := (congrArg Arb.start h.kept :)
theorem given (h : b.Aged b') : b'.given = b.given := (congrArg Arb.given h.kept :)

end Arb.Aged

/-- Nothing has changed but how long requesters of the arbiters have waited. -/
structure TimePassed (s t : State) : Prop where
  frame : { t with freeIx := s.freeIx, grn := s.grn } = s
  ctrls : t.grn.ctrls = s.grn.ctrls
  aged  : ∀ c, (s.arb c).Aged (t.arb c)

namespace TimePassed

variable {s t u : State}

theorem refl (s : State) : TimePassed s s := ⟨rfl, rfl, fun _ => .refl _⟩

theorem trans (h : TimePassed s t) (k : TimePassed t u) : TimePassed s u :=
  ⟨by rw [← h.frame, ← k.frame], k.ctrls.trans h.ctrls, fun c => (h.aged c).trans (k.aged c)⟩

theorem setArb {a : ArbId} {b : Arb} (h : (s.arb a).Aged b) : TimePassed s (s.setArb a b) := by
  refine ⟨rfl, rfl, fun c => ?_⟩
  rw [State.arb_setArb]
  split
  · next hc => exact hc ▸ h
  · exact .refl _

theorem draw (s : State) : TimePassed s s.draw.2 := ⟨rfl, rfl, fun _ => .refl _⟩

theorem fab (h : TimePassed s t) : t.fab = s.fab := (congrArg State.fab h.frame :)
theorem cores (h : TimePassed s t) : t.cores = s.cores := (congrArg State.cores h.frame :)
theorem mem (h : TimePassed s t) : t.mem = s.mem := (congrArg State.mem h.frame :)

theorem stack (h : TimePassed s t) (n : Nat) : t.stack n = s.stack n := by
  rw [State.stack, State.stack, h.ctrls]

/-- The priorities of an arbiter stand in its panicle's registers, its stack or its straw. -/
theorem prioOf (h : TimePassed s t) (a : ArbId) : t.prioOf a = s.prioOf a := by
  funext r
  cases a <;> simp only [State.prioOf, State.panArb, State.straw, h.fab, h.stack]

theorem winner (h : TimePassed s t) (a : ArbId) (ws : List Nat) : t.winner a ws = s.winner a ws := by
  simp only [State.winner, h.prioOf, (h.aged a).reqs, (h.aged a).start]

end TimePassed

/-- A requester has waited on, for `n` cycles or, where it was not known to wait, for at most as many. -/
def Arb.WaitedOn (b b' : Arb) (n r : Nat) : Prop :=
  Tab.get 0 b.waited r ≤ Tab.get 0 b'.waited r ∧ Tab.get 0 b'.waited r ≤ Tab.get 0 b.waited r + n ∧
    (r ∈ b.known → Tab.get 0 b'.waited r = Tab.get 0 b.waited r + n)

/-- The time that passes for one requester. -/
def State.passOne (a : ArbId) (n : Nat) (s : State) (r : Nat) : State :=
  if (s.arb a).known.contains r then s.setArb a ((s.arb a).elapse r n)
  else s.draw.2.setArb a ((s.draw.2.arb a).elapse r (s.draw.1.toNat % (n + 1)))

theorem State.passTime_eq (s : State) (a : ArbId) (ws : List Nat) (n : Nat) :
    s.passTime a ws n =
      (ws.foldl (State.passOne a n) s).setArb a { (ws.foldl (State.passOne a n) s).arb a with known := ws } := rfl

theorem State.passOne_passed (a : ArbId) (n : Nat) (s : State) (r : Nat) : TimePassed s (s.passOne a n r) := by
  unfold State.passOne
  split
  · exact .setArb (.elapse ..)
  · exact (TimePassed.draw s).trans (.setArb (.elapse ..))

theorem State.passOne_known (a : ArbId) (n : Nat) (s : State) (r : Nat) :
    ((s.passOne a n r).arb a).known = (s.arb a).known := by
  unfold State.passOne
  split
  · rw [State.arb_setArb_same]
    rfl
  · rw [State.arb_setArb_same]
    rfl

theorem Arb.waited_elapse (b : Arb) (r n x : Nat) :
    Tab.get 0 (b.elapse r n).waited x = if r = x then Tab.get 0 b.waited r + n else Tab.get 0 b.waited x :=
  Tab.get_set ..

theorem State.passOne_waited_other (a : ArbId) (n : Nat) (s : State) {r x : Nat} (h : r ≠ x) :
    Tab.get 0 ((s.passOne a n r).arb a).waited x = Tab.get 0 (s.arb a).waited x := by
  unfold State.passOne
  split
  · rw [State.arb_setArb_same, Arb.waited_elapse, if_neg h]
  · rw [State.arb_setArb_same, Arb.waited_elapse, if_neg h]
    rfl

theorem State.passOne_waited_same (a : ArbId) (n : Nat) (s : State) (r : Nat) :
    (s.arb a).WaitedOn ((s.passOne a n r).arb a) n r := by
  unfold State.passOne Arb.WaitedOn
  split
  · rw [State.arb_setArb_same, Arb.waited_elapse, if_pos rfl]
    exact ⟨by omega, by omega, fun _ => rfl⟩
  · next hk =>
    have hv : s.draw.1.toNat % (n + 1) < n + 1 := Nat.mod_lt _ (by omega)
    have hw : Tab.get 0 (s.draw.2.arb a).waited r = Tab.get 0 (s.arb a).waited r := rfl
    rw [State.arb_setArb_same, Arb.waited_elapse, if_pos rfl, hw]
    exact ⟨by omega, by omega, fun h => absurd (List.contains_iff_mem.mpr h) hk⟩

theorem State.foldl_passOne_passed (a : ArbId) (n : Nat) (ws : List Nat) (s : State) :
    TimePassed s (ws.foldl (State.passOne a n) s) :=
  List.foldlRecOn ws _ (.refl s) fun t h r _ => h.trans (t.passOne_passed a n r)

theorem State.foldl_passOne_waited_other (a : ArbId) (n x : Nat) (ws : List Nat) (s : State) (hx : x ∉ ws) :
    Tab.get 0 ((ws.foldl (State.passOne a n) s).arb a).waited x = Tab.get 0 (s.arb a).waited x :=
  List.foldlRecOn (motive := fun t => Tab.get 0 (State.arb t a).waited x = Tab.get 0 (s.arb a).waited x) ws _ rfl
    fun t h _ hr => (State.passOne_waited_other a n t (ne_of_mem_of_not_mem hr hx)).trans h

theorem State.foldl_passOne_waited (a : ArbId) (n x : Nat) (ws : List Nat) (s : State) (hd : ws.Nodup) (h : x ∈ ws) :
    (s.arb a).WaitedOn ((ws.foldl (State.passOne a n) s).arb a) n x := by
  induction ws generalizing s with
  | nil => exact absurd h List.not_mem_nil
  | cons r ws ih =>
    obtain ⟨hr, hws⟩ := List.nodup_cons.mp hd
    rw [List.foldl_cons]
    by_cases hx : x = r
    · rw [Arb.WaitedOn, State.foldl_passOne_waited_other a n x ws _ (hx ▸ hr), hx]
      exact State.passOne_waited_same a n s r
    · have hlater := ih (s.passOne a n r) hws ((List.mem_cons.mp h).resolve_left hx)
      rwa [Arb.WaitedOn, State.passOne_known, State.passOne_waited_other _ _ _ (Ne.symm hx)] at hlater

theorem State.passTime_passed (s : State) (a : ArbId) (ws : List Nat) (n : Nat) : TimePassed s (s.passTime a ws n) := by
  rw [State.passTime_eq]
  exact (State.foldl_passOne_passed a n ws s).trans (.setArb ⟨rfl, fun _ => rfl⟩)

theorem State.passTime_waited (s : State) (a : ArbId) (ws : List Nat) (n : Nat) (hd : ws.Nodup) {r : Nat} (h : r ∈ ws) :
    (s.arb a).WaitedOn ((s.passTime a ws n).arb a) n r := by
  rw [State.passTime_eq, State.arb_setArb_same]
  exact State.foldl_passOne_waited a n r ws s hd h

/-! ### A grant (R225, R226, R228) -/

/-- Where the search of each priority starts after a grant. -/
def State.searchAfter (s : State) (a : ArbId) (who : Nat) : Tab Nat :=
  if who < arbSize a then Tab.set 0 (s.arb a).start (s.prioOf a who) ((who + 1) % arbSize a) else (s.arb a).start

/-- The order of service of the requests that are left after a grant. -/
def State.orderAfter (s : State) (a : ArbId) (ws : List Nat) (who : Nat) : List Nat :=
  serveOrder (arbSize a) (s.prioOf a) (ws.erase who).length (s.searchAfter a who) (ws.erase who)

/-- The requesters that a grant leaves waiting. -/
def losersOf (a : ArbId) (ws : List Nat) (who : Nat) : List Nat :=
  (List.range (arbSize a)).filter (fun r => r ≠ who && (ws.erase who).contains r)

/-- An arbiter after the grant `g`. -/
def State.grantedArb (s : State) (a : ArbId) (ws : List Nat) (len : Nat) (g : Grant) : Arb :=
  { (({ s.arb a with start := s.searchAfter a g.who } : Arb).grant len g).tell (losersOf a ws g.who) (s.orderAfter a ws g.who) with
    known := (ws.erase g.who).eraseDups }

theorem State.grantTo_eq (s : State) (a : ArbId) (ws : List Nat) (len : Nat) (g : Grant) :
    s.grantTo a ws len g = (s.setArb a (s.grantedArb a ws len g)).hinted a (some g.who) (losersOf a ws g.who)
      (s.orderAfter a ws g.who) := by
  simp only [State.grantTo, State.grantedArb, State.orderAfter, State.searchAfter]
  split
  · rfl
  · rfl

@[simp] theorem State.stack_setArb (s : State) (a : ArbId) (b : Arb) (n : Nat) : (s.setArb a b).stack n = s.stack n := rfl

@[simp] theorem State.arb_setStack (s : State) (a : ArbId) (n : Nat) (k : Stack) : (s.setStack n k).arb a = s.arb a := rfl

/-- Hints stand with those they are told to, not in the arbiters. -/
theorem State.arbs_hinted (s : State) (a : ArbId) (win : Option Nat) (losers order : List Nat) :
    (s.hinted a win losers order).grn.arbs = s.grn.arbs := by
  cases a with
  | bank i => exact (congrArg (fun t : State => t.grn.arbs) (State.tellFlorets_frame s i.val _ _ _) :)
  | hbm n pc => rfl
  | inject p => rfl
  | sheaf w => rfl

@[simp] theorem State.arb_hinted (s : State) (a c : ArbId) (win : Option Nat) (losers order : List Nat) :
    (s.hinted a win losers order).arb c = s.arb c := by
  rw [State.arb, State.arbs_hinted, State.arb]

theorem State.arb_grantTo (s : State) (a c : ArbId) (ws : List Nat) (len : Nat) (g : Grant) :
    (s.grantTo a ws len g).arb c = if a = c then s.grantedArb a ws len g else s.arb c := by
  rw [State.grantTo_eq, State.arb_hinted, State.arb_setArb]

@[simp] theorem State.arb_grantTo_same (s : State) (a : ArbId) (ws : List Nat) (len : Nat) (g : Grant) :
    (s.grantTo a ws len g).arb a = s.grantedArb a ws len g := by
  rw [State.arb_grantTo, if_pos rfl]

/-- A grant gives no packet yet. -/
theorem State.given_grantTo (s : State) (a c : ArbId) (ws : List Nat) (len : Nat) (g : Grant) :
    ((s.grantTo a ws len g).arb c).given = (s.arb c).given := by
  rw [State.arb_grantTo]
  split
  · next h => rw [← h]; rfl
  · rfl

/-- The hints of the losers, one by one. -/
theorem get_hints (f : Nat → Hint) (x : Nat) (ls : List Nat) (t : Tab (Option Hint)) :
    Tab.get none (ls.foldl (fun t r => Tab.set none t r (some (f r))) t) x =
      if x ∈ ls then some (f x) else Tab.get none t x := by
  induction ls generalizing t with
  | nil => simp
  | cons r ls ih =>
    rw [List.foldl_cons, ih, Tab.get_set]
    by_cases hx : x ∈ ls
    · simp [hx]
    · by_cases hr : r = x
      · simp [hr]
      · simp [hx, hr, Ne.symm hr]

/-- Where the florets' class has a hint, its estimate is that of the class (R48, R228). -/
theorem State.est_of_hint (s : State) (a : ArbId) (ws : List Nat) (len : Nat) (g : Grant) {h : Hint}
    (hh : Tab.get none (s.grantedArb a ws len g).hint 2 = some h) :
    h.est = classEst (s.grantedArb a ws len g) (s.orderAfter a ws g.who) := by
  simp only [State.grantedArb, Arb.tell, get_hints] at hh
  split at hh
  · rw [Option.some.injEq] at hh
    rw [← hh]
    rfl
  · exact absurd hh (by simp [Tab.get])

/-! ### A decision (R225 to R229) -/

/-- No emergency request is pending. -/
def State.Calm (s : State) (a : ArbId) : Prop := ∀ e, arbEmergency a = some e → Tab.get 0 (s.arb a).reqs e = 0

/-- The emergency requester, where it has a request. -/
def State.urgentAt (s : State) (a : ArbId) : List Nat :=
  match arbEmergency a with
  | some e => if 0 < Tab.get 0 (s.arb a).reqs e then [e] else []
  | none => []

theorem State.urgentAt_of_calm {s : State} {a : ArbId} (h : s.Calm a) : s.urgentAt a = [] := by
  unfold State.urgentAt
  split
  · next e he => rw [h e he]; rfl
  · rfl

theorem State.winner_of_calm {s : State} {a : ArbId} (h : s.Calm a) (ws : List Nat) :
    s.winner a ws = winnerOf (arbSize a) (s.prioOf a) (s.arb a).start ws := by
  unfold State.winner
  split
  · next e he => rw [h e he]; rfl
  · rfl

/-- The time before a decision among `ws` has passed for the requesters that wait. -/
def State.timedFor (s : State) (a : ArbId) (ws : List Nat) (n : Nat) : State :=
  s.passTime a ((List.range (arbSize a)).filter (ws.contains ·) ++ s.urgentAt a) n

theorem State.timedFor_passed (s : State) (a : ArbId) (ws : List Nat) (n : Nat) : TimePassed s (s.timedFor a ws n) :=
  s.passTime_passed a _ n

theorem State.arbitrate_none {s : State} {a : ArbId} {ws : List Nat} {n : Nat} {u : Nat → Nat × Grant}
    (h : s.winner a ws = none) :
    s.arbitrate a ws n u = ((s.timedFor a ws n).setArb a
      { (s.timedFor a ws n).arb a with holder := none, hint := [], known := [] }, none) := by
  rw [← (s.timedFor_passed a ws n).winner] at h
  unfold State.arbitrate
  dsimp only
  split
  · rfl
  · next w hw => exact absurd (hw.symm.trans h) (by simp)

theorem State.arbitrate_some {s : State} {a : ArbId} {ws : List Nat} {n w : Nat} {u : Nat → Nat × Grant}
    (h : s.winner a ws = some w) :
    s.arbitrate a ws n u = ((s.timedFor a ws n).grantTo a ws (u w).1 (u w).2, some w) := by
  rw [← (s.timedFor_passed a ws n).winner] at h
  unfold State.arbitrate
  dsimp only
  split
  · next hw => exact absurd (hw.symm.trans h) (by simp)
  · next w' hw =>
    cases Option.some.inj (hw.symm.trans h)
    rfl

theorem State.bankUnit_who (s : State) (i : SpkId) (len r : Nat) : (s.bankUnit i len r).2.who = r := by
  unfold State.bankUnit
  dsimp only
  split
  · next g hg => simpa using List.find?_some hg
  · split
    · next h => rw [h]; split <;> rfl
    · split
      · next h => exact h.symm
      · split
        · next h => exact h.symm
        · rfl

theorem Stack.unit_who (k : Stack) (b : Arb) (pc : Fin 64) (len r : Nat) : (k.unit b pc len r).2.who = r := by
  unfold Stack.unit
  split
  · next g hg => simpa using List.find?_some hg
  · split
    · next h => exact h.symm
    · split
      · next h => exact h.symm
      · split
        · rfl
        · rfl

/-- A grant unit is its requester's. -/
@[simp] theorem State.unit_who (s : State) (a : ArbId) (len r : Nat) : (s.unit a len r).2.who = r := by
  cases a with
  | bank i => exact s.bankUnit_who i len r
  | hbm n pc => exact Stack.unit_who ..
  | inject p => rfl
  | sheaf w => rfl

/-- What a decision for `w` makes of an arbiter (R225, R226, R229). -/
structure Decided (s : State) (a : ArbId) (n w : Nat) (b : Arb) : Prop where
  req    : Tab.get 0 b.reqs w = Tab.get 0 (s.arb a).reqs w - 1
  reqs   : ∀ r, r ≠ w → Tab.get 0 b.reqs r = Tab.get 0 (s.arb a).reqs r
  waited : Tab.get 0 b.waited w = 0
  waits  : ∀ r ∈ s.waitingAt a, r ≠ w → (s.arb a).WaitedOn b n r
  start  : Tab.get 0 b.start (s.prioOf a w) = (w + 1) % arbSize a
  starts : ∀ p, p ≠ s.prioOf a w → Tab.get 0 b.start p = Tab.get 0 (s.arb a).start p
  holder : b.holder.map (·.who) = some w
  grants : (Tab.get {} b.ctr w).grants = satAdd (Tab.get {} (s.arb a).ctr w).grants 1

theorem State.nodup_timed {s : State} {a : ArbId} (h : s.Calm a) (ws : List Nat) :
    ((List.range (arbSize a)).filter (ws.contains ·) ++ s.urgentAt a).Nodup := by
  rw [State.urgentAt_of_calm h, List.append_nil]
  exact List.nodup_range.filter _

theorem State.waitingAt_lt {s : State} {a : ArbId} {r : Nat} (h : r ∈ s.waitingAt a) : r < arbSize a :=
  ((s.mem_waitingAt a r).mp h).1

theorem State.mem_timed {s : State} {a : ArbId} {r : Nat} (h : r ∈ s.waitingAt a) :
    r ∈ (List.range (arbSize a)).filter ((s.waitingAt a).contains ·) ++ s.urgentAt a :=
  List.mem_append_left _ (List.mem_filter.mpr ⟨List.mem_range.mpr (State.waitingAt_lt h), List.contains_iff_mem.mpr h⟩)

/-- The grant of a decision without an emergency. -/
theorem State.grantedArb_decided {s : State} {a : ArbId} {w : Nat} (hcalm : s.Calm a) (hw : w ∈ s.waitingAt a) (n len : Nat)
    {g : Grant} (hg : g.who = w) :
    Decided s a n w ((s.timedFor a (s.waitingAt a) n).grantedArb a (s.waitingAt a) len g) := by
  subst hg
  have hpass := s.timedFor_passed a (s.waitingAt a) n
  have haged := hpass.aged a
  have hstart : ((s.timedFor a (s.waitingAt a) n).grantedArb a (s.waitingAt a) len g).start =
      Tab.set 0 (s.arb a).start (s.prioOf a g.who) ((g.who + 1) % arbSize a) := by
    rw [← haged.start, ← hpass.prioOf]
    exact if_pos (State.waitingAt_lt hw)
  refine ⟨?_, fun r hr => ?_, Tab.get_set_same .., fun r hr hne => ?_, ?_, fun p hp => ?_, rfl, ?_⟩
  · rw [← haged.reqs]
    exact Tab.get_set_same ..
  · rw [← haged.reqs]
    exact Tab.get_set_other _ _ _ _ _ hr.symm
  · have hwaited := s.passTime_waited a _ n (State.nodup_timed hcalm _) (State.mem_timed hr)
    have hsame : Tab.get 0 ((s.timedFor a (s.waitingAt a) n).grantedArb a (s.waitingAt a) len g).waited r =
        Tab.get 0 ((s.timedFor a (s.waitingAt a) n).arb a).waited r := Tab.get_set_other _ _ _ _ _ hne.symm
    rw [Arb.WaitedOn, hsame]
    exact hwaited
  · rw [hstart, Tab.get_set_same]
  · rw [hstart, Tab.get_set_other _ _ _ _ _ hp.symm]
  · rw [← haged.grants]
    exact congrArg ArbCtr.grants (Tab.get_set_same ..)

/-- Packets granted are listed beside what was decided. -/
theorem Decided.given {s : State} {a : ArbId} {n w : Nat} {b : Arb} (h : Decided s a n w b) (l : List Packet) :
    Decided s a n w { b with given := l } := { h with }

theorem State.prioOf_lt (s : State) (a : ArbId) {r : Nat} (h : r < arbSize a) : s.prioOf a r < 4 := by
  have hfld : ∀ {n : Nat} (x : BitVec n) (hi lo : Nat), hi + 1 - lo = 2 → fld x hi lo < 4 := by
    intro n x hi lo hwidth
    rw [fld, fieldOf, hwidth]
    exact Nat.mod_lt _ (by decide)
  cases a with
  | bank i => exact hfld _ _ _ (by simp only [arbSize] at h; omega)
  | hbm n pc =>
    simp only [State.prioOf]
    split
    · decide
    · exact hfld _ _ _ (by omega)
  | inject p => exact hfld _ _ _ (by omega)
  | sheaf w => exact hfld _ _ _ (by omega)

/-! ### Turn hints of florets (R48, R228) -/

/-- A floret whose request waits at the bank is BLOCKED if it was RUNNABLE (R48). -/
def FStatus.atBank (st : FStatus) : FStatus := if st = .runnable then .blocked .bank else st

theorem FStatus.atBank_idem (st : FStatus) : st.atBank.atBank = st.atBank := by
  unfold FStatus.atBank
  split
  · rfl
  · rfl

/-- A floret that is told the wait `est` of its request behind `k` others of its class. -/
def Floret.told (fl : Floret) (est k : Nat) : Floret :=
  { fl with hint := BitVec.ofNat 64 (2 ^ 63 + est * 256 + k), status := fl.status.atBank }

/-- The estimate of a request behind `k` others of the class (R48). -/
def Arb.estAfter (b : Arb) (est0 k : Nat) : Nat := Nat.min (est0 + meanTimes k (Tab.get [] b.lensOf 2)) (2 ^ 24 - 1)

theorem Arb.estAfter_lt (b : Arb) (est0 k : Nat) : b.estAfter est0 k < 2 ^ 24 :=
  Nat.lt_of_le_of_lt (Nat.min_le_right ..) (by decide)

/-- The hint of one request. -/
def State.tellOne (i : Nat) (b : Arb) (est0 : Nat) (s : State) (p : BankReq × Nat) : State :=
  s.setFloret (i * 16 + p.1.floret.val)
    ((s.floret (i * 16 + p.1.floret.val)).told (b.estAfter est0 p.2) (Nat.min p.2 255))

theorem State.tellFlorets_eq (s : State) (i : Nat) (b : Arb) (est0 skip : Nat) :
    s.tellFlorets i b est0 skip = ((s.spk i).bankQ.drop skip).zipIdx.foldl (State.tellOne i b est0) s := by
  unfold State.tellFlorets
  congr 1
  funext s p
  simp only [State.tellOne, Floret.told, FStatus.atBank]
  congr 1
  split
  · rfl
  · rfl

theorem State.floret_tellOne (i : Nat) (b : Arb) (est0 : Nat) (s : State) (p : BankReq × Nat) (x : Nat) :
    (s.tellOne i b est0 p).floret x = if i * 16 + p.1.floret.val = x then
      (s.floret x).told (b.estAfter est0 p.2) (Nat.min p.2 255) else s.floret x := by
  rw [State.tellOne, State.floret_setFloret]
  split
  · next h => rw [h]
  · rfl

/-- What hints leave of a floret: its registers and its PC, and whether it waits at the bank at the end. -/
theorem State.foldl_tellOne_keeps (i : Nat) (b : Arb) (est0 x : Nat) (l : List (BankReq × Nat)) (s : State) :
    ((l.foldl (State.tellOne i b est0) s).floret x).status.atBank = (s.floret x).status.atBank ∧
    ((l.foldl (State.tellOne i b est0) s).floret x).sregs = (s.floret x).sregs ∧
    ((l.foldl (State.tellOne i b est0) s).floret x).pc = (s.floret x).pc := by
  refine List.foldlRecOn (motive := fun t => (State.floret t x).status.atBank = (s.floret x).status.atBank ∧
    (State.floret t x).sregs = (s.floret x).sregs ∧ (State.floret t x).pc = (s.floret x).pc) l _ ⟨rfl, rfl, rfl⟩ ?_
  rintro t ⟨hstatus, hsregs, hpc⟩ p -
  rw [State.floret_tellOne]
  split
  · exact ⟨(FStatus.atBank_idem _).trans hstatus, hsregs, hpc⟩
  · exact ⟨hstatus, hsregs, hpc⟩

/-- Hints for other florets. -/
theorem State.foldl_tellOne_other (i : Nat) (b : Arb) (est0 x : Nat) (l : List (BankReq × Nat)) (s : State)
    (h : ∀ p ∈ l, i * 16 + p.1.floret.val ≠ x) : (l.foldl (State.tellOne i b est0) s).floret x = s.floret x := by
  refine List.foldlRecOn (motive := fun t => State.floret t x = s.floret x) l _ rfl fun t ht p hp => ?_
  rw [State.floret_tellOne, if_neg (h p hp), ht]

/-- The hint of a floret is that of its last request of the class. -/
theorem State.floret_tellFlorets {s : State} {i skip : Nat} {pre post : List BankReq} {r : BankReq}
    (hq : (s.spk i).bankQ.drop skip = pre ++ r :: post) (hlast : ∀ q ∈ post, q.floret ≠ r.floret) (b : Arb) (est0 : Nat) :
    let fl := (s.tellFlorets i b est0 skip).floret (i * 16 + r.floret.val)
    let was := s.floret (i * 16 + r.floret.val)
    fl.hint = BitVec.ofNat 64 (2 ^ 63 + b.estAfter est0 pre.length * 256 + Nat.min pre.length 255) ∧
    fl.status = was.status.atBank ∧ fl.sregs = was.sregs ∧ fl.pc = was.pc := by
  dsimp only
  rw [State.tellFlorets_eq, hq, List.zipIdx_append, List.zipIdx_cons, List.foldl_append, List.foldl_cons, Nat.zero_add,
    State.foldl_tellOne_other, State.floret_tellOne, if_pos rfl]
  · obtain ⟨hstatus, hsregs, hpc⟩ := State.foldl_tellOne_keeps i b est0 (i * 16 + r.floret.val) pre.zipIdx s
    exact ⟨rfl, hstatus, hsregs, hpc⟩
  · intro p hp heq
    exact hlast p.1 (List.fst_mem_of_mem_zipIdx hp) (Fin.ext (by omega))

/-- The fields of a hint: valid, the requests ahead, the wait. -/
theorem hint_fields {est k : Nat} (hest : est < 2 ^ 24) (hk : k < 2 ^ 8) :
    let w : W64 := BitVec.ofNat 64 (2 ^ 63 + est * 256 + k)
    w.getLsbD 63 = true ∧ fld w 7 0 = k ∧ fld w 31 8 = est := by
  have hnat : (2 ^ 63 + est * 256 + k) % 2 ^ 64 = 2 ^ 63 + est * 256 + k := Nat.mod_eq_of_lt (by omega)
  have hlow : est * 256 + k < 2 ^ 63 := by omega
  refine ⟨?_, ?_, ?_⟩
  · rw [BitVec.getLsbD_ofNat, Nat.add_assoc, Nat.testBit_two_pow_add_eq, Nat.testBit_lt_two_pow hlow]
    rfl
  · rw [fld, fieldOf, BitVec.toNat_ofNat, hnat, Nat.shiftRight_eq_div_pow]
    omega
  · rw [fld, fieldOf, BitVec.toNat_ofNat, hnat, Nat.shiftRight_eq_div_pow]
    omega

/-! ### The state that a decision leaves -/

/-- The state once a decision among the waiting requests has granted `w`. -/
def State.decided (s : State) (a : ArbId) (n len w : Nat) : State :=
  (s.timedFor a (s.waitingAt a) n).grantTo a (s.waitingAt a) (s.unit a len w).1 (s.unit a len w).2

/-- The state once a decision has granted nothing. -/
def State.undecided (s : State) (a : ArbId) (n : Nat) : State :=
  (s.timedFor a (s.waitingAt a) n).setArb a
    { (s.timedFor a (s.waitingAt a) n).arb a with holder := none, hint := [], known := [] }

theorem State.arbitrate_won {s : State} {a : ArbId} {n len w : Nat} (h : s.winner a (s.waitingAt a) = some w) :
    s.arbitrate a (s.waitingAt a) n (s.unit a len) = (s.decided a n len w, some w) :=
  State.arbitrate_some h

theorem State.arbitrate_idle {s : State} {a : ArbId} {n len : Nat} (h : s.winner a (s.waitingAt a) = none) :
    s.arbitrate a (s.waitingAt a) n (s.unit a len) = (s.undecided a n, none) :=
  State.arbitrate_none h

theorem State.decided_frame (s : State) (a : ArbId) (n len w : Nat) : DecisionFrame s (s.decided a n len w) :=
  (s.passTime_frame _ _ _).trans (State.grantTo_frame _ _ _ _ _)

theorem State.undecided_frame (s : State) (a : ArbId) (n : Nat) : DecisionFrame s (s.undecided a n) :=
  (s.passTime_frame _ _ _).trans (.setArb _ _ _)

/-- What a decision without an emergency makes of its arbiter. -/
theorem State.arb_decided {s : State} {a : ArbId} {w : Nat} (hcalm : s.Calm a) (hw : w ∈ s.waitingAt a) (n len : Nat) :
    Decided s a n w ((s.decided a n len w).arb a) := by
  rw [State.decided, State.arb_grantTo_same]
  exact State.grantedArb_decided hcalm hw n _ (s.unit_who a len w)

theorem State.arb_undecided (s : State) (a : ArbId) (n : Nat) :
    ((s.undecided a n).arb a).holder = none ∧ ((s.undecided a n).arb a).reqs = (s.arb a).reqs := by
  rw [State.undecided, State.arb_setArb_same]
  exact ⟨rfl, ((s.timedFor_passed a _ n).aged a).reqs⟩

/-! ### Decisions of a bank (R45 to R48) -/

theorem State.calm_bank {s : State} {i : SpkId} (h : Tab.get 0 (s.arb (.bank i)).reqs 3 = 0) : s.Calm (.bank i) := by
  rintro e ⟨⟩
  exact h

theorem exec_arbiterDecision_bank (i : SpkId) (n len : Nat) (s : State) :
    exec (.arbiterDecision (.bank i) n len) s =
      .next (s.arbitrate (.bank i) (s.waitingAt (.bank i)) n (s.unit (.bank i) len)).1 := rfl

/-- A bank's hints after a grant to `w`. -/
theorem State.hinted_bank (s : State) (i : SpkId) (w : Nat) (losers order : List Nat) :
    s.hinted (.bank i) (some w) losers order =
      s.tellFlorets i.val (s.arb (.bank i)) (classEst (s.arb (.bank i)) order) (if w = 2 then 1 else 0) := by
  simp [State.hinted]

/-- What a bank's decision tells a floret whose request stays in the class, and what it leaves of the floret. -/
theorem State.floret_decided {s : State} {i : SpkId} {w : Nat} {pre post : List BankReq} {r : BankReq} (n len : Nat)
    (hq : (s.spk i.val).bankQ.drop (if w = 2 then 1 else 0) = pre ++ r :: post) (hlast : ∀ q ∈ post, q.floret ≠ r.floret) :
    let u := s.decided (.bank i) n len w
    let b := u.arb (.bank i)
    let fl := u.floret (i.val * 16 + r.floret.val)
    let was := s.floret (i.val * 16 + r.floret.val)
    let left := (s.waitingAt (.bank i)).erase w
    let est := classEst b (serveOrder 3 (s.prioOf (.bank i)) left.length b.start left)
    fl.hint = BitVec.ofNat 64 (2 ^ 63 + b.estAfter est pre.length * 256 + Nat.min pre.length 255) ∧
    fl.status = was.status.atBank ∧ fl.sregs = was.sregs ∧ fl.pc = was.pc ∧
    ∀ h, Tab.get none b.hint 2 = some h → h.est = est := by
  have hpass := s.timedFor_passed (.bank i) (s.waitingAt (.bank i)) n
  have hwho := s.unit_who (.bank i) len w
  have hfloret : ∀ x, (s.timedFor (.bank i) (s.waitingAt (.bank i)) n).floret x = s.floret x := fun x => by
    rw [State.floret, State.floret, hpass.cores]
  have hqueue : ((s.timedFor (.bank i) (s.waitingAt (.bank i)) n).spk i.val).bankQ.drop (if w = 2 then 1 else 0) =
      pre ++ r :: post := by
    rw [State.spk, hpass.cores]
    exact hq
  dsimp only
  rw [State.decided, State.arb_grantTo_same]
  generalize hu : s.timedFor (.bank i) (s.waitingAt (.bank i)) n = u at *
  generalize s.unit (.bank i) len w = g at *
  have horder : serveOrder 3 (s.prioOf (.bank i)) ((s.waitingAt (.bank i)).erase w).length
      (u.grantedArb (.bank i) (s.waitingAt (.bank i)) g.1 g.2).start ((s.waitingAt (.bank i)).erase w) =
      u.orderAfter (.bank i) (s.waitingAt (.bank i)) w := by
    rw [← hpass.prioOf, ← hwho]
    rfl
  rw [horder, State.grantTo_eq, hwho, State.hinted_bank, State.arb_setArb_same, ← hfloret]
  obtain ⟨hhint, hstatus, hsregs, hpc⟩ := State.floret_tellFlorets (s := u.setArb (.bank i)
    (u.grantedArb (.bank i) (s.waitingAt (.bank i)) g.1 g.2)) hqueue hlast
    (u.grantedArb (.bank i) (s.waitingAt (.bank i)) g.1 g.2)
    (classEst (u.grantedArb (.bank i) (s.waitingAt (.bank i)) g.1 g.2) (u.orderAfter (.bank i) (s.waitingAt (.bank i)) w))
  exact ⟨hhint, hstatus, hsregs, hpc, fun h hh => hwho ▸ u.est_of_hint _ _ _ _ hh⟩

/-- The fields of the hint that a bank's decision gives (R48). -/
theorem State.hint_decided {s : State} {i : SpkId} {w : Nat} {pre post : List BankReq} {r : BankReq} (n len : Nat)
    (hq : (s.spk i.val).bankQ.drop (if w = 2 then 1 else 0) = pre ++ r :: post) (hlast : ∀ q ∈ post, q.floret ≠ r.floret) :
    let b := (s.decided (.bank i) n len w).arb (.bank i)
    let hint := ((s.decided (.bank i) n len w).floret (i.val * 16 + r.floret.val)).hint
    let left := (s.waitingAt (.bank i)).erase w
    let est := classEst b (serveOrder 3 (s.prioOf (.bank i)) left.length b.start left)
    hint.getLsbD 63 = true ∧ fld hint 7 0 = Nat.min pre.length 255 ∧ fld hint 31 8 = b.estAfter est pre.length := by
  dsimp only
  rw [(State.floret_decided n len hq hlast).1]
  exact hint_fields (Arb.estAfter_lt ..) (Nat.lt_of_le_of_lt (Nat.min_le_right ..) (by decide))

/-! ### Decisions of an injection arbiter (R257, R260) -/

/-- Without a descriptor that waits, the mover reads nothing ahead. -/
theorem State.movAhead_idle {s : State} {p : Nat} (h : ∀ m ∈ (s.pan p).movs, m.stage ≠ .waiting) : s.movAhead p = s := by
  unfold State.movAhead
  split
  · rfl
  · next m hm =>
    have hwaits := List.find?_some hm
    rw [Bool.and_eq_true, decide_eq_true_eq] at hwaits
    exact absurd hwaits.1 (h m (List.mem_of_find?_eq_some hm))

theorem exec_arbiterDecision_inject {p : PanId} {s : State} (n len : Nat) (h : ∀ m ∈ (s.pan p.val).movs, m.stage ≠ .waiting) :
    let a := ArbId.inject p
    let d := s.arbitrate a (s.waitingAt a) n (s.unit a len)
    exec (.arbiterDecision a n len) s = .next (d.1.give a s.fab.sent (d.2.bind (fun c => (s.injReady p c).head?))) := by
  intro a d
  have hpans : d.1.cores.panicles = s.cores.panicles := (s.arbitrate_frame a _ n _).pans
  have hidle : ∀ t : State, t.cores.panicles = s.cores.panicles → t.movAhead p.val = t := by
    intro t ht
    refine State.movAhead_idle ?_
    rw [State.pan, ht]
    exact h
  change Host.Outcome.next (if _ then State.movAhead (d.1.give a s.fab.sent (d.2.bind (fun c => (s.injReady p c).head?))) p.val
    else _) = _
  rw [hidle (d.1.give a s.fab.sent (d.2.bind (fun c => (s.injReady p c).head?))) hpans, ite_self]

/-- A packet that is granted joins those still in the L port's buffer. -/
theorem State.arb_give (s : State) (a : ArbId) (live : List Packet) (q : Option Packet) :
    (s.give a live q).arb a = { s.arb a with given := (s.arb a).given.filter live.contains ++ q.toList } :=
  State.arb_setArb_same ..

theorem getLast?_filter_concat {α : Type} {p : α → Bool} {q : α} (h : p q = true) (l : List α) :
    ((l ++ [q]).filter p).getLast? = some q := by
  simp [List.filter_append, h]

/-- The packet granted last is the one that is being injected. -/
theorem State.injPkt_give {s t : State} {p : PanId} {r : Nat} {q : Packet} (hsent : t.fab.sent = s.fab.sent)
    (hcoord : t.fab.coord = s.fab.coord) (hq : q ∈ s.fab.sent) (hinj : s.injects p.val r q = true) :
    (t.give (.inject p) s.fab.sent (some q)).injPkt p.val r = some q := by
  have hp : Fin.ofNat 1536 p.val = p := Fin.ext (Nat.mod_eq_of_lt p.isLt)
  rw [State.injPkt, hp, State.arb_give]
  refine getLast?_filter_concat ?_ _
  rw [Bool.and_eq_true]
  refine ⟨?_, ?_⟩
  · rw [← hinj]
    simp only [State.injects, State.give, State.setArb, hcoord]
  · exact List.contains_iff_mem.mpr (hsent.symm ▸ hq)

/-! ### Decisions at a straw (R297, R339) -/

/-- The straws are as before but for their counts of hints, and the packets on their way to them too. -/
structure SameTraffic (s t : State) : Prop where
  routed  : t.fab.routed = s.fab.routed
  sheaves : t.fab.sheaves = s.fab.sheaves
  given   : ∀ w, t.givenTo w = s.givenTo w
  straws  : ∀ w, { t.straw w with hints := (s.straw w).hints } = s.straw w

namespace SameTraffic

variable {s t : State} (h : SameTraffic s t)
include h

theorem sheaf (n : Nat) : t.sheaf n = s.sheaf n := by rw [State.sheaf, State.sheaf, h.sheaves]

theorem sheafOf (w : Nat) : t.sheafOf w = s.sheafOf w := by simp only [State.sheafOf, h.sheaf]

theorem state (w : Nat) : (t.straw w).state = (s.straw w).state := (congrArg Straw.state (h.straws w) :)

theorem peerId (w : Nat) : (t.straw w).peerId = (s.straw w).peerId := (congrArg Straw.peerId (h.straws w) :)

theorem ready (w : Nat) : (t.straw w).ready = (s.straw w).ready := (congrArg Straw.ready (h.straws w) :)

theorem share (w : Nat) : (t.straw w).share = (s.straw w).share := (congrArg Straw.share (h.straws w) :)

theorem deficit (w : Nat) : (t.straw w).deficit = (s.straw w).deficit := (congrArg Straw.deficit (h.straws w) :)

theorem turn (w : Nat) : (t.straw w).turn = (s.straw w).turn := (congrArg Straw.turn (h.straws w) :)

theorem liveOn (n k : Nat) : t.liveOn n k = s.liveOn n k := by
  simp only [State.liveOn, State.live, State.upOf, h.sheaf, h.state, h.peerId]

theorem shfNext (n k : Nat) (p : Packet) : t.shfNext n k p = s.shfNext n k p := by
  simp only [State.shfNext, h.liveOn, h.ready, h.sheaf]

theorem shfRouted (n k vc : Nat) : t.shfRouted n k vc = s.shfRouted n k vc := by simp only [State.shfRouted, h.routed]

theorem shfNamed (w vc : Nat) : t.shfNamed w vc = s.shfNamed w vc := by simp only [State.shfNamed, h.routed]

theorem shfWaits (n k vc : Nat) : t.shfWaits n k vc = s.shfWaits n k vc := by
  simp only [State.shfWaits, h.liveOn, h.given, h.shfRouted]

theorem shfQueue (w : StrawId) (vc : Nat) : t.shfQueue w vc = s.shfQueue w vc := by
  simp only [State.shfQueue, h.sheafOf, h.given, h.shfNamed, h.shfWaits, h.shfNext]

end SameTraffic

theorem Straw.shareOf_congr {x y : Straw} (h : y.share = x.share) : y.shareOf = x.shareOf := by
  unfold Straw.shareOf Straw.shareAt
  rw [h]

theorem Straw.weight_congr {x y : Straw} (h : y.share = x.share) : y.weight = x.weight := by
  unfold Straw.weight Straw.shareAt
  rw [h]

/-- Whose share is due depends on the shares, their deficits and whose turn it is. -/
theorem Straw.nextShare_congr {x y : Straw} (hshare : y.share = x.share) (hdeficit : y.deficit = x.deficit)
    (hturn : y.turn = x.turn) (ps : List Packet) (k : Nat) : (y.nextShare ps k).2 = (x.nextShare ps k).2 := by
  induction k generalizing x y with
  | zero => rfl
  | succ k ih =>
    have hof : y.shareOf = x.shareOf := Straw.shareOf_congr hshare
    have hweight : y.weight = x.weight := Straw.weight_congr hshare
    unfold Straw.nextShare
    dsimp only
    rw [hof, hdeficit, hturn, hweight]
    split
    · split
      · rfl
      · exact ih hshare rfl rfl
    · exact ih hshare rfl rfl

theorem SameTraffic.nextShare {s t : State} (h : SameTraffic s t) (w : Nat) (ps : List Packet) (k : Nat) :
    ((t.straw w).nextShare ps k).2 = ((s.straw w).nextShare ps k).2 :=
  Straw.nextShare_congr (h.share w) (h.deficit w) (h.turn w) ps k

/-- A grant changes of the straws how many hints its own has given. -/
theorem State.straw_grantTo (s : State) (w : StrawId) (ws : List Nat) (len : Nat) (g : Grant) (v : Nat) :
    { (s.grantTo (.sheaf w) ws len g).straw v with hints := (s.straw v).hints } = s.straw v := by
  simp only [State.grantTo_eq, State.hinted, State.straw_setStraw]
  split
  · next h => rw [← h]; rfl
  · rfl

/-- Time and hints leave the traffic as it is. -/
theorem State.decided_traffic (s : State) (w : StrawId) (n len vc : Nat) :
    SameTraffic s (s.decided (.sheaf w) n len vc) := by
  have hframe := s.decided_frame (.sheaf w) n len vc
  have hpass := s.timedFor_passed (.sheaf w) (s.waitingAt (.sheaf w)) n
  refine ⟨hframe.routed, hframe.sheaves, fun v => ?_, fun v => ?_⟩
  · rw [State.givenTo, State.decided, State.given_grantTo]
    exact (hpass.aged _).given
  · have hstraw : (s.timedFor (.sheaf w) (s.waitingAt (.sheaf w)) n).straw v = s.straw v := by
      rw [State.straw, State.straw, hpass.fab]
    rw [State.decided, ← hstraw]
    exact State.straw_grantTo ..

/-- The packet that a straw's grant is for (R297, R339). -/
theorem State.shfGrant_packet (s : State) (w : StrawId) (vc : Nat) :
    (s.shfGrant w vc).2 = if vc = 2 ∨ vc = 3 then ((s.straw w.val).nextShare (s.shfQueue w vc) 33).2
      else (s.shfQueue w vc).head? := by
  have hpair : (if vc = 2 ∨ vc = 3 then ((s.straw w.val).nextShare (s.shfQueue w vc) 33).2 else (s.shfQueue w vc).head?) =
      (if vc = 2 ∨ vc = 3 then (s.straw w.val).nextShare (s.shfQueue w vc) 33
        else (s.straw w.val, (s.shfQueue w vc).head?)).2 := by
    rw [apply_ite Prod.snd]
  rw [hpair]
  unfold State.shfGrant
  dsimp only
  generalize (if vc = 2 ∨ vc = 3 then (s.straw w.val).nextShare (s.shfQueue w vc) 33
    else (s.straw w.val, (s.shfQueue w vc).head?)) = r
  split
  · next n p hn hp =>
    split
    · exact hp.symm
    · exact hp.symm
  · rfl

theorem State.sheafOf_setSheaf {s : State} {n : Nat} {v : Sheaf} (h : v.members = (s.sheaf n).members) (w : Nat) :
    (s.setSheaf n v).sheafOf w = s.sheafOf w := by
  have hmembers : ∀ m, ((s.setSheaf n v).sheaf m).members = (s.sheaf m).members := fun m => by
    rw [State.sheaf_setSheaf]
    split
    · next hm => rw [← hm, h]
    · rfl
  simp only [State.sheafOf, hmembers]

/-- A straw's grant changes its shares' deficits and which member is next. -/
theorem State.shfGrant_frame (s : State) (w : StrawId) (vc : Nat) :
    ∃ f, (s.shfGrant w vc).1 = { s with fab := f } ∧ f.routed = s.fab.routed ∧
      ∀ v, ({ s with fab := f } : State).sheafOf v = s.sheafOf v := by
  unfold State.shfGrant
  dsimp only
  generalize (if vc = 2 ∨ vc = 3 then (s.straw w.val).nextShare (s.shfQueue w vc) 33
    else (s.straw w.val, (s.shfQueue w vc).head?)) = r
  split
  · next n p hn hp =>
    split
    · exact ⟨_, rfl, rfl, fun _ => rfl⟩
    · exact ⟨_, rfl, rfl, State.sheafOf_setSheaf rfl⟩
  · exact ⟨_, rfl, rfl, fun _ => rfl⟩

theorem State.arb_shfGrant (s : State) (w : StrawId) (vc : Nat) (a : ArbId) : (s.shfGrant w vc).1.arb a = s.arb a := by
  obtain ⟨f, h, -, -⟩ := s.shfGrant_frame w vc
  rw [h]
  rfl

theorem State.mem_shfGrant (s : State) (w : StrawId) (vc : Nat) : (s.shfGrant w vc).1.mem = s.mem := by
  obtain ⟨f, h, -, -⟩ := s.shfGrant_frame w vc
  rw [h]

theorem State.traffic_shfGrant (s : State) (w : StrawId) (vc : Nat) :
    (s.shfGrant w vc).1.fab.routed = s.fab.routed ∧ ∀ v, (s.shfGrant w vc).1.sheafOf v = s.sheafOf v := by
  obtain ⟨f, h, hrouted, hsheaf⟩ := s.shfGrant_frame w vc
  rw [h]
  exact ⟨hrouted, hsheaf⟩

theorem exec_arbiterDecision_sheaf_won {w : StrawId} {n len vc : Nat} {s : State}
    (h : s.winner (.sheaf w) (s.waitingAt (.sheaf w)) = some vc) :
    let u := s.decided (.sheaf w) n len vc
    exec (.arbiterDecision (.sheaf w) n len) s =
      .next ((u.shfGrant w vc).1.give (.sheaf w) (s.fab.routed.map (·.pkt)) (u.shfGrant w vc).2) := by
  change execArbiterDecision (.sheaf w) n len s = _
  simp only [execArbiterDecision, State.arbitrate_won h]

theorem exec_arbiterDecision_sheaf_idle {w : StrawId} {n len : Nat} {s : State}
    (h : s.winner (.sheaf w) (s.waitingAt (.sheaf w)) = none) :
    exec (.arbiterDecision (.sheaf w) n len) s = .next (s.undecided (.sheaf w) n) := by
  change execArbiterDecision (.sheaf w) n len s = _
  simp only [execArbiterDecision, State.arbitrate_idle h]

/-- The packet granted last is the one that goes out. -/
theorem State.stalledOn_give {s t : State} {w : StrawId} {n vc : Nat} {q : Packet} (hn : s.sheafOf w.val = some n)
    (hq : q ∈ s.shfRouted n (w.val / 4) vc ++ s.shfNamed w.val vc) (hsheaf : t.sheafOf w.val = s.sheafOf w.val)
    (hrouted : t.fab.routed = s.fab.routed) (live : List Packet) :
    (t.give (.sheaf w) live (some q)).stalledOn w.val vc = some q := by
  have hw : Fin.ofNat 32 w.val = w := Fin.ext (Nat.mod_eq_of_lt w.isLt)
  have hof : (t.give (.sheaf w) live (some q)).sheafOf w.val = some n := hsheaf.trans hn
  simp only [State.stalledOn, hof, State.givenTo, hw, State.arb_give]
  refine getLast?_filter_concat (List.contains_iff_mem.mpr ?_) _
  simp only [State.shfRouted, State.shfNamed] at hq ⊢
  rw [← hrouted] at hq
  exact hq

/-! ### Decisions of a pseudo-channel (R231 to R236) -/

/-- A refresh of a pseudo-channel has been granted (R236): one less is pending, and its rows are closed. -/
def State.refreshed (s : State) (n : StackId) (pc : Fin 64) : State :=
  s.setStack n.val { s.stack n.val with
    refresh := Tab.upd 0 (s.stack n.val).refresh pc.val (· - 1)
    openRow := (s.stack n.val).openRow.filter (fun e => e.1 / 16 ≠ pc.val) }

theorem State.refresh_refreshed (s : State) (n : StackId) (pc : Fin 64) :
    Tab.get 0 ((s.refreshed n pc).stack n.val).refresh pc.val = Tab.get 0 (s.stack n.val).refresh pc.val - 1 := by
  rw [State.refreshed, State.stack_setStack_same]
  exact Tab.get_set_same ..

@[simp] theorem State.mem_refreshed (s : State) (n : StackId) (pc : Fin 64) : (s.refreshed n pc).mem = s.mem := rfl

/-- The slot that a throttled stack leaves empty (Table 6-4). -/
def State.gapPassed (s : State) (n : StackId) (pc : Fin 64) : State :=
  s.setStack n.val { s.stack n.val with gapOwed := putBit (s.stack n.val).gapOwed pc.val false }

/-- What a grant to the class `w` does at once in an unthrottled stack: it counts, and its requests are served. -/
def State.channelServed (s : State) (n : StackId) (pc : Fin 64) (prio : Nat) (x : Aim) : State :=
  ((s.countLevel n pc prio).gapPassed n pc).grnGranted n x

section Executions

variable {s : State} {n : StackId} {pc : Fin 64} (e len : Nat)

theorem exec_arbiterDecision_urgent (h : 0 < Tab.get 0 (s.arb (.hbm n pc)).reqs 6) :
    exec (.arbiterDecision (.hbm n pc) e len) s = .next ((s.decided (.hbm n pc) e len 6).refreshed n pc) := by
  have hwin : s.winner (.hbm n pc) (s.waitingAt (.hbm n pc)) = some 6 := if_pos h
  change execArbiterDecision (.hbm n pc) e len s = _
  simp only [execArbiterDecision, State.arbitrate_won hwin, decide_eq_true h]
  rfl

theorem exec_arbiterDecision_gap (h6 : Tab.get 0 (s.arb (.hbm n pc)).reqs 6 = 0)
    (hslow : ((s.stack n.val).throttled || s.pwr.grnThrottle) = true) (hgap : (s.stack n.val).gapOwed.getLsbD pc.val = true) :
    ∃ t, TimePassed s t ∧ exec (.arbiterDecision (.hbm n pc) e len) s = .next (t.gapPassed n pc) := by
  refine ⟨s.passTime (.hbm n pc) ((List.range 6).filter ((s.waitingAt (.hbm n pc)).contains ·)) e, s.passTime_passed .., ?_⟩
  change execArbiterDecision (.hbm n pc) e len s = _
  simp only [execArbiterDecision, h6, hslow, hgap]
  rfl

theorem exec_arbiterDecision_refresh (h6 : Tab.get 0 (s.arb (.hbm n pc)).reqs 6 = 0)
    (hslow : ((s.stack n.val).throttled || s.pwr.grnThrottle) = false) (hidle : s.waitingAt (.hbm n pc) = [])
    (hdue : 0 < Tab.get 0 (s.stack n.val).refresh pc.val) :
    exec (.arbiterDecision (.hbm n pc) e len) s =
      .next ((s.grantTo (.hbm n pc) [] len (s.unit (.hbm n pc) len 6).2).refreshed n pc) := by
  change execArbiterDecision (.hbm n pc) e len s = _
  simp only [execArbiterDecision, h6, hslow, hidle, decide_eq_true hdue]
  rfl

theorem exec_arbiterDecision_served {w : Nat} (h6 : Tab.get 0 (s.arb (.hbm n pc)).reqs 6 = 0)
    (hslow : ((s.stack n.val).throttled || s.pwr.grnThrottle) = false) (hne : s.waitingAt (.hbm n pc) ≠ [])
    (hwin : s.winner (.hbm n pc) (s.waitingAt (.hbm n pc)) = some w) :
    exec (.arbiterDecision (.hbm n pc) e len) s = .next ((s.decided (.hbm n pc) e len w).channelServed n pc
      (s.prioOf (.hbm n pc) w) (s.unit (.hbm n pc) len w).2.aim) := by
  have hbusy : (s.waitingAt (.hbm n pc)).isEmpty = false := List.isEmpty_eq_false_iff.mpr hne
  change execArbiterDecision (.hbm n pc) e len s = _
  simp only [execArbiterDecision, h6, hslow, hbusy, State.arbitrate_won hwin]
  rfl

end Executions

/-- A grant unit that is no remainder, scrub, refresh or write-back is that of the requests that its class serves next. -/
theorem Stack.unit_aim {k : Stack} {b : Arb} {pc : Fin 64} {len r : Nat} (hrest : ∀ g ∈ b.rest, g.who ≠ r) (h6 : r ≠ 6)
    (h4 : r ≠ 4) (h5 : r = 5 → k.fixesAt pc = []) :
    (k.unit b pc len r).2.aim = .lines ((k.served pc r (len / 2)).map (·.id)) := by
  have hnone : b.rest.find? (fun g => g.who = r) = none :=
    List.find?_eq_none.mpr fun g hg => by simpa using hrest g hg
  unfold Stack.unit
  rw [hnone]
  dsimp only
  rw [if_neg h6, if_neg h4]
  split
  · next l ls hl => exact absurd (hl.symm.trans (h5 rfl)) (List.cons_ne_nil _ _)
  · rfl

/-! #### What serving requests leaves -/

/-- The arbiters and the grant counts of a stack's priorities are as before. -/
structure CountsKept (n : Nat) (s t : State) : Prop where
  arbs : t.grn.arbs = s.grn.arbs
  lvl  : (t.stack n).lvl = (s.stack n).lvl

namespace CountsKept

variable {n : Nat} {s t u : State}

theorem refl (s : State) : CountsKept n s s := ⟨rfl, rfl⟩

theorem trans (h : CountsKept n s t) (k : CountsKept n t u) : CountsKept n s u := ⟨k.arbs.trans h.arbs, k.lvl.trans h.lvl⟩

theorem setStack {k : Stack} (h : k.lvl = (s.stack n).lvl) : CountsKept n s (s.setStack n k) :=
  ⟨rfl, by rw [State.stack_setStack_same, h]⟩

theorem arb (h : CountsKept n s t) (a : ArbId) : t.arb a = s.arb a := by rw [State.arb, State.arb, h.arbs]

end CountsKept

theorem Stack.lvl_elevate (k : Stack) (pc : Fin 64) : (k.elevate pc).lvl = k.lvl := by
  unfold Stack.elevate
  split
  · rfl
  · split
    · rfl
    · rfl

theorem State.grnAccept_counts (s : State) (n : StackId) (r : GrnReq) : CountsKept n.val s (s.grnAccept n r) := by
  unfold State.grnAccept
  dsimp only
  split
  · exact .setStack rfl
  · exact .setStack (Stack.lvl_elevate ..)

theorem State.grnRefill_counts (n : StackId) (m : Nat) (s : State) : CountsKept n.val s (State.grnRefill n m s) := by
  induction m generalizing s with
  | zero => exact .refl s
  | succ m ih =>
    unfold State.grnRefill
    dsimp only
    split
    · exact .refl s
    · split
      · exact .refl s
      · refine CountsKept.trans (CountsKept.trans (.setStack ?_) (State.grnAccept_counts ..)) (ih _)
        rfl

theorem State.grnClose_counts (s : State) (n : StackId) (id : Nat) : CountsKept n.val s (s.grnClose n id) := by
  unfold State.grnClose
  dsimp only
  refine CountsKept.trans (.setStack ?_) (State.grnRefill_counts ..)
  refine List.foldlRecOn (motive := fun k => Stack.lvl k = (s.stack n).lvl) _ _ rfl fun k h pc _ => ?_
  split
  · exact (Stack.lvl_elevate ..).trans h
  · exact h

theorem State.pfDrop_counts (s : State) (n : Nat) (line : BitVec 30) : CountsKept n s (s.pfDrop n line) :=
  .setStack rfl

theorem State.lineWrite_counts (s : State) (n : StackId) (line : BitVec 30) (bs : List Byte) :
    CountsKept n.val s (s.lineWrite n line bs) :=
  CountsKept.trans (t := s.write (lineAddr n line) bs) ⟨rfl, rfl⟩ (State.pfDrop_counts ..)

theorem State.setLineMark_counts (s : State) (n : StackId) (line : BitVec 30) (m : Option Bool) :
    CountsKept n.val s (s.setLineMark n line m) := ⟨rfl, rfl⟩

theorem State.grnWhole_counts (s : State) (n : StackId) (o : GrnOpen) : CountsKept n.val s (s.grnWhole n o) := by
  unfold State.grnWhole
  dsimp only
  refine CountsKept.trans (CountsKept.trans (CountsKept.trans (State.lineWrite_counts ..) (State.setLineMark_counts ..))
    (.setStack ?_)) (State.grnClose_counts ..)
  rfl

theorem State.grnServe_counts (s : State) (n : StackId) (id : Nat) : CountsKept n.val s (s.grnServe n id) := by
  unfold State.grnServe
  dsimp only
  split
  · exact .refl s
  · split
    · refine CountsKept.trans (.setStack ?_) (State.grnWhole_counts ..)
      rfl
    · exact .setStack rfl

theorem State.writeBack_counts (s : State) (n : StackId) (line : BitVec 30) : CountsKept n.val s (s.writeBack n line) := by
  have hmark : CountsKept n.val s (if s.lineMark n line = some true then s else s.setLineMark n line none) := by
    split
    · exact .refl s
    · exact s.setLineMark_counts n line none
  unfold State.writeBack
  dsimp only
  refine hmark.trans (CountsKept.trans (.setStack ?_) (State.pfDrop_counts ..))
  rfl

theorem State.grnGranted_counts (s : State) (n : StackId) (x : Aim) : CountsKept n.val s (s.grnGranted n x) := by
  unfold State.grnGranted
  split
  · exact List.foldlRecOn _ _ (.refl s) fun t h id _ => h.trans (t.grnServe_counts n id)
  · exact s.writeBack_counts n _
  · exact .refl s

/-- The request that is served is granted, and no request leaves, where it is no write of a whole line. -/
theorem State.openReqs_grnServe {s : State} {n : StackId} {o : GrnOpen}
    (hfind : (s.stack n.val).openReqs.find? (fun x => x.id = o.id) = some o) (hwhole : wholeLine o.req = false) :
    ((s.grnServe n o.id).stack n.val).openReqs.map (fun x => (x.id, x.req, x.granted)) =
      (s.stack n.val).openReqs.map (fun x => (x.id, x.req, x.granted || decide (x.id = o.id))) := by
  unfold State.grnServe
  dsimp only
  rw [hfind]
  simp only [hwhole, Bool.false_and, Bool.false_eq_true, if_false, State.stack_setStack_same, List.map_map]
  refine List.map_congr_left fun x _ => ?_
  by_cases hx : x.id = o.id
  · simp [hx]
  · simp only [Function.comp_apply, hx, if_false, decide_false, Bool.or_false]
    split
    · rfl
    · rfl

theorem State.lvl_hinted (s : State) (n : StackId) (pc : Fin 64) (win : Option Nat) (losers order : List Nat) (m : Nat) :
    ((s.hinted (.hbm n pc) win losers order).stack m).lvl = (s.stack m).lvl := by
  simp only [State.hinted, State.stack_setStack]
  split
  · next hm =>
    rw [← hm]
    split
    · rfl
    · split
      · split
        · rfl
        · rfl
      · rfl
  · rfl

theorem State.lvl_decided (s : State) (n : StackId) (pc : Fin 64) (e len w m : Nat) :
    ((s.decided (.hbm n pc) e len w).stack m).lvl = (s.stack m).lvl := by
  rw [State.decided, State.grantTo_eq, State.lvl_hinted, State.stack_setArb, (s.timedFor_passed ..).stack]

/-! ### Preemption (R227) -/

/-- An arbiter whose emergency requester has a request. -/
def Arb.called (b : Arb) (e : Nat) : Arb :=
  { b with reqs := if Tab.get 0 b.reqs e = 0 then Tab.set 0 b.reqs e 1 else b.reqs }

theorem Arb.called_emergency (b : Arb) (e : Nat) : 0 < Tab.get 0 (b.called e).reqs e := by
  simp only [Arb.called]
  split
  · rw [Tab.get_set_same]
    decide
  · omega

theorem Arb.called_other (b : Arb) {e r : Nat} (h : r ≠ e) : Tab.get 0 (b.called e).reqs r = Tab.get 0 b.reqs r := by
  simp only [Arb.called]
  split
  · exact Tab.get_set_other _ _ _ _ _ h.symm
  · rfl

section Preempt

variable {s : State} {a : ArbId} {e : Nat} {h : Grant} (moved : Nat) (he : arbEmergency a = some e)
  (hh : (s.arb a).holder = some h)
include he hh

/-- A grant that is not split goes on. -/
theorem State.arb_preempt_whole (hcut : ¬ (64 < h.bytes ∧ h.whole = false ∧ (moved + 63) / 64 * 64 < h.bytes)) :
    (s.preempt a moved).arb a = (s.arb a).called e := by
  have hkeep : h.who = e ∨ h.bytes ≤ 64 ∨ h.whole = true ∨ h.bytes ≤ (moved + 63) / 64 * 64 := by
    refine Decidable.byContradiction fun hno => ?_
    simp only [not_or, Nat.not_le, Bool.not_eq_true] at hno
    exact hcut hno.2
  simp only [State.preempt, he, hh, if_pos hkeep]
  rw [State.arb_setArb_same, ← hh]
  rfl

/-- What is left of a grant that is split stands at the head of its class. -/
theorem State.arb_preempt_split (hne : h.who ≠ e) (hcut : 64 < h.bytes ∧ h.whole = false ∧ (moved + 63) / 64 * 64 < h.bytes) :
    (s.preempt a moved).arb a = { (s.arb a).called e with
      rest := { h with bytes := h.bytes - (moved + 63) / 64 * 64, aim := h.aim.after ((moved + 63) / 64 * 64 / 64) } ::
        (s.arb a).rest.filter (fun x => x.who ≠ h.who)
      waited := Tab.set 0 (s.arb a).waited h.who 0
      holder := none } := by
  have hsplit : ¬ (h.who = e ∨ h.bytes ≤ 64 ∨ h.whole = true ∨ h.bytes ≤ (moved + 63) / 64 * 64) := by
    simp only [not_or, Nat.not_le, Bool.not_eq_true]
    exact ⟨hne, hcut⟩
  simp only [State.preempt, he, hh, if_neg hsplit]
  split
  · rw [State.arb_setStack, State.arb_setArb_same]
    rfl
  · rw [State.arb_setArb_same]
    rfl

end Preempt

/-! ### The stall watchdog (R49, R226, R259, R298) -/

/-- The grant of an arbiter withdrawn. -/
def State.withdrawn (s : State) (a : ArbId) : State := s.setArb a { s.arb a with holder := none }

theorem State.withdraw_none {s : State} {a : ArbId} (h : (s.arb a).holder = none) : s.withdraw a = (s, none) := by
  simp only [State.withdraw, h]

theorem State.withdraw_some {s : State} {a : ArbId} {g : Grant} (h : (s.arb a).holder = some g) :
    s.withdraw a = (s.withdrawn a, some g) := by
  simp only [State.withdraw, h]
  rfl

@[simp] theorem State.holder_withdrawn (s : State) (a : ArbId) : ((s.withdrawn a).arb a).holder = none := by
  rw [State.withdrawn, State.arb_setArb_same]

theorem State.given_withdrawn (s : State) (a c : ArbId) : ((s.withdrawn a).arb c).given = (s.arb c).given := by
  rw [State.withdrawn, State.arb_setArb]
  split
  · next h => rw [← h]
  · rfl

/-- Without a grant nothing stalls. -/
theorem exec_grantStallWatchdog_idle {s : State} {a : ArbId} (h : (s.arb a).holder = none) :
    exec (.grantStallWatchdog a) s = .next s := by
  change execGrantStallWatchdog a s = _
  cases a with
  | bank i => simp only [execGrantStallWatchdog, State.bankStall, State.withdraw_none h]
  | hbm n pc => simp only [execGrantStallWatchdog, State.channelStall, State.withdraw_none h]
  | inject p => simp only [execGrantStallWatchdog, State.injStall, State.withdraw_none h]
  | sheaf w => simp only [execGrantStallWatchdog, State.sheafStall, State.withdraw_none h]

theorem eq_or_eq_of_mem_pair {α : Type} {a b c : α} (h : c ∈ [a, b]) : c = a ∨ c = b :=
  (List.mem_cons.mp h).imp_right List.mem_singleton.mp

theorem exec_injStalls {s : State} {p : PanId} {c : Instr} (hc : c ∈ [Instr.grantStallWatchdog (.inject p), .injStall p]) :
    exec c s = .next (s.injStall p) := by
  rcases eq_or_eq_of_mem_pair hc with rfl | rfl
  · rfl
  · rfl

theorem exec_shfStalls {s : State} {w : StrawId} {c : Instr} (hc : c ∈ [Instr.grantStallWatchdog (.sheaf w), .shfStall w]) :
    exec c s = .next (s.sheafStall w) := by
  rcases eq_or_eq_of_mem_pair hc with rfl | rfl
  · rfl
  · rfl

theorem exec_bankStalls {s : State} {i : SpkId} {c : Instr}
    (hc : c ∈ [Instr.grantStallWatchdog (.bank i), .bankGrantStall i]) : exec c s = .next (s.bankStall i) := by
  rcases eq_or_eq_of_mem_pair hc with rfl | rfl
  · rfl
  · rfl

/-! #### The packet that stalls -/

theorem State.unpark_frame (s : State) (q : Packet) :
    ∃ d k, s.unpark q = { s with fab := { s.fab with dirs := d, parked := k } } := by
  unfold State.unpark
  split
  · exact ⟨_, _, rfl⟩
  · unfold State.oweCredit
    split
    · exact ⟨_, _, rfl⟩
    · exact ⟨_, _, rfl⟩

/-- A packet that leaves the fabric changes the fabric's lists of packets and what bridges owe. -/
theorem State.takePkt_frame (s : State) (q : Packet) :
    ∃ d k i r, s.takePkt q = { s with fab := { s.fab with
      dirs := d, parked := k, sent := s.fab.sent.erase q, ingress := i, routed := r } } := by
  obtain ⟨d, k, h⟩ := s.unpark_frame q
  unfold State.takePkt
  dsimp only
  rw [h]
  exact ⟨_, _, _, _, rfl⟩

@[simp] theorem State.grn_takePkt (s : State) (q : Packet) : (s.takePkt q).grn = s.grn := by
  obtain ⟨d, k, i, r, h⟩ := s.takePkt_frame q
  rw [h]

@[simp] theorem State.spk_takePkt (s : State) (q : Packet) (i : Nat) : (s.takePkt q).spk i = s.spk i := by
  obtain ⟨d, k, j, r, h⟩ := s.takePkt_frame q
  rw [h]
  rfl

@[simp] theorem State.sent_takePkt (s : State) (q : Packet) : (s.takePkt q).fab.sent = s.fab.sent.erase q := by
  obtain ⟨d, k, i, r, h⟩ := s.takePkt_frame q
  rw [h]

@[simp] theorem State.panArbs_takePkt (s : State) (q : Packet) : (s.takePkt q).fab.panArbs = s.fab.panArbs := by
  obtain ⟨d, k, i, r, h⟩ := s.takePkt_frame q
  rw [h]

/-- An injection arbiter whose grant has stalled. -/
def State.injStalled (s : State) (p : PanId) : State :=
  (s.withdrawn (.inject p)).setPanArb p.val { s.panArb p.val with stall := true }

/-- The command `c` stalls the injection of panicle `p`, and leads to `t`. -/
def State.Stalls (s : State) (p : PanId) (c : Instr) (t : State) : Prop :=
  exec c s = .next t ∧ (t.arb (.inject p)).holder = none ∧ t.panArb p.val = { s.panArb p.val with stall := true }

/-- The failure of a packet leaves its arbiter as it stalled. -/
theorem State.stalls_of_kept {s t : State} {p : PanId} {c : Instr} (hexec : exec c s = .next t)
    (hgrn : t.grn = (s.injStalled p).grn) (hpan : t.fab.panArbs = (s.injStalled p).fab.panArbs) : s.Stalls p c t := by
  refine ⟨hexec, ?_, ?_⟩
  · rw [State.arb, hgrn]
    exact s.holder_withdrawn (.inject p)
  · rw [State.panArb, hpan]
    exact Tab.get_set_same ..

theorem State.injPkt_injStalled (s : State) (p : PanId) (r : Nat) :
    (s.injStalled p).injPkt p.val r = s.injPkt p.val r := by
  have hgiven : ∀ c, ((s.injStalled p).arb c).given = (s.arb c).given := s.given_withdrawn (.inject p)
  simp only [State.injPkt, hgiven]
  rfl

theorem State.injStall_none {s : State} {p : PanId} {h : Grant} (hh : (s.arb (.inject p)).holder = some h)
    (hq : s.injPkt p.val h.who = none) : s.injStall p = s.injStalled p := by
  rw [← State.injPkt_injStalled] at hq
  simp only [State.injStall, State.withdraw_some hh]
  split
  · next q hq' => exact absurd (hq'.symm.trans hq) (by simp)
  · rfl

theorem State.injStall_some {s : State} {p : PanId} {h : Grant} {q : Packet} (hh : (s.arb (.inject p)).holder = some h)
    (hq : s.injPkt p.val h.who = some q) : s.injStall p = ((s.injStalled p).takePkt q).injFail q := by
  rw [← State.injPkt_injStalled] at hq
  simp only [State.injStall, State.withdraw_some hh]
  split
  · next q' hq' =>
    cases Option.some.inj (hq'.symm.trans hq)
    rfl
  · next hq' => exact absurd (hq'.symm.trans hq) (by simp)

/-- A reply is no operation of its panicle: nothing fails with it. -/
theorem State.injFail_reply (s : State) {q : Packet} (hkind : q.kind = 1) (hop : 0x80 ≤ q.op.toNat) :
    s.injFail q = s.draw.2 := by
  have hchunk : ¬ (q.op = 0x30 ∧ ecFn q.src = 0x41) := fun h => absurd hop (by rw [h.1]; decide)
  have hbundle : ¬ (0x20 ≤ q.op.toNat ∧ q.op.toNat ≤ 0x2F) := by omega
  have hrequest : q.kind ≠ 0 := by rw [hkind]; decide
  simp only [State.injFail, if_neg hchunk, State.workLost, if_neg hbundle, if_pos hrequest]

/-- The request of a floret's slot fails in its slot. -/
theorem State.injFail_slot (s : State) {q : Packet} {x : Slot} (hkind : q.kind = 0) (hop : q.op.toNat < 0x20)
    (hfn : ecFn q.src < 16) (hx : (s.spk (ecSpkIx q.src)).slot (fld q.rtag 7 0) = some x) (hsent : x.stage = .sent)
    (hpar : q.rtag.getLsbD 8 = (s.spk (ecSpkIx q.src)).parity.getLsbD (fld q.rtag 7 0)) :
    ∃ code, s.injFail q = (s.draw.2.failRop (ecSpkIx q.src) (fld q.rtag 7 0) x (code + 1)).pump (ecSpkIx q.src) := by
  have hchunk : ¬ (q.op = 0x30 ∧ ecFn q.src = 0x41) := fun h => absurd hop (by rw [h.1]; decide)
  have hbundle : ¬ (0x20 ≤ q.op.toNat ∧ q.op.toNat ≤ 0x2F) := by omega
  refine ⟨s.draw.1.toNat % 255, ?_⟩
  have hx' : (s.draw.2.spk (ecSpkIx q.src)).slot (fld q.rtag 7 0) = some x := hx
  have hlive : x.stage = .sent ∧ q.rtag.getLsbD 8 = (s.draw.2.spk (ecSpkIx q.src)).parity.getLsbD (fld q.rtag 7 0) :=
    ⟨hsent, hpar⟩
  simp only [State.injFail, if_neg hchunk, State.workLost, if_neg hbundle, hkind, if_pos hfn, hx', if_pos hlive,
    Nat.add_comm 1, ne_eq, not_true_eq_false, if_false]

/-! #### The slot of a failed operation -/

/-- A panicle's walks and what the steward is asked for. -/
def WalksOnly (s t : State) : Prop :=
  ∃ ps h, t = { s with cores := { s.cores with panicles := ps }, host := h }

theorem WalksOnly.trans {s t u : State} (h : WalksOnly s t) (k : WalksOnly t u) : WalksOnly s u := by
  obtain ⟨_, _, rfl⟩ := h
  obtain ⟨_, _, rfl⟩ := k
  exact ⟨_, _, rfl⟩

theorem WalksOnly.setPan (s : State) (p : Nat) (v : Panicle) : WalksOnly s (s.setPan p v) := ⟨_, _, rfl⟩

theorem State.nextWalk_walks (s : State) (p : Nat) : WalksOnly s (s.nextWalk p) := by
  unfold State.nextWalk
  dsimp only
  split
  · exact ⟨_, _, rfl⟩
  · split
    · exact .setPan ..
    · exact ⟨_, _, rfl⟩

theorem State.postFar_walks (s : State) (ctx : BitVec 12) (va : Nat) : WalksOnly s (s.postFar ctx va) := by
  unfold State.postFar
  dsimp only
  split
  · exact ⟨_, _, rfl⟩
  · exact ⟨_, _, rfl⟩

theorem State.refillFar_walks (p k : Nat) (s : State) : WalksOnly s (s.refillFar p k) := by
  induction k generalizing s with
  | zero => exact ⟨_, _, rfl⟩
  | succ k ih =>
    unfold State.refillFar
    dsimp only
    split
    · exact ⟨_, _, rfl⟩
    · split
      · exact (WalksOnly.trans (.setPan ..) (State.postFar_walks ..)).trans (ih _)
      · exact ⟨_, _, rfl⟩

theorem State.keepXl_walks (s : State) (p : Nat) (keep : Xl → Bool) : WalksOnly s (s.keepXl p keep) := by
  refine WalksOnly.trans ?_ (State.refillFar_walks ..)
  exact List.foldlRecOn _ _ (.setPan ..) fun t h _ _ => h.trans (t.nextWalk_walks p)

/-- A fault recorded: the record, or its overflow (R167), and the log. -/
theorem State.record_spk (s : State) (i : Nat) (f : Fin 16) (k : FKind) (code : Nat) (pc : BitVec 20) (detail : W64) :
    ∃ r, (s.record i f k code pc detail).spk i = { s.spk i with frec := r } ∧
      ((s.spk i).frec.valid = false → r.code = BitVec.ofNat 8 code ∧ r.detail = detail) := by
  unfold State.record
  dsimp only
  split
  · next hv => exact ⟨_, State.spk_setSpk_same .., fun h => absurd hv (by simp [h])⟩
  · exact ⟨_, State.spk_setSpk_same .., fun _ => ⟨rfl, rfl⟩⟩

theorem State.record_fabric (s : State) (i : Nat) (f : Fin 16) (k : FKind) (code : Nat) (pc : BitVec 20) (detail : W64) :
    (s.record i f k code pc detail).fab = s.fab ∧ (s.record i f k code pc detail).grn = s.grn := by
  unfold State.record
  dsimp only
  split
  · exact ⟨rfl, rfl⟩
  · exact ⟨rfl, rfl⟩

theorem State.dropWait_frame (s : State) (i : Nat) (cell : Vertex) : ∃ d, s.dropWait i cell = { s with det := d } := ⟨_, rfl⟩

/-- A fault is recorded, and its floret stops unless it is IDLE (R33, R167). -/
theorem State.raise_cases (s : State) (i : Nat) (f : Fin 16) (k : FKind) (code : Nat) (pc : BitVec 20) (detail : W64) :
    let u := s.record i f k code pc detail
    s.raise i f k code pc detail = u ∨
    ∃ d fl, s.raise i f k code pc detail = (({ u with det := d } : State).setFloret (i * 16 + f.val) fl).setSpk i
      { u.spk i with spill := dropSpill f (u.spk i).spill } := by
  unfold State.raise
  dsimp only
  split
  · exact .inl rfl
  · refine .inr ?_
    split
    · next slot cell _ =>
      obtain ⟨d, h⟩ := (s.record i f k code pc detail).dropWait_frame i cell
      rw [h]
      exact ⟨d, _, rfl⟩
    · exact ⟨(s.record i f k code pc detail).det, _, rfl⟩

/-- What a fault changes of its spikelet: the record, and the spill buffer of the floret that stops (R167, R196). -/
theorem State.raise_spk (s : State) (i : Nat) (f : Fin 16) (k : FKind) (code : Nat) (pc : BitVec 20) (detail : W64) :
    ∃ r l, (s.raise i f k code pc detail).spk i = { s.spk i with frec := r, spill := l } ∧
      ((s.spk i).frec.valid = false → r.code = BitVec.ofNat 8 code ∧ r.detail = detail) := by
  obtain ⟨r, hr, hrec⟩ := s.record_spk i f k code pc detail
  rcases s.raise_cases i f k code pc detail with h | ⟨d, fl, h⟩
  · exact ⟨r, _, by rw [h, hr], hrec⟩
  · exact ⟨r, _, by rw [h, State.spk_setSpk_same, hr], hrec⟩

theorem State.raise_fabric (s : State) (i : Nat) (f : Fin 16) (k : FKind) (code : Nat) (pc : BitVec 20) (detail : W64) :
    (s.raise i f k code pc detail).fab = s.fab ∧ (s.raise i f k code pc detail).grn = s.grn := by
  have hrecord := s.record_fabric i f k code pc detail
  rcases s.raise_cases i f k code pc detail with h | ⟨d, fl, h⟩
  · rw [h]
    exact hrecord
  · rw [h]
    exact hrecord

theorem State.cutDrain_frame (s : State) (i : Nat) (x : Slot) :
    ∃ ds, (s.cutDrain i x).spk i = { s.spk i with drains := ds } ∧ ((s.spk i).drains = [] → ds = []) ∧
      (s.cutDrain i x).fab = s.fab ∧ (s.cutDrain i x).grn = s.grn := by
  unfold State.cutDrain
  split
  · exact ⟨_, State.spk_setSpk_same .., fun h => by rw [h]; rfl, rfl, rfl⟩
  · exact ⟨_, rfl, id, rfl, rfl⟩

/-- A failed operation leaves its slot; the other slots are as they were, and drains come to none. -/
theorem State.failRop_frame (s : State) (i n : Nat) (x : Slot) (code : Nat) :
    ((s.failRop i n x code).spk i).slots = Tab.set none (s.spk i).slots n none ∧
    ((s.spk i).drains = [] → ((s.failRop i n x code).spk i).drains = []) ∧
    (s.failRop i n x code).fab = s.fab ∧ (s.failRop i n x code).grn = s.grn := by
  obtain ⟨ps, host, hxl⟩ : WalksOnly s (s.dropXl (panOfSpk i) (.slot (Fin.ofNat 98304 i) n)) := State.keepXl_walks ..
  unfold State.failRop
  dsimp only
  rw [hxl]
  obtain ⟨ds, hspk, hds, hfab, hgrn⟩ :=
    State.cutDrain_frame { s with cores := { s.cores with panicles := ps }, host := host } i x
  generalize State.cutDrain { s with cores := { s.cores with panicles := ps }, host := host } i x = u at *
  have hfree : ((u.freeSlotAt i n).spk i).slots = Tab.set none (s.spk i).slots n none ∧
      ((u.freeSlotAt i n).spk i).drains = ds := by
    rw [State.freeSlotAt, State.spk_setSpk_same, hspk]
    exact ⟨rfl, rfl⟩
  split
  · exact ⟨hfree.1, fun h => hfree.2.trans (hds h), hfab, hgrn⟩
  · obtain ⟨r, l, hraise, -⟩ := State.raise_spk ((u.freeSlotAt i n).setFloret (i * 16 + x.floret.val)
      (((u.freeSlotAt i n).floret (i * 16 + x.floret.val)).unmark x.dst)) i x.floret .remote code x.pc x.addr
    have hout := State.raise_fabric ((u.freeSlotAt i n).setFloret (i * 16 + x.floret.val)
      (((u.freeSlotAt i n).floret (i * 16 + x.floret.val)).unmark x.dst)) i x.floret .remote code x.pc x.addr
    rw [hraise]
    exact ⟨hfree.1, fun h => hfree.2.trans (hds h), hout.1.trans hfab, hout.2.trans hgrn⟩

theorem Tab.mem_of_mem_set_default {α : Type} [DecidableEq α] {d : α} {n : Nat} {e : Nat × α} :
    ∀ {t : Tab α}, e ∈ Tab.set d t n d → e ∈ t
  | [], h => by simp [Tab.set, Tab.put] at h
  | (k, w) :: t, h => by
    unfold Tab.set at h
    split at h
    · rcases List.mem_cons.mp h with rfl | h
      · exact .head _
      · exact .tail _ (Tab.mem_of_mem_set_default h)
    · rw [Tab.put, if_pos rfl] at h
      exact (List.mem_filter.mp h).1

/-- Without a drain that waits for slots and an operation that is held, nothing goes on. -/
theorem State.pump_idle {s : State} {i : Nat} (hdrains : (s.spk i).drains = [])
    (hheld : ∀ e ∈ (s.spk i).slots, ∀ y, e.2 = some y → y.stage = .held → y.kind = .signal) : s.pump i = s := by
  have hone : s.pumpOne i = none := by
    unfold State.pumpOne
    simp only [hdrains, List.find?_nil]
  have hpump : s.pumpDrains i 64 = s := by
    unfold State.pumpDrains
    rw [hone]
  unfold State.pump
  rw [hpump]
  unfold State.pumpHeld
  dsimp only
  split
  · next n y hy =>
    have hgo := List.find?_some hy
    have hmem := List.mem_of_find?_eq_some hy
    simp only [Bool.and_eq_true, decide_eq_true_eq] at hgo
    exact absurd (hheld _ hmem y rfl hgo.1.1) hgo.1.2
  · rfl

/-- A floret's request that stalls at injection fails in its slot, and nothing else of the fabric changes (R259). -/
theorem State.injFail_frees {s : State} {q : Packet} {x : Slot} (hkind : q.kind = 0) (hop : q.op.toNat < 0x20)
    (hfn : ecFn q.src < 16) (hx : (s.spk (ecSpkIx q.src)).slot (fld q.rtag 7 0) = some x) (hsent : x.stage = .sent)
    (hpar : q.rtag.getLsbD 8 = (s.spk (ecSpkIx q.src)).parity.getLsbD (fld q.rtag 7 0))
    (hdrains : (s.spk (ecSpkIx q.src)).drains = [])
    (hheld : ∀ e ∈ (s.spk (ecSpkIx q.src)).slots, ∀ y, e.2 = some y → y.stage = .held → y.kind = .signal) :
    ((s.injFail q).spk (ecSpkIx q.src)).slot (fld q.rtag 7 0) = none ∧ (s.injFail q).fab = s.fab ∧
      (s.injFail q).grn = s.grn := by
  obtain ⟨code, hfail⟩ := s.injFail_slot hkind hop hfn hx hsent hpar
  obtain ⟨hslots, hnone, hfab, hgrn⟩ := s.draw.2.failRop_frame (ecSpkIx q.src) (fld q.rtag 7 0) x (code + 1)
  have hidle := State.pump_idle (hnone hdrains) fun e he => hheld e (Tab.mem_of_mem_set_default (hslots ▸ he))
  rw [hfail, hidle, Spikelet.slot, hslots]
  exact ⟨Tab.get_set_same .., hfab, hgrn⟩

/-! #### The grant that stalls on a straw -/

theorem State.stalledOn_withdrawn (s : State) (a : ArbId) (w vc : Nat) :
    (s.withdrawn a).stalledOn w vc = s.stalledOn w vc := by
  have hgiven : ∀ w, (s.withdrawn a).givenTo w = s.givenTo w := fun w => s.given_withdrawn a _
  simp only [State.stalledOn, hgiven]
  rfl

theorem State.sheafStall_none {s : State} {w : StrawId} {h : Grant} (hh : (s.arb (.sheaf w)).holder = some h)
    (hq : s.stalledOn w.val h.who = none) : s.sheafStall w = s.withdrawn (.sheaf w) := by
  rw [← s.stalledOn_withdrawn (.sheaf w)] at hq
  simp only [State.sheafStall, State.withdraw_some hh, hq]

/-- The packet of a grant that stalls on a straw is dropped, and the straw names its context (R298). -/
theorem State.sheafStall_some {s : State} {w : StrawId} {h : Grant} {k : Packet} (hh : (s.arb (.sheaf w)).holder = some h)
    (hk : s.stalledOn w.val h.who = some k) :
    ∃ f, s.sheafStall w = { s.withdrawn (.sheaf w) with fab := f } ∧ f.sent = s.fab.sent.erase k ∧
      (Tab.get {} f.straws w.val).stalls = (s.straw w.val).stalls ++ [k.ctx] := by
  rw [← s.stalledOn_withdrawn (.sheaf w)] at hk
  obtain ⟨d, p, i, r, htake⟩ := (s.withdrawn (.sheaf w)).takePkt_frame k
  simp only [State.sheafStall, State.withdraw_some hh, hk, htake]
  refine ⟨_, rfl, rfl, ?_⟩
  rw [Tab.get_set_same]
  rfl

/-! #### The packet that stalls at injection -/

section Injection

variable {s : State} {p : PanId} {h : Grant} {c : Instr} {q : Packet}
  (hh : (s.arb (.inject p)).holder = some h) (hc : c ∈ [Instr.grantStallWatchdog (.inject p), .injStall p])
include hh hc

theorem stalls_of_no_packet (hq : s.injPkt p.val h.who = none) :
    ∃ t, s.Stalls p c t ∧ t.fab.sent = s.fab.sent ∧ { t with grn := s.grn, fab := s.fab } = s := by
  refine ⟨s.injStalled p, State.stalls_of_kept ?_ rfl rfl, rfl, rfl⟩
  rw [exec_injStalls hc, State.injStall_none hh hq]

theorem stalls_of_reply (hq : s.injPkt p.val h.who = some q) (hkind : q.kind = 1) (hop : 0x80 ≤ q.op.toNat) :
    ∃ t, s.Stalls p c t ∧ t.fab.sent = s.fab.sent.erase q ∧
      { t with grn := s.grn, fab := s.fab, freeIx := s.freeIx } = s := by
  have hfail := ((s.injStalled p).takePkt q).injFail_reply hkind hop
  refine ⟨((s.injStalled p).takePkt q).draw.2, State.stalls_of_kept ?_ ?_ ?_, ?_, ?_⟩
  · rw [exec_injStalls hc, State.injStall_some hh hq, hfail]
  · exact State.grn_takePkt ..
  · exact State.panArbs_takePkt ..
  · exact State.sent_takePkt ..
  · obtain ⟨d, k, i, r, htake⟩ := (s.injStalled p).takePkt_frame q
    rw [htake]
    rfl

theorem stalls_of_request {x : Slot} (hq : s.injPkt p.val h.who = some q) (hkind : q.kind = 0) (hop : q.op.toNat < 0x20)
    (hfn : ecFn q.src < 16) (hx : (s.spk (ecSpkIx q.src)).slot (fld q.rtag 7 0) = some x) (hsent : x.stage = .sent)
    (hpar : q.rtag.getLsbD 8 = (s.spk (ecSpkIx q.src)).parity.getLsbD (fld q.rtag 7 0))
    (hdrains : (s.spk (ecSpkIx q.src)).drains = [])
    (hheld : ∀ e ∈ (s.spk (ecSpkIx q.src)).slots, ∀ y, e.2 = some y → y.stage = .held → y.kind = .signal) :
    ∃ t, s.Stalls p c t ∧ t.fab.sent = s.fab.sent.erase q ∧ (t.spk (ecSpkIx q.src)).slot (fld q.rtag 7 0) = none := by
  have hspk : ((s.injStalled p).takePkt q).spk (ecSpkIx q.src) = s.spk (ecSpkIx q.src) := State.spk_takePkt ..
  rw [← hspk] at hx hpar hdrains hheld
  obtain ⟨hslot, hfab, hgrn⟩ := State.injFail_frees hkind hop hfn hx hsent hpar hdrains hheld
  refine ⟨((s.injStalled p).takePkt q).injFail q, State.stalls_of_kept ?_ ?_ ?_, ?_, hslot⟩
  · rw [exec_injStalls hc, State.injStall_some hh hq]
  · rw [hgrn, State.grn_takePkt]
  · rw [hfab, State.panArbs_takePkt]
  · rw [hfab, State.sent_takePkt]
    rfl

end Injection

/-! #### The grant that stalls at a bank -/

theorem State.bankStall_latOp {s : State} {i : SpkId} {h : Grant} {k : Nat} (hh : (s.arb (.bank i)).holder = some h)
    (haim : h.aim = .latOp k) : s.bankStall i = (s.withdrawn (.bank i)).failLat i.val k 0x09 := by
  simp only [State.bankStall, State.withdraw_some hh, haim]

theorem State.bankStall_latDrain {s : State} {i : SpkId} {h : Grant} {k : Nat} {d : Drain}
    (hh : (s.arb (.bank i)).holder = some h) (haim : h.aim = .latDrain k)
    (hd : (s.spk i.val).drains.find? (fun d => d.order = k) = some d) :
    s.bankStall i = (s.withdrawn (.bank i)).failDrain i.val d 0x09 := by
  have hd' : ((s.withdrawn (.bank i)).spk i.val).drains.find? (fun d => d.order = k) = some d := hd
  simp only [State.bankStall, State.withdraw_some hh, haim, hd']

theorem State.bankStall_floret {s : State} {i : SpkId} {h : Grant} {r : BankReq} {rest : List BankReq}
    (hh : (s.arb (.bank i)).holder = some h) (hwho : h.who = 2) (haim : h.aim = .other)
    (hq : (s.spk i.val).bankQ = r :: rest) :
    s.bankStall i = (((s.withdrawn (.bank i)).setSpk i.val { s.spk i.val with bankQ := rest }).dropRest i.val r).raise
      i.val r.floret .sync 0x09 r.pc (BitVec.ofNat 64 r.off) := by
  have hq' : ((s.withdrawn (.bank i)).spk i.val).bankQ = r :: rest := hq
  simp only [State.bankStall, State.withdraw_some hh, haim, hwho, hq']
  rfl

/-- The oldest access of the florets' class fails with what is left of its instruction's, and is recorded (R49, R165). -/
theorem State.bankStall_floret_left {s : State} {i : SpkId} {h : Grant} {r : BankReq} {rest : List BankReq}
    (hh : (s.arb (.bank i)).holder = some h) (hwho : h.who = 2) (haim : h.aim = .other)
    (hq : (s.spk i.val).bankQ = r :: rest) :
    ((s.bankStall i).arb (.bank i)).holder = none ∧ (s.bankStall i).mem = s.mem ∧
    ((s.bankStall i).spk i.val).bankQ =
      rest.filter (fun q => !(decide (q.floret = r.floret) && decide (q.order = r.order))) ∧
    ((s.spk i.val).frec.valid = false →
      ((s.bankStall i).spk i.val).frec.code = 0x09 ∧ ((s.bankStall i).spk i.val).frec.detail = BitVec.ofNat 64 r.off) := by
  rw [State.bankStall_floret hh hwho haim hq]
  have hspk : ((((s.withdrawn (.bank i)).setSpk i.val { s.spk i.val with bankQ := rest }).dropRest i.val r).spk i.val) =
      { s.spk i.val with
        bankQ := rest.filter (fun q => !(decide (q.floret = r.floret) && decide (q.order = r.order))) } := by
    rw [State.dropRest, State.spk_setSpk_same, State.spk_setSpk_same]
  have hholder : ((((s.withdrawn (.bank i)).setSpk i.val { s.spk i.val with bankQ := rest }).dropRest i.val r).arb
      (.bank i)).holder = none := s.holder_withdrawn _
  have hmem : (((s.withdrawn (.bank i)).setSpk i.val { s.spk i.val with bankQ := rest }).dropRest i.val r).mem = s.mem := rfl
  generalize ((s.withdrawn (.bank i)).setSpk i.val { s.spk i.val with bankQ := rest }).dropRest i.val r = u at *
  obtain ⟨rec, l, hraise, hrec⟩ := u.raise_spk i.val r.floret .sync 0x09 r.pc (BitVec.ofNat 64 r.off)
  rw [hspk] at hraise hrec
  refine ⟨?_, (State.mem_raise ..).trans hmem, ?_, ?_⟩
  · rw [State.arb, (u.raise_fabric ..).2]
    exact hholder
  · rw [hraise]
  · rw [hraise]
    exact hrec

/-! ### Decisions of banks, injection arbiters and straws -/

/-- A bank, a straw, or an injection arbiter whose mover has nothing to read ahead. -/
def State.Plain (s : State) (a : ArbId) : Prop :=
  match a with
  | .hbm _ _ => False
  | .inject p => ∀ m ∈ (s.pan p.val).movs, m.stage ≠ .waiting
  | _ => True

@[simp] theorem State.cores_setArb (s : State) (a : ArbId) (b : Arb) : (s.setArb a b).cores = s.cores := rfl

@[simp] theorem State.cores_give (s : State) (a : ArbId) (live : List Packet) (q : Option Packet) :
    (s.give a live q).cores = s.cores := rfl

@[simp] theorem State.mem_give (s : State) (a : ArbId) (live : List Packet) (q : Option Packet) :
    (s.give a live q).mem = s.mem := rfl

theorem State.cores_undecided (s : State) (a : ArbId) (n : Nat) : (s.undecided a n).cores = s.cores := by
  rw [State.undecided, State.cores_setArb, (s.timedFor_passed ..).cores]

/-- A decision that grants nothing. -/
theorem exec_arbiterDecision_idle {s : State} {a : ArbId} (n len : Nat) (hplain : s.Plain a)
    (hidle : s.winner a (s.waitingAt a) = none) :
    ∃ t, exec (.arbiterDecision a n len) s = .next t ∧ (t.arb a).holder = none ∧ (t.arb a).reqs = (s.arb a).reqs ∧
      t.cores = s.cores ∧ t.mem = s.mem := by
  obtain ⟨hholder, hreqs⟩ := s.arb_undecided a n
  have hcores := s.cores_undecided a n
  have hmem := (s.undecided_frame a n).mem
  cases a with
  | bank i =>
    refine ⟨s.undecided (.bank i) n, ?_, hholder, hreqs, hcores, hmem⟩
    rw [exec_arbiterDecision_bank, State.arbitrate_idle hidle]
  | hbm n pc => exact hplain.elim
  | inject p =>
    refine ⟨(s.undecided (.inject p) n).give (.inject p) s.fab.sent none, ?_, ?_, ?_, ?_, ?_⟩
    · rw [exec_arbiterDecision_inject n len hplain, State.arbitrate_idle hidle]
      rfl
    · rw [State.arb_give, hholder]
    · rw [State.arb_give, hreqs]
    · rw [State.cores_give, hcores]
    · rw [State.mem_give, hmem]
  | sheaf w => exact ⟨s.undecided (.sheaf w) n, exec_arbiterDecision_sheaf_idle hidle, hholder, hreqs, hcores, hmem⟩

/-- A decision that grants `w` its request: of a packet class the packet that is next. -/
theorem exec_arbiterDecision_won {s : State} {a : ArbId} {w : Nat} (n len : Nat) (hplain : s.Plain a) (hcalm : s.Calm a)
    (hw : w ∈ s.waitingAt a) (hwin : s.winner a (s.waitingAt a) = some w) :
    ∃ t, exec (.arbiterDecision a n len) s = .next t ∧ Decided s a n w (t.arb a) ∧ t.mem = s.mem ∧
      (∀ p q, a = .inject p → (s.injReady p w).head? = some q → t.injPkt p.val w = some q ∧ q ∈ s.fab.sent) ∧
      (∀ v m q, a = .sheaf v → s.sheafOf v.val = some m → q ∈ s.shfQueue v w →
        (if w = 2 ∨ w = 3 then ((s.straw v.val).nextShare (s.shfQueue v w) 33).2 else (s.shfQueue v w).head?) = some q →
          t.stalledOn v.val w = some q ∧ q ∈ s.shfRouted m (v.val / 4) w ++ s.shfNamed v.val w) := by
  have hframe := s.decided_frame a n len w
  have hdecided := State.arb_decided hcalm hw n len
  cases a with
  | bank i =>
    refine ⟨s.decided (.bank i) n len w, ?_, hdecided, hframe.mem, ?_, ?_⟩
    · rw [exec_arbiterDecision_bank, State.arbitrate_won hwin]
    · rintro _ _ ⟨⟩
    · rintro _ _ _ ⟨⟩
  | hbm n pc => exact hplain.elim
  | inject p =>
    refine ⟨(s.decided (.inject p) n len w).give (.inject p) s.fab.sent (s.injReady p w).head?, ?_, ?_, ?_, ?_, ?_⟩
    · rw [exec_arbiterDecision_inject n len hplain, State.arbitrate_won hwin]
      rfl
    · rw [State.arb_give]
      exact hdecided.given _
    · rw [State.mem_give, hframe.mem]
    · rintro p' q ⟨⟩ hq
      obtain ⟨hsent, hinj⟩ := State.of_mem_injReady (List.mem_of_mem_head? hq)
      rw [hq]
      exact ⟨State.injPkt_give hframe.sent hframe.coord hsent hinj, hsent⟩
    · rintro _ _ _ ⟨⟩
  | sheaf v =>
    obtain ⟨hrouted, hsheaf⟩ := (s.decided (.sheaf v) n len w).traffic_shfGrant v w
    have htraffic := s.decided_traffic v n len w
    refine ⟨_, exec_arbiterDecision_sheaf_won hwin, ?_, ?_, ?_, ?_⟩
    · rw [State.arb_give, State.arb_shfGrant]
      exact hdecided.given _
    · rw [State.mem_give, State.mem_shfGrant, hframe.mem]
    · rintro _ _ ⟨⟩
    · rintro v' m q ⟨⟩ hm hmem hq
      have hpkt : ((s.decided (.sheaf v) n len w).shfGrant v w).2 = some q := by
        rw [State.shfGrant_packet, htraffic.shfQueue, htraffic.nextShare]
        exact hq
      have hway := State.of_mem_shfQueue hm hmem
      rw [hpkt]
      exact ⟨State.stalledOn_give hm hway ((hsheaf _).trans (htraffic.sheafOf _)) (hrouted.trans htraffic.routed) _, hway⟩

/-! ### Decisions of a pseudo-channel: what each leaves -/

section Channel

variable {s : State} {n : StackId} {pc : Fin 64} (e len : Nat)

theorem State.calm_hbm (h : Tab.get 0 (s.arb (.hbm n pc)).reqs 6 = 0) : s.Calm (.hbm n pc) := by
  rintro e ⟨⟩
  exact h

/-- The holder and the pending refreshes after a granted refresh. -/
theorem State.refreshed_grant {t : State} (ws : List Nat) (l k : Nat)
    (hdue : (t.stack n.val).refresh = (s.stack n.val).refresh) :
    let u := (t.grantTo (.hbm n pc) ws l (s.unit (.hbm n pc) k 6).2).refreshed n pc
    (u.arb (.hbm n pc)).holder.map (·.who) = some 6 ∧
      Tab.get 0 (u.stack n.val).refresh pc.val = Tab.get 0 (s.stack n.val).refresh pc.val - 1 := by
  refine ⟨?_, ?_⟩
  · rw [State.refreshed, State.arb_setStack, State.arb_grantTo_same]
    exact congrArg some (s.unit_who (.hbm n pc) k 6)
  · rw [State.refresh_refreshed, (t.grantTo_frame ..).refresh, hdue]

/-- A pending emergency refresh wins (R236). -/
theorem decision_of_urgent (h : 0 < Tab.get 0 (s.arb (.hbm n pc)).reqs 6) :
    ∃ t, exec (.arbiterDecision (.hbm n pc) e len) s = .next t ∧ (t.arb (.hbm n pc)).holder.map (·.who) = some 6 ∧
      Tab.get 0 (t.stack n.val).refresh pc.val = Tab.get 0 (s.stack n.val).refresh pc.val - 1 ∧ t.mem = s.mem := by
  have hpass := s.timedFor_passed (.hbm n pc) (s.waitingAt (.hbm n pc)) e
  obtain ⟨hholder, hless⟩ := State.refreshed_grant (s.waitingAt (.hbm n pc)) (s.unit (.hbm n pc) len 6).1 len
    (congrArg Stack.refresh (hpass.stack n.val)) (pc := pc)
  refine ⟨_, exec_arbiterDecision_urgent e len h, hholder, hless, ?_⟩
  rw [State.mem_refreshed, (s.decided_frame ..).mem]

/-- An idle slot serves a pending refresh (R236). -/
theorem decision_of_idle (h6 : Tab.get 0 (s.arb (.hbm n pc)).reqs 6 = 0)
    (hslow : ((s.stack n.val).throttled || s.pwr.grnThrottle) = false) (hidle : s.waitingAt (.hbm n pc) = [])
    (hdue : 0 < Tab.get 0 (s.stack n.val).refresh pc.val) :
    ∃ t, exec (.arbiterDecision (.hbm n pc) e len) s = .next t ∧ (t.arb (.hbm n pc)).holder.map (·.who) = some 6 ∧
      Tab.get 0 (t.stack n.val).refresh pc.val = Tab.get 0 (s.stack n.val).refresh pc.val - 1 ∧
      (t.stack n.val).openReqs = (s.stack n.val).openReqs ∧ t.mem = s.mem := by
  have hframe := s.grantTo_frame (.hbm n pc) [] len (s.unit (.hbm n pc) len 6).2
  obtain ⟨hholder, hless⟩ := State.refreshed_grant (s := s) (n := n) (pc := pc) (t := s) [] len len rfl
  refine ⟨_, exec_arbiterDecision_refresh e len h6 hslow hidle hdue, hholder, hless, ?_, ?_⟩
  · rw [State.refreshed, State.stack_setStack_same, hframe.opens]
  · rw [State.mem_refreshed, hframe.mem]

/-- A throttled stack leaves the slot that it owes empty (Table 6-4). -/
theorem decision_of_gap (h6 : Tab.get 0 (s.arb (.hbm n pc)).reqs 6 = 0)
    (hslow : ((s.stack n.val).throttled || s.pwr.grnThrottle) = true) (hgap : (s.stack n.val).gapOwed.getLsbD pc.val = true) :
    ∃ t, exec (.arbiterDecision (.hbm n pc) e len) s = .next t ∧
      t.stack n.val = { s.stack n.val with gapOwed := putBit (s.stack n.val).gapOwed pc.val false } ∧
      (t.arb (.hbm n pc)).holder = (s.arb (.hbm n pc)).holder ∧ (t.arb (.hbm n pc)).reqs = (s.arb (.hbm n pc)).reqs ∧
      t.mem = s.mem := by
  obtain ⟨t, ht, hexec⟩ := exec_arbiterDecision_gap e len h6 hslow hgap
  refine ⟨_, hexec, ?_, (ht.aged _).holder, (ht.aged _).reqs, ht.mem⟩
  rw [State.gapPassed, State.stack_setStack_same, ht.stack]

/-- What serving a class leaves of the arbiters, and which count it raises (R231). -/
theorem State.channelServed_frame (u : State) (prio : Nat) (x : Aim) :
    (∀ a, (u.channelServed n pc prio x).arb a = u.arb a) ∧
    ((u.channelServed n pc prio x).stack n.val).lvl =
      Tab.upd 0 (u.stack n.val).lvl (pc.val * 4 + prio) (fun c => satAdd c 1) := by
  have hcounts := ((u.countLevel n pc prio).gapPassed n pc).grnGranted_counts n x
  refine ⟨hcounts.arb, hcounts.lvl.trans ?_⟩
  rw [State.gapPassed, State.stack_setStack_same, State.countLevel, State.stack_setStack_same]

/-- The one request that a class serves is granted (R233). -/
theorem State.channelServed_one {u : State} (prio : Nat) {o : GrnOpen} (hwhole : wholeLine o.req = false)
    (hfind : (u.stack n.val).openReqs.find? (fun x => x.id = o.id) = some o) :
    ((u.channelServed n pc prio (.lines [o.id])).stack n.val).openReqs.map (fun x => (x.id, x.req, x.granted)) =
      (u.stack n.val).openReqs.map (fun x => (x.id, x.req, x.granted || decide (x.id = o.id))) := by
  have hopens : (((u.countLevel n pc prio).gapPassed n pc).stack n.val).openReqs = (u.stack n.val).openReqs := by
    rw [State.gapPassed, State.stack_setStack_same, State.countLevel, State.stack_setStack_same]
  rw [← hopens] at hfind ⊢
  exact State.openReqs_grnServe hfind hwhole

/-- A class is granted: it counts at its priority, and its requests are served (R231, R233). -/
theorem decision_of_class {w : Nat} (h6 : Tab.get 0 (s.arb (.hbm n pc)).reqs 6 = 0)
    (hslow : ((s.stack n.val).throttled || s.pwr.grnThrottle) = false) (hw : w ∈ s.waitingAt (.hbm n pc))
    (hwin : s.winner (.hbm n pc) (s.waitingAt (.hbm n pc)) = some w) :
    ∃ t, exec (.arbiterDecision (.hbm n pc) e len) s = .next t ∧ Decided s (.hbm n pc) e w (t.arb (.hbm n pc)) ∧
      Tab.get 0 (t.stack n.val).lvl (pc.val * 4 + s.prioOf (.hbm n pc) w) =
        satAdd (Tab.get 0 (s.stack n.val).lvl (pc.val * 4 + s.prioOf (.hbm n pc) w)) 1 ∧
      ∀ o, (s.unit (.hbm n pc) len w).2.aim = .lines [o.id] → wholeLine o.req = false →
        (s.stack n.val).openReqs.find? (fun x => x.id = o.id) = some o →
        (t.stack n.val).openReqs.map (fun x => (x.id, x.req, x.granted)) =
          (s.stack n.val).openReqs.map (fun x => (x.id, x.req, x.granted || decide (x.id = o.id))) := by
  obtain ⟨harb, hlvl⟩ := (s.decided (.hbm n pc) e len w).channelServed_frame (n := n) (pc := pc) (s.prioOf (.hbm n pc) w)
    (s.unit (.hbm n pc) len w).2.aim
  refine ⟨_, exec_arbiterDecision_served e len h6 hslow (List.ne_nil_of_mem hw) hwin, ?_, ?_, fun o haim hwhole hfind => ?_⟩
  · rw [harb]
    exact State.arb_decided (State.calm_hbm h6) hw e len
  · rw [hlvl, State.lvl_decided]
    exact Tab.get_set_same ..
  · have hopens := (s.decided_frame (.hbm n pc) e len w).opens n.val
    rw [← hopens] at hfind ⊢
    rw [haim]
    exact State.channelServed_one _ hwhole hfind

end Channel

end Sys2Proof.Machine

section

open Sys2Proof Sys2Proof.Machine

/-- Settles O21, clause by clause: the search, who waits, a bank's hints, a decision, a pseudo-channel's decision,
preemption, and the stall watchdog with no holder, of an injection, of a straw and of a bank. -/
theorem arbitersDecide : Obligations.ArbitersDecide := by
  unfold Obligations.ArbitersDecide
  refine ⟨?_, ?_, ?_, ⟨?_, ?_⟩, ?_, ?_, ?_, ?_, ?_, ?_⟩
  · intro n prio start ws _ hlt
    refine ⟨fun h => h ▸ winnerOf_nil n prio start, fun hne => ?_⟩
    obtain ⟨w, hw⟩ := Option.isSome_iff_exists.mp (winnerOf_isSome (prio := prio) (start := start) hne hlt)
    obtain ⟨hmem, hle, -⟩ := winnerOf_eq_some hw
    exact ⟨w, hw, hmem, hle, fun _ _ => winnerOf_met_first hw⟩
  · intro s
    refine ⟨fun a r => State.waitingAt_lt, fun a r hr hreq => (s.mem_waitingAt a r).mpr ⟨hr, .inl hreq⟩, ?_, ?_, ?_, ?_⟩
    · intro i r rest hq hd
      exact State.mem_waitingAt_of_asks (show 2 < 3 by decide) (Spikelet.floretAsks_pos hq hd)
    · intro n pc o ho hopen hpc
      exact State.mem_waitingAt_of_asks o.req.cls.isLt
        (Nat.add_pos_left (List.length_pos_of_mem (Stack.mem_queued.mpr ⟨ho, rfl, hopen, hpc⟩)) _)
    · intro p r hr q hsent hinj hgiven hrouted hroom
      exact State.mem_waitingAt_of_asks hr (List.length_pos_of_mem (State.mem_injReady hsent hinj hgiven hrouted hroom))
    · intro w n vc q rest hvc hn hq hnext
      exact State.mem_waitingAt_of_asks hvc (List.length_pos_of_mem (State.mem_shfQueue hn hq hnext))
  · intro i n len w pre post r s a x h3 hw hq hlast
    have hwin := (State.winner_of_calm (State.calm_bank h3) (s.waitingAt a)).trans hw
    obtain ⟨hvalid, hahead, hwait⟩ := State.hint_decided n len hq hlast
    obtain ⟨-, hstatus, hsregs, hpc, hest⟩ := State.floret_decided n len hq hlast
    have hframe := s.decided_frame a n len w
    refine ⟨s.decided a n len w, ?_, hvalid, hahead, hwait, fun h _ hh => ?_, hstatus, hsregs, hpc,
      (congrArg (Tab.get {} · i.val) hframe.spks :), hframe.mem⟩
    · rw [exec_arbiterDecision_bank, State.arbitrate_won hwin]
    · rw [hest h hh]
      exact hwait
  · intro a n len s b k calm plain hplain hcalm
    have hplain : s.Plain a := by
      cases a <;> exact hplain
    have hcalm : s.Calm a := by
      intro e he
      cases a <;> cases he <;> exact hcalm
    have hwinner := State.winner_of_calm hcalm (s.waitingAt a)
    refine ⟨fun hnone => exec_arbiterDecision_idle n len hplain ?_, fun w hwin hw => ?_⟩
    · rw [hwinner, hnone, winnerOf_nil]
    · obtain ⟨t, hexec, hd, hmem, hinj, hshf⟩ := exec_arbiterDecision_won n len hplain hcalm hw (hwinner.trans hwin)
      exact ⟨t, hexec, hd.req, hd.reqs, hd.waited, hd.waits, hd.start, s.prioOf_lt a (State.waitingAt_lt hw), hd.starts,
        hd.holder, hd.grants, hmem, hinj, hshf⟩
  · intro n pc e len s b k pending
    refine ⟨decision_of_urgent e len, fun h6 ht hp => decision_of_idle e len h6 (by rw [ht, hp]; rfl), decision_of_gap e len,
      fun w h6 ht hp _ hwin => ?_⟩
    have hw := (winnerOf_eq_some hwin).1
    obtain ⟨t, hexec, hd, hlvl, hserve⟩ := decision_of_class e len h6 (by rw [ht, hp]; rfl) hw
      ((State.winner_of_calm (State.calm_hbm h6) _).trans hwin)
    refine ⟨t, hexec, hlvl, hd.holder, s.prioOf_lt _ (State.waitingAt_lt hw), hd.start, hd.starts,
      fun o hserved hrest h4 h5 hwhole hfind => hserve o ?_ hwhole hfind⟩
    exact (Stack.unit_aim hrest (Nat.ne_of_lt (State.waitingAt_lt hw)) h4 h5).trans (by rw [hserved]; rfl)
  · intro a e moved h s he hh hne b cut
    refine ⟨s.preempt a moved, rfl, ?_⟩
    by_cases hcut : 64 < h.bytes ∧ h.whole = false ∧ cut < h.bytes
    · rw [State.arb_preempt_split moved he hh hne hcut, if_pos hcut]
      exact ⟨b.called_emergency e, ⟨rfl, rfl⟩, fun r hr => b.called_other hr⟩
    · rw [State.arb_preempt_whole moved he hh hcut, if_neg hcut]
      exact ⟨b.called_emergency e, ⟨hh, rfl⟩, fun r hr => b.called_other hr⟩
  · exact fun a s => exec_grantStallWatchdog_idle
  · intro p h s hh c hc stalls
    refine ⟨stalls_of_no_packet hh hc, fun q => stalls_of_reply hh hc, ?_⟩
    rintro q _ _ x hq hkind hop hfn rfl rfl
    exact stalls_of_request hh hc hq hkind hop hfn
  · intro w h s hh c hc
    cases hk : s.stalledOn w.val h.who with
    | none =>
      refine ⟨s.withdrawn (.sheaf w), ?_, s.holder_withdrawn _, rfl, ?_⟩
      · rw [exec_shfStalls hc, State.sheafStall_none hh hk]
      · rintro _ ⟨⟩
    | some k =>
      obtain ⟨f, hstall, hsent, hstraw⟩ := State.sheafStall_some hh hk
      refine ⟨_, (exec_shfStalls hc).trans (congrArg _ hstall), s.holder_withdrawn _, rfl, ?_⟩
      rintro _ ⟨⟩
      exact ⟨hsent, hstraw⟩
  · intro i h s hh s0 c hc
    rw [exec_bankStalls hc]
    exact ⟨fun k haim => congrArg _ (State.bankStall_latOp hh haim),
      fun k d haim hd => congrArg _ (State.bankStall_latDrain hh haim hd)⟩
  · intro i h r rest s hh hwho haim hq c hc
    exact ⟨_, exec_bankStalls hc, State.bankStall_floret_left hh hwho haim hq⟩

end
